-- ==== Sys2Proof/Word.lean ====
section
/-!
DEFINITION. The word types of the machine: bytes, 32-bit lanes, 64-bit registers, and device addresses.
-/
namespace Sys2Proof

/-- One byte of device memory. -/
abbrev Byte := BitVec 8
/-- One lane of the vector unit, one ACC lane, one plane cell (R64, R80): 32 bits. -/
abbrev Lane := BitVec 32
/-- A control register (R8), a scalar or an address register of a room (R93): 64 bits. -/
abbrev Word := BitVec 64

end Sys2Proof
end

