-- ==== Sys2Proof/Syntax.lean ====
section
/-!
DEFINITION. The commands of the block: one constructor per row of spec/opcode_table.json, and the operands they carry.
A room instruction carries its logical room and the fields of its bundle slot (Tables 4.3, 4.5, 4.7 and 4.9); an event
carries what the outside world decides about it (which unit, which outcome, what arrived).
-/
namespace Sys2Proof

/-- The array slot's fields above OP (Table 4.3). -/
structure ArraySlot where
  gb : BitVec 5 := 0
  gs : BitVec 3 := 0
  gp : BitVec 3 := 0
  tp : BitVec 1 := 0
  aa : BitVec 4 := 0
  ia : BitVec 4 := 0
  ab : BitVec 4 := 0
  ib : BitVec 4 := 0
  asc : BitVec 4 := 0
  rsvd : BitVec 3 := 0
  e : BitVec 9 := 0
  cin : BitVec 1 := 0
  fmt : BitVec 4 := 0
  blk : BitVec 2 := 0
  ovf : BitVec 1 := 0
  rnd : BitVec 1 := 0
  fin : BitVec 1 := 0
  dst : BitVec 1 := 0
  ofmt : BitVec 4 := 0
  xs : BitVec 5 := 0
  cnt : BitVec 8 := 0
  deriving DecidableEq, Repr

/-- The vector slot's fields above OP (Table 4.5). -/
structure VectorSlot where
  vd : BitVec 5 := 0
  va : BitVec 5 := 0
  vb : BitVec 5 := 0
  vc : BitVec 5 := 0
  aa : BitVec 4 := 0
  ia : BitVec 4 := 0
  imm : BitVec 16 := 0
  fmt : BitVec 4 := 0
  ro : BitVec 1 := 0
  xs : BitVec 5 := 0
  msk : BitVec 1 := 0
  bx : BitVec 1 := 0
  deriving DecidableEq, Repr

/-- The move slot's fields above OP (Table 4.7). -/
structure MoveSlot where
  tk : BitVec 6 := 0
  asrc : BitVec 4 := 0
  adst : BitVec 4 := 0
  xl : BitVec 5 := 0
  xp : BitVec 5 := 0
  sfmt : BitVec 4 := 0
  dfmt : BitVec 4 := 0
  rnd : BitVec 1 := 0
  ovf : BitVec 1 := 0
  aop : BitVec 3 := 0
  sid : BitVec 8 := 0
  fen : BitVec 1 := 0
  xq : BitVec 5 := 0
  rsvd : BitVec 13 := 0
  deriving DecidableEq, Repr

/-- The control slot's fields above OP (Table 4.9). -/
structure ControlSlot where
  tk : BitVec 6 := 0
  d24 : BitVec 24 := 0
  cf : BitVec 2 := 0
  deriving DecidableEq, Repr

/-- A transfer of the Nimfeol fabric as it lies between two floors (R355, R356, Tables 14.2 and 14.3): its ends, its id, its header and
its data. -/
structure Transfer where
  srank : Nat
  sfloor : Nat
  drank : Nat
  dfloor : Nat
  xid : Nat
  kind : Nat
  wire : Nat := 0
  exp : Nat := 0
  len : Nat
  step : Nat
  args : List (BitVec 8) := []
  data : List (BitVec 8) := []
  deriving DecidableEq, Repr

/-- An access to the control region (R8): its address and how many bytes it asks for; a register is of 8. -/
structure CtlAccess where
  addr : Nat
  width : Nat := 8
  deriving DecidableEq, Repr

/-- What the link receiver finds (R352, R353): a flit discarded or failing its check, the symbols that the FEC corrected on each lane, a control flit
with the sequence acknowledged and the credits it returns, or a flit of 256 bytes. -/
inductive FlitIn where
  | bad (uncorrectable : Bool)
  | symbols (errs : List Nat)
  | control (acked cr0 cr1 cr2 : Nat)
  | bytes (bs : List (BitVec 8))
  deriving DecidableEq, Repr

/-- A frame that reaches no queue pair (R369, R371, R373): one that the port answers, any other, one with a bad FCS, and one that MACsec rejects. -/
inductive PortFrame where
  | service
  | other
  | badFcs
  | unsecured
  deriving DecidableEq, Repr

/-- The commands: one constructor per row of the table, its mnemonic and rule in its docstring. -/
inductive Instr where
  /-- ALOAD (R97): Array-slot instruction that loads a gang's weight tiles into its shadow planes from the room store. -/
  | aload (room : Nat) (f : ArraySlot)
  /-- ASWAP (R64): Array-slot instruction that makes a gang's shadow planes active for rows issued after it. -/
  | aswap (room : Nat) (f : ArraySlot)
  /-- AROW (R98): Array-slot instruction that issues one mode N or mode T row into a gang and accumulates the result into an ACC entry. -/
  | arow (room : Nat) (f : ArraySlot)
  /-- AOROW (R100): Array-slot instruction that issues one mode O row; with END set it ends the pass and drains the plane. -/
  | aorow (room : Nat) (f : ArraySlot)
  /-- ADRAIN (R99): Array-slot instruction that drains and converts a run of ACC entries to the room store. -/
  | adrain (room : Nat) (f : ArraySlot)
  /-- ASTAT (R114): Array-slot instruction that reads one part of a gang's matmul status record, optionally clearing it. -/
  | astat (room : Nat) (f : ArraySlot)
  /-- ACLR (R114): Array-slot instruction that clears all four parts of a gang's matmul status record. -/
  | aclr (room : Nat) (f : ArraySlot)
  /-- VADD (R59): Vector instruction that adds two registers lane by lane in binary32. -/
  | vadd (room : Nat) (f : VectorSlot)
  /-- VSUB (R59): Vector instruction that subtracts two registers lane by lane in binary32. -/
  | vsub (room : Nat) (f : VectorSlot)
  /-- VMUL (R59): Vector instruction that multiplies two registers lane by lane in binary32. -/
  | vmul (room : Nat) (f : VectorSlot)
  /-- VFMA (R59): Vector instruction that performs a fused multiply-add per lane with one rounding. -/
  | vfma (room : Nat) (f : VectorSlot)
  /-- VDIV (R102): Vector instruction that divides lane by lane and occupies the iterative stage for 8 cycles. -/
  | vdiv (room : Nat) (f : VectorSlot)
  /-- VSQRT (R102): Vector instruction that takes the square root per lane and occupies the iterative stage for 8 cycles. -/
  | vsqrt (room : Nat) (f : VectorSlot)
  /-- VMIN (R59): Vector instruction that takes the IEEE minimum per lane. -/
  | vmin (room : Nat) (f : VectorSlot)
  /-- VMAX (R59): Vector instruction that takes the IEEE maximum per lane. -/
  | vmax (room : Nat) (f : VectorSlot)
  /-- VCEQ (R101): Vector instruction that compares lanes for equality and writes all-ones or zero masks. -/
  | vceq (room : Nat) (f : VectorSlot)
  /-- VCLT (R101): Vector instruction that compares lanes for less-than and writes masks. -/
  | vclt (room : Nat) (f : VectorSlot)
  /-- VCLE (R101): Vector instruction that compares lanes for less-or-equal and writes masks. -/
  | vcle (room : Nat) (f : VectorSlot)
  /-- VSEL (R101): Vector instruction that selects per lane between two sources under a mask register. -/
  | vsel (room : Nat) (f : VectorSlot)
  /-- VIADD (R101): Vector instruction that adds INT32 lanes with wrap or saturation. -/
  | viadd (room : Nat) (f : VectorSlot)
  /-- VISUB (R101): Vector instruction that subtracts INT32 lanes with wrap or saturation. -/
  | visub (room : Nat) (f : VectorSlot)
  /-- VIMUL (R101): Vector instruction that multiplies INT32 lanes keeping the low 32 bits. -/
  | vimul (room : Nat) (f : VectorSlot)
  /-- VRELU (R101): Vector instruction that applies ReLU per lane. -/
  | vrelu (room : Nat) (f : VectorSlot)
  /-- VRELUD (R84): Vector instruction that forms the ReLU derivative per lane. -/
  | vrelud (room : Nat) (f : VectorSlot)
  /-- VCVTF (R80): Vector instruction that converts INT32 lanes to binary32 by RNE. -/
  | vcvtf (room : Nat) (f : VectorSlot)
  /-- VCVTI (R101): Vector instruction that converts binary32 lanes to INT32 with saturation and counts range cases. -/
  | vcvti (room : Nat) (f : VectorSlot)
  /-- VLD (R80): Vector instruction that loads 256 values from the room store and widens them to lanes. -/
  | vld (room : Nat) (f : VectorSlot)
  /-- VST (R80): Vector instruction that narrows a register and stores it to the room store with an optional supplied scale. -/
  | vst (room : Nat) (f : VectorSlot)
  /-- VBC (R101): Vector instruction that broadcasts a scalar into every lane. -/
  | vbc (room : Nat) (f : VectorSlot)
  /-- VRSUM (R81): Vector instruction that sums a register's lanes by the fixed pairwise tree into a scalar. -/
  | vrsum (room : Nat) (f : VectorSlot)
  /-- VRMIN (R81): Vector instruction that takes the minimum across lanes into a scalar. -/
  | vrmin (room : Nat) (f : VectorSlot)
  /-- VRMAX (R81): Vector instruction that takes the maximum across lanes into a scalar. -/
  | vrmax (room : Nat) (f : VectorSlot)
  /-- VXTR (R101): Vector instruction that extracts one lane into a scalar register. -/
  | vxtr (room : Nat) (f : VectorSlot)
  /-- VSFU (R82): Vector instruction that evaluates a special-function primitive or composite on the SFU. -/
  | vsfu (room : Nat) (f : VectorSlot)
  /-- VSFUD (R84): Vector instruction that forms a function's derivative by re-evaluation on the SFU. -/
  | vsfud (room : Nat) (f : VectorSlot)
  /-- MLOAD (R104): Move instruction that arms a token and starts an elastic copy from device memory into the room store. -/
  | mload (room : Nat) (f : MoveSlot)
  /-- MSTORE (R104): Move instruction that arms a token and starts an elastic converting copy from the room store to device memory. -/
  | mstore (room : Nat) (f : MoveSlot)
  /-- MROOM (R23): Move instruction that starts an elastic copy into another logical room's store. -/
  | mroom (room : Nat) (f : MoveSlot)
  /-- MATOM (R148): Move instruction that starts element-wise atomic operations in a cellar cache. -/
  | matom (room : Nat) (f : MoveSlot)
  /-- MGATHER (R194): Move instruction that submits a gather descriptor to the floor's Larder. -/
  | mgather (room : Nat) (f : MoveSlot)
  /-- MSCATTER (R205): Move instruction that submits a scatter descriptor to the floor's Larder. -/
  | mscatter (room : Nat) (f : MoveSlot)
  /-- MSEND (R360): Move instruction that forms one fabric transfer from a fabric descriptor. -/
  | msend (room : Nat) (f : MoveSlot)
  /-- MRECV (R361): Move instruction that arms a receive slot or a data-moving collective. -/
  | mrecv (room : Nat) (f : MoveSlot)
  /-- MREDUCE (R316): Move instruction that binds the room's reduction path to a reducing collective descriptor. -/
  | mreduce (room : Nat) (f : MoveSlot)
  /-- MFENCE (R103): Move instruction whose token completes when every earlier elastic operation of the room has completed. -/
  | mfence (room : Nat) (f : MoveSlot)
  /-- MPREF (R147): Move instruction that brings stack lines into the cellar cache as held lines. -/
  | mpref (room : Nat) (f : MoveSlot)
  /-- WAIT (R109): Control instruction that holds the sequencer until a token completes or its deadline, and accounts lateness. -/
  | wait (room : Nat) (f : ControlSlot)
  /-- TSTAT (R107): Control instruction that reads a token's status word into a scalar register. -/
  | tstat (room : Nat) (f : ControlSlot)
  /-- XSET (R93): Control instruction that sets a scalar register from a sign-extended immediate. -/
  | xset (room : Nat) (f : ControlSlot)
  /-- XADD (R93): Control instruction that adds two scalar registers modulo 2^64. -/
  | xadd (room : Nat) (f : ControlSlot)
  /-- XSUB (R93): Control instruction that subtracts two scalar registers modulo 2^64. -/
  | xsub (room : Nat) (f : ControlSlot)
  /-- XMUL (R93): Control instruction that multiplies two scalar registers modulo 2^64. -/
  | xmul (room : Nat) (f : ControlSlot)
  /-- XAND (R93): Control instruction that ANDs two scalar registers. -/
  | xand (room : Nat) (f : ControlSlot)
  /-- XOR (R93): Control instruction that ORs two scalar registers. -/
  | xor (room : Nat) (f : ControlSlot)
  /-- XSHL (R93): Control instruction that shifts a scalar register left. -/
  | xshl (room : Nat) (f : ControlSlot)
  /-- XSHR (R93): Control instruction that shifts a scalar register right logically. -/
  | xshr (room : Nat) (f : ControlSlot)
  /-- XADDI (R93): Control instruction that adds a sign-extended immediate to a scalar register. -/
  | xaddi (room : Nat) (f : ControlSlot)
  /-- AMOV (R95): Control instruction that copies a scalar register into an address register. -/
  | amov (room : Nat) (f : ControlSlot)
  /-- AADD (R95): Control instruction that adds a scalar register to an address register. -/
  | aadd (room : Nat) (f : ControlSlot)
  /-- LOOP (R108): Control instruction that decrements a counter and branches while it is non-zero. -/
  | loop (room : Nat) (f : ControlSlot)
  /-- JMP (R108): Control instruction that branches unconditionally within the phase's program. -/
  | jmp (room : Nat) (f : ControlSlot)
  /-- BNZ (R108): Control instruction that branches when a scalar register is non-zero. -/
  | bnz (room : Nat) (f : ControlSlot)
  /-- SYNC (R127): Control instruction by which a room arrives at its phase's END_SYNC and reports its lateness counters. -/
  | sync (room : Nat) (f : ControlSlot)
  /-- PEND (R108): Control instruction that ends the room's phase and starts the next program fill. -/
  | pend (room : Nat) (f : ControlSlot)
  /-- HALT (R127): Control instruction that stops the room's program for the rest of the step. -/
  | halt (room : Nat) (f : ControlSlot)
  /-- RSTAT (R115): Control instruction that reads a room status field, optionally clearing it. -/
  | rstat (room : Nat) (f : ControlSlot)
  /-- FTIME (R117): Control instruction that reads fabric time into a scalar register. -/
  | ftime (room : Nat) (f : ControlSlot)
  /-- WAIT_TIMEOUT (R112): A WAIT held past the phase's wait limit stops the room. -/
  | waitTimeout (room : Nat)
  /-- MLOAD_DONE (R107): Completion of an MLOAD, writing its last line and completing its token with success or failure. -/
  | mloadDone (room tk : Nat)
  /-- MSTORE_DONE (R107): Completion of an MSTORE at its destination, completing its token. -/
  | mstoreDone (room tk : Nat)
  /-- MROOM_DONE (R107): Completion of an MROOM in the other room's store or swap slot. -/
  | mroomDone (room tk : Nat)
  /-- MATOM_DONE (R106): Completion of every element of a MATOM in the cellar cache. -/
  | matomDone (room tk : Nat)
  /-- MGATHER_DONE (R197): Completion of a gather when every named row is written or has failed. -/
  | mgatherDone (room tk : Nat)
  /-- MSCATTER_DONE (R205): Completion of a scatter once the Larder has read every row gradient. -/
  | mscatterDone (room tk : Nat)
  /-- MSEND_DONE (R360): Completion of an MSEND on acknowledgement of its transfer. -/
  | msendDone (room tk : Nat)
  /-- MRECV_DONE (R361): Completion of a receive when its one SEND, or every collective share, has been written. -/
  | mrecvDone (room tk : Nat)
  /-- MREDUCE_DONE (R270): Completion of an MREDUCE when the collective has taken the descriptor's last slice. -/
  | mreduceDone (room tk : Nat)
  /-- MFENCE_DONE (R103): Completion of an MFENCE once every earlier elastic operation has completed. -/
  | mfenceDone (room tk : Nat)
  /-- MPREF_DONE (R147): Completion of an MPREF when its lines are resident. -/
  | mprefDone (room tk : Nat)
  /-- PROGRAM_FILL_DONE (R126): Completion of copying a room's next-phase program into its bundle buffer. -/
  | programFillDone (room : Nat)
  /-- TURN_SWAP (R138): At a turn boundary the sequence unit saves the departing logical room's live extent and registers and loads the arriving one's. -/
  | turnSwap (failed : Bool)
  /-- SYNC_RELEASE (R128): A floor or module sync point releases at its planned time or 16 cycles after the last arrival, starting the next phase. -/
  | syncRelease
  /-- BARRIER_ARRIVAL (R129): A module, once its rooms and every hold condition are met, forwards its subtree's arrival with stretch, turn, switch, DRAINED and proposals. -/
  | barrierArrival
  /-- BARRIER_ARRIVE_RECEIVE (R129): Receipt of a child's ARRIVE barrier transfer, merged into the subtree's arrival. -/
  | barrierArriveReceive (x : Transfer)
  /-- ROOT_DEADLINE (R129): At T_plan − H the root sends a release notice for T_plan if the tree has arrived, or later for t_c + H. -/
  | rootDeadline
  /-- BARRIER_NOTICE_RECEIVE (R129): Receipt of a release notice, forwarded down the tree and armed for its release cycle. -/
  | barrierNoticeReceive (x : Transfer)
  /-- BARRIER_RELEASE (R129): In the notice's fabric-time cycle every module releases the barrier and applies the agreed results. -/
  | barrierRelease
  /-- TOLERANT_RELEASE (R131): A tolerant barrier releases by T_plan + θ + H listing the ranks missing at T_plan + θ. -/
  | tolerantRelease
  /-- BARRIER_TIMEOUT (R131): A wait-policy barrier incomplete at T_plan + BARRIER_LIMIT makes the root broadcast an abort. -/
  | barrierTimeout
  /-- BARRIER_ABORT_RECEIVE (R132): Receipt of an ABORT barrier transfer, forwarded or broadcast with its stop cycle. -/
  | barrierAbortReceive (x : Transfer)
  /-- STEP_STOP (R132): In the abort's stop cycle every module stops the step and records ABORT. -/
  | stepStop
  /-- SCH_CTRL_LOAD (R125): Writing SCH_CTRL.LOAD verifies and loads the schedule image at SCH_IMAGE. -/
  | schCtrlLoad
  /-- SCH_CTRL_START (R344): Writing SCH_CTRL.START arrives at the first start barrier, optionally with replay active. -/
  | schCtrlStart
  /-- SCH_CTRL_STOP (R132): Writing SCH_CTRL.STOP stops the step with an abort. -/
  | schCtrlStop
  /-- TIME_EXCHANGE (R366): Every 2^16 cycles the module exchanges time flits on its time link, estimates its offset and slews its clock. -/
  | timeExchange (ok : Bool) (t1 t2 t3 t4 : Nat)
  /-- HOLDOVER_EXPIRY (R367): After 650,000 cycles without a valid exchange the offset estimate counts as outside ±1.5 ns. -/
  | holdoverExpiry
  /-- TIME_UNLOCKED (R119): An offset outside ±1.5 ns for 1 ms stops the step. -/
  | timeUnlocked
  /-- GM_CHANGE (R368): When the grandmaster's advertisement is absent four intervals the standby becomes grandmaster. -/
  | gmChange (standby : Bool) (sbRank : Nat)
  /-- PPS_EDGE (R118): A PPS rising edge makes the grandmaster latch its fabric time. -/
  | ppsEdge
  /-- SCRUB_READ (R176): Every 2,048 cycles a controller scrubs the next line of a live channel. -/
  | scrubRead (cellar ch : Nat)
  /-- PERIODIC_RETRAIN_START (R179): A channel due for periodic retrain starts it after a qualifying sync release, one at a time. -/
  | periodicRetrainStart
  /-- DRIFT_RETRAIN_START (R179): A rise of 16 corrected interface errors within 2^20 cycles starts a drift retrain. -/
  | driftRetrainStart (cellar ch : Nat)
  /-- FIRMWARE_RETRAIN (R184): Writing MEM_CH_STATE.RETRAIN requests a retrain, started, merged or refused. -/
  | firmwareRetrain (cellar ch : Nat)
  /-- RETRAIN_COMPLETE (R181): A retrain ends, releasing held requests on success or repeating up to three attempts. -/
  | retrainComplete (cellar ch rdT wrT rdV wrV : Nat)
  /-- CHANNEL_MAPOUT (R182): Writing MEM_CH_STATE.MAPOUT moves a channel to PENDING_OUT or is deferred or ignored. -/
  | channelMapout (cellar ch : Nat)
  /-- CELLAR_TEMP_READING (R178): Every 1 ms a cellar takes its die readings and applies refresh and heat thresholds. -/
  | cellarTempReading (cellar temp die : Nat)
  /-- FLOAT_MOVE_COMPLETE (R154): A floating move finishes its last granule and takes its new backing. -/
  | floatMoveComplete (entry : Nat)
  /-- PACKED_BLOCK_WRITEBACK (R162): An evicted packed block is repacked and written back to its slot. -/
  | packedBlockWriteback (slot : Nat)
  /-- LDR_PREP_SUBMIT (R193): Writing LDR_PREP_IN submits an index list for sort-unique preparation. -/
  | ldrPrepSubmit (floor addr : Nat)
  /-- PREP_COMPLETE (R192): A preparation finishes writing its prepared list and sets STATE last. -/
  | prepComplete (floor : Nat)
  /-- GATHER_ROW_READ_DONE (R197): A home row read completes and the row is decoded to BF16 and written to the room store. -/
  | gatherRowReadDone (room tk n : Nat)
  /-- INDEX_RECEIVE (R203): A serving Larder receives an index block, checks its version, reads the rows and returns replies. -/
  | indexReceive (x : Transfer)
  /-- REPLY_RECEIVE (R204): A requesting Larder receives a reply block and decodes each row into the room store or prefetch buffer. -/
  | replyReceive (x : Transfer)
  /-- SCATTER_RECEIVE (R207): A home receives contribution records and queues them in the cellar update queue. -/
  | scatterReceive (x : Transfer)
  /-- CELLAR_UPDATE_COMPLETE (R212): A cellar update engine finishes applying its step's queue. -/
  | cellarUpdateComplete (cellar : Nat)
  /-- VERSION_LOAD (R227): Version command LOAD makes the lowest FREE slot LOADING with given addresses. -/
  | versionLoad (addr : Nat)
  /-- VERSION_READY (R227): Version command READY makes a LOADING version LOADED. -/
  | versionReady (addr : Nat)
  /-- VERSION_SWITCH_REQUEST (R228): Version command SWITCH stands as the module's switch request. -/
  | versionSwitchRequest (addr : Nat)
  /-- VERSION_BIND (R230): Version command BIND increments a version's evaluation references. -/
  | versionBind (addr : Nat)
  /-- VERSION_UNBIND (R230): Version command UNBIND decrements a version's evaluation references. -/
  | versionUnbind (addr : Nat)
  /-- VERSION_DISCARD (R227): Version command DISCARD frees an unreferenced LOADING or LOADED version. -/
  | versionDiscard (addr : Nat)
  /-- MIGRATE_RECEIVE (R238): A target receives migration records, writes the rows into their slots and acknowledges. -/
  | migrateReceive (x : Transfer)
  /-- PREFETCH_SUBMIT (R241): Writing LDR_PF_LIST submits a prepared list for prefetch and starts home prefetch. -/
  | prefetchSubmit (floor addr : Nat)
  /-- SLICE_DELIVER (R281): A reduced weight-gradient slice reaches its owner's update engine and is applied or buffered. -/
  | sliceDeliver (k : Nat)
  /-- BLOCK_PROCESS_COMPLETE (R282): The block unit finishes a block rule and frees its block buffer. -/
  | blockProcessComplete (floor : Nat)
  /-- COLLECTIVE_RECEIVE (R318): A member receives a collective transfer and forwards, sums or writes it in fixed order. -/
  | collectiveReceive (x : Transfer)
  /-- JOURNAL_PUT (R338): Writing SCH_JRNL_PUT appends a firmware record to the journal. -/
  | journalPut (addr : Nat)
  /-- LANE_SPARE (R351): A lane whose error ratio exceeds 10^-4 over 2^24 cycles is replaced by the spare at a flit boundary. -/
  | laneSpare (link lane : Nat)
  /-- LANE_LOSS_OF_LOCK (R351): A lane losing symbol lock is replaced by the spare. -/
  | laneLossOfLock (link lane : Nat)
  /-- SPARE_NOW (R351): Writing FAB_LNK_CTRL.SPARE_NOW replaces the named lane with the spare. -/
  | spareNow (link : Nat)
  /-- FLIT_RECEIVE (R353): A flit arrives on a link and is checked, NAKed, credited or passed to the transfer layer. -/
  | flitReceive (link : Nat) (f : FlitIn)
  /-- NAK_RECEIVE (R353): A NAK control flit makes the transmitter replay from the named flit. -/
  | nakReceive (link seq : Nat)
  /-- LINK_ACK_TIMEOUT (R353): A link without acknowledgement for 2^20 cycles goes down and retrains. -/
  | linkAckTimeout (link : Nat)
  /-- LINK_RETRAIN (R353): Writing FAB_LNK_CTRL.RETRAIN requests a link retrain. -/
  | linkRetrain (link : Nat)
  /-- LINK_TRAIN_COMPLETE (R353): A link training attempt ends with the link up or counted as failed. -/
  | linkTrainComplete (link : Nat) (ok : Bool) (cr0 cr1 cr2 : Nat)
  /-- ACK_RECEIVE (R358): An acknowledgement flit completes transfers with their status at the source. -/
  | ackReceive (acks : List (Nat × Nat × Nat × Nat))
  /-- E2E_TIMEOUT (R358): An unacknowledged transfer is resent whole after the timeout, up to RETRIES times. -/
  | e2eTimeout (floor xid : Nat)
  /-- SEND_RECEIVE (R361): A SEND transfer is written at its armed receive slot, which disarms. -/
  | sendReceive (x : Transfer)
  /-- PEER_WRITE_RECEIVE (R363): A PEER_WRITE lands at its address if one permission entry admits it. -/
  | peerWriteReceive (x : Transfer)
  /-- RDMA_WRITE (R383): A RoCE RDMA WRITE under a key is placed through the home cellar caches and acknowledged. -/
  | rdmaWrite (qp key va : Nat) (bs : List Byte) (ce : Bool)
  /-- RDMA_READ (R382): A RoCE RDMA READ returns lines of the Window or Letterbox as they stand. -/
  | rdmaRead (qp key va n : Nat) (ce : Bool)
  /-- ROCE_SEND (R392): A 128-B RoCE SEND is written as a command slot and acts as its queue's doorbell. -/
  | roceSend (qp : Nat) (bs : List Byte) (ce : Bool)
  /-- CNP_RECEIVE (R372): A congestion notification reduces the QP's rate and raises its weight. -/
  | cnpReceive (qp : Nat)
  /-- CC_TIMER (R372): Each TIMER µs without a CNP a QP decays its weight and recovers rate. -/
  | ccTimer (qp : Nat)
  /-- ROCE_ACK_TIMEOUT (R371): A QP's local ACK timeout retransmits go-back-N until its retry count is used. -/
  | roceAckTimeout (qp : Nat)
  /-- PORT_SERVICE_FRAME (R371): ARP, neighbour discovery, ICMP echo or LLDP is answered; other non-QP frames are dropped. -/
  | portServiceFrame (port : Nat) (f : PortFrame)
  /-- EAPOL_FRAME (R373): An EAPOL frame reaches Travar's MKA for MACsec key agreement. -/
  | eapolFrame (port : Nat) (keyed : Bool)
  /-- PORCH_LINK_DOWN (R374): A Porch port losing its link is recorded without changing sessions. -/
  | porchLinkDown (port : Nat)
  /-- PORCH_LINK_UP (R484): A Porch port with an allowed pluggable comes up, enforcing MACsec if enabled. -/
  | porchLinkUp (port : Nat) (allowed : Bool)
  /-- PRODUCER_WRITE (R392): A doorbell write to PRODUCER advances the queue's producer within range. -/
  | producerWrite (q v : Nat)
  /-- RESUME_WRITE (R393): A RESUME write restarts a stopped queue at the named sequence. -/
  | resumeWrite (q v : Nat)
  /-- CQ_CONSUMER_WRITE (R392): A CQ_CONSUMER write advances the host consumer of completion records. -/
  | cqConsumerWrite (q v : Nat)
  /-- COMMAND_CONSUME (R393): A queue with C ≠ P and room takes the next command slot and checks its CRC. -/
  | commandConsume (q : Nat)
  /-- COMMAND_REREAD (R393): Every 250 ns a torn slot is re-read, up to 8 times. -/
  | commandReread (q : Nat)
  /-- NOP (R399): Travar command that does nothing and completes. -/
  | nop (q : Nat)
  /-- QUERY (R399): Travar command that returns a selected state value. -/
  | query (q : Nat)
  /-- REG_READ (R399): Travar command that returns a control register's value. -/
  | regRead (q : Nat)
  /-- REG_WRITE (R399): Travar command that writes a control register outside the protected blocks. -/
  | regWrite (q : Nat)
  /-- OPEN_SESSION (R378): Travar command that opens a session slot with a new generation, keys and QPs. -/
  | openSession (q : Nat)
  /-- CLOSE_SESSION (R381): Travar command that returns a session slot to CLOSED. -/
  | closeSession (q : Nat)
  /-- REGISTER_REGION (R380): Travar command that registers a host notice-ring region. -/
  | registerRegion (q : Nat)
  /-- WIN_MOVE (R384): Travar command that moves a session's Window base. -/
  | winMove (q : Nat)
  /-- SET_STAGING (R385): Travar command that configures a feeder session's staging ring. -/
  | setStaging (q : Nat)
  /-- BATCH (R387): Travar command that checks and accepts a batch part, journals it and submits its lists. -/
  | batch (q : Nat)
  /-- JOB_LOAD (R400): Travar command that places the job's allocations and loads its schedule image. -/
  | jobLoad (q modules : Nat)
  /-- JOB_START (R344): Travar command that sets replay fields and writes SCH_CTRL.START. -/
  | jobStart (q : Nat)
  /-- JOB_STOP (R399): Travar command that stops the step in progress. -/
  | jobStop (q : Nat)
  /-- JOB_UNLOAD (R385): Travar command that unloads the job and clears staging configuration. -/
  | jobUnload (q : Nat)
  /-- RESTORE (R418): Travar command that restores an epoch, rebuilding channels, placements and state. -/
  | restore (q : Nat) (written : Bool)
  /-- JOURNAL_SAFE (R341): Travar command that raises SCH_JRNL_SAFE. -/
  | journalSafe (q : Nat)
  /-- VERSION (R227): Travar command that executes a version command block. -/
  | version (q : Nat)
  /-- MAPOUT (R182): Travar command that writes MEM_CH_STATE.MAPOUT for a channel. -/
  | mapout (q : Nat)
  /-- ATTEST (R470): Travar command that signs and writes a quote with the identity key. -/
  | attest (q : Nat)
  /-- WRAP_CAK (R462): Travar command that wraps a CAK under the wrap key and returns the entry. -/
  | wrapCak (q : Nat)
  /-- NOTICE_WRITE_ACK (R398): Acknowledgement of a notice's first host write triggers the write of its MARK. -/
  | noticeWriteAck (slot nseq : Nat)
  /-- MGMT_REQUEST (R471): A management-channel datagram is authenticated against challenge and key and executes its command. -/
  | mgmtRequest (datagram : List Byte)
  /-- EPOCH_SHADOW_COPY_DONE (R405): The engine finishes copying engine state, PLAIN and HELD into the shadow region. -/
  | epochShadowCopyDone
  /-- DENSE_COPY_DONE (R406): The engine finishes copying every DENSE bank into the shadow region. -/
  | denseCopyDone
  /-- EPOCH_COMPLETE (R409): An epoch's records and EPOCH_END are flushed and the superblock is rewritten. -/
  | epochComplete
  /-- ATTIC_IO_COMPLETE (R411): An NVMe command completion arrives from an attic drive. -/
  | atticIoComplete (drive queue status : Nat)
  /-- ATTIC_COMMAND_TIMEOUT (R417): An attic command not completed within 2 s is aborted and counted. -/
  | atticCommandTimeout (drive : Nat)
  /-- ATTIC_DRIVE_LINK_LOST (R417): Loss of a drive's link marks it FAILED. -/
  | atticDriveLinkLost (drive : Nat)
  /-- ATTIC_HEALTH_POLL (R415): Hourly and at epoch completion the engine reads each drive's SMART log. -/
  | atticHealthPoll (drive used spare threshold warn : Nat)
  /-- ATTIC_SCRUB (R416): Patrol scrub reads and checks the next retained segment, rewriting aged ones. -/
  | atticScrub (drive : Nat) (bad : Bool)
  /-- ATTIC_ADOPT (R417): Writing ATT_DRV_STATE.ADOPT adopts a drive and starts its rebuild. -/
  | atticAdopt (drive serial blocks : Nat) (ok : Bool)
  /-- ATTIC_REBUILD_COMPLETE (R417): A rebuilding drive finishes reconstruction and becomes ONLINE. -/
  | atticRebuildComplete (drive : Nat) (ok : Bool)
  /-- ATTIC_RETIRE (R417): Writing ATT_DRV_STATE.RETIRE marks a drive FAILED. -/
  | atticRetire (drive : Nat)
  /-- ATTIC_IMPORT (R420): Writing ATT_IMPORT checks and appends a rank's replica records to the attic. -/
  | atticImport (addr : Nat)
  /-- EXPORT_TAIL_ADVANCE (R410): Advancing ATT_EXPORT_PTR.TAIL consumes export records and updates the replica epoch. -/
  | exportTailAdvance (tail : Nat)
  /-- MP_WATCHDOG (R429): A core's watchdog reaching zero raises MP_WATCHDOG and leads to a warm restart. -/
  | mpWatchdog (core : Nat)
  /-- MP_SRAM_UNCORRECTABLE (R428): A double-bit error in a management SRAM word leads to a warm restart. -/
  | mpSramUncorrectable (word : Nat) (double : Bool)
  /-- WATCHDOG_KICK (R429): Writing MP_WDOG.KICK reloads a core's watchdog. -/
  | watchdogKick (core : Nat)
  /-- IRQ_LEVEL_CHANGE (R433): An interrupt source's level changes and it is assigned, unassigned or delivered as a host notice. -/
  | irqLevelChange (source : Nat)
  /-- IRQ_HOLDOFF_EXPIRY (R432): A group's hold-off timer expires and its pending sources may be assigned. -/
  | irqHoldoffExpiry (group : Nat)
  /-- IRQ_CLAIM (R434): Reading IRQ_CLAIM claims the most urgent assigned source and pushes its priority. -/
  | irqClaim (target : Nat)
  /-- IRQ_EOI (R435): Writing IRQ_EOI pops the named active source from a target. -/
  | irqEoi (target source : Nat)
  /-- IRQ_SWSET (R431): Writing IRQ_SWSET raises a software source's level. -/
  | irqSwset (source : Nat)
  /-- IRQ_SWCLR (R431): Writing IRQ_SWCLR lowers a software source's level. -/
  | irqSwclr (source : Nat)
  /-- EVR_RECORD_WRITE (R437): When room allows, the recorder writes the next queued record into its ring. -/
  | evrRecordWrite
  /-- EVR_DATA (R440): Reading EVR_DATA returns 8 ring bytes and advances the cursor. -/
  | evrData
  /-- EVR_CURSOR (R440): Writing EVR_CURSOR frees ring bytes up to the new offset. -/
  | evrCursor (offset : Nat)
  /-- EVR_FIRE (R441): Writing EVR_FIRE fires a software trigger. -/
  | evrFire (trigger : Nat)
  /-- EVR_SOFT (R437): Writing EVR_SOFT queues a SOFT record. -/
  | evrSoft (code arg : Nat)
  /-- EVR_TIME_TRIGGER (R441): A fabric-time trigger fires when fabric time equals its set time. -/
  | evrTimeTrigger (trigger : Nat)
  /-- EVR_SNAPSHOT_COMPLETE (R442): A trigger's register snapshot finishes and its record is queued, optionally freezing. -/
  | evrSnapshotComplete
  /-- CVU_GO (R445): Writing CVU_GO starts a check-value computation on a channel. -/
  | cvuGo (channel count : Nat)
  /-- CVU_COMPLETE (R445): A check-value computation ends, writing its result or error. -/
  | cvuComplete (channel : Nat)
  /-- FREEZE_N (R481): FREEZE_N held low for 1 µs freezes the module. -/
  | freezeN
  /-- MP_FREEZE_NOW (R447): Writing MP_FREEZE.NOW with the key freezes the module. -/
  | mpFreezeNow (key : Nat)
  /-- TIMED_FREEZE (R447): Fabric time reaching MP_FREEZE_AT while armed freezes every floor in one cycle. -/
  | timedFreeze
  /-- SCAN_SELECT (R449): JTAG instruction that selects a scan chain in a frozen module. -/
  | scanSelect (chain : Nat)
  /-- SCAN_READ (R449): JTAG instruction that shifts out the selected scan chain. -/
  | scanRead
  /-- POWER_SAMPLE (R454): Every 100 µs the module measures V54 and input power and acts on thresholds. -/
  | powerSample (volts watts avg : Nat) (floors : List Nat) (cellars : List (Nat × Nat))
  /-- RAIL_OVERLOAD (R452): A rail drawing over its limit for 10 µs raises POWER_OVERLOAD. -/
  | railOverload (kind inst : Nat)
  /-- DROOP (R457): A droop detector sees VCORE below VMIN + 10 mV and counts it. -/
  | droop (floor : Nat) (below : Bool)
  /-- FLOOR_TEMP_SAMPLE (R458): Every 100 µs a floor samples its sensors and applies thermal thresholds. -/
  | floorTempSample (floor temp sensor speed : Nat)
  /-- SEC_MR3_EXT (R469): Writing SEC_MR3_EXT extends MR3 with 64 B of device memory. -/
  | secMr3Ext (addr : Nat)
  /-- PRESENT_N_ASSERT (R478): After PRESENT_N has been low for 100 ms the hot-swap stage closes V54. -/
  | presentNAssert
  /-- PRESENT_N_DEASSERT (R478): PRESENT_N high for 10 µs opens the hot-swap stage and removes all power. -/
  | presentNDeassert
  /-- STANDBY_STAGE (R472): Start-up stage 1 brings standby rails up and releases power-on reset. -/
  | standbyStage (serviceLow : Bool)
  /-- BOOT_ROM_STAGE (R468): Start-up stage 2 self-tests the ROM and reconstructs the PUF seed. -/
  | bootRomStage (romOk : Bool) (stepping : Nat)
  /-- TRAVAR_STAGE (R466): Start-up stage 3 verifies Travar slot A then B and extends MR0. -/
  | travarStage
  /-- CONFIGURATION_STAGE (R464): Start-up stage 4 loads the configuration and repair parts and opens the management channel. -/
  | configurationStage
  /-- FLOOR_BRINGUP_STAGE (R456): Start-up stage 5 powers floors in order, measures VMIN and self-tests rooms. -/
  | floorBringupStage (badRail : Option Nat) (vmins speeds : List Nat) (arrays : List (Nat × Nat)) (rooms : List Nat)
  /-- CELLAR_TRAINING_STAGE (R185): Start-up stage 6 trains and margins every channel. -/
  | cellarTrainingStage (failed : List Nat) (margins : List (Nat × Nat × Nat × Nat × Nat × Nat))
  /-- LINK_STAGE (R472): Start-up stage 7 trains links, ports and attic root ports and adopts drives. -/
  | linkStage (drives : List (Nat × Nat × Nat × Bool))
  /-- FABRIC_TIME_STAGE (R368): Start-up stage 8 elects the grandmaster, sets the count once and locks. -/
  | fabricTimeStage (gm standby : Bool) (gmRank sbRank : Nat)
  /-- ATTESTATION_STAGE (R473): Start-up stage 9 generates the identity key and writes a changed repair map. -/
  | attestationStage (written : Bool)
  /-- LETTERBOX_STAGE (R472): Start-up stage 10 sets LBX_CTRL.OPEN. -/
  | letterboxStage
  /-- SERVICE_IMAGE_WRITE (R467): In service mode a verified Travar image is written to a flash slot. -/
  | serviceImageWrite (slot : Nat) (image : List Byte)
  /-- SERVICE_CONFIG_WRITE (R467): In service mode a verified newer user configuration part is written. -/
  | serviceConfigWrite (part : List Byte)
  /-- SERVICE_RESET (R467): In service mode a reset request resets the module. -/
  | serviceReset
  /-- REGISTER_WRITE (R9): A write to a control register field without behaviour of its own sets, clears or ignores it by access code. -/
  | registerWrite (acc : CtlAccess) (data : Word)
  /-- SERVE_ROW_READ_DONE (R203): A row read issued for another module's index block completes, is placed in a reply block and frees its serve context. -/
  | serveRowReadDone (floor k e : Nat)
  /-- XID_RELEASE (R358): When (RETRIES + 1) × TIMEOUT cycles have passed since a transfer's first send, its XID and the destination's completion record expire, and a transfer held for want of an XID proceeds. -/
  | xidRelease (floor xid : Nat)
  /-- REF_OK_CHANGE (R479): REF100 leaves or re-enters ±100 ppm of the carrier crystal, or a PPS edge fails to arrive within 1 µs of 1 s, and REF_OK and the module's grandmaster candidacy change. -/
  | refOkChange (ok gm standby : Bool) (gmRank sbRank : Nat)
  /-- CARRIER_REGULATOR_SENSOR_TRIP (R458): A carrier-regulator temperature sensor reaching 125 °C trips the hardware, switching the main domains off within 1 ms and driving THERMTRIP_N low. -/
  | carrierRegulatorSensorTrip
  /-- MANAGEMENT_PORT_LINK_CHANGE (R431): The 1000BASE-T management port gains or loses its link, raising interrupt source 217. -/
  | managementPortLinkChange
  /-- MACSEC_REKEY (R373): A port's MACsec packet number reaches 2^62 and a rekey to the other secure association takes place. -/
  | macsecRekey (port : Nat)
  /-- PRIORITY_FLOW_CONTROL_FRAME (R369): A received IEEE 802.1Qbb PFC frame pauses or resumes the traffic of the port's PFC priority. -/
  | priorityFlowControlFrame (port prio : Nat) (pause : Bool)
  /-- ROCE_NAK_RECEIVE (R381): A NAK or error response from the host moves a session QP to the error state, detaching the session, or arms an RNR retry. -/
  | roceNakReceive (qp : Nat) (rnr : Bool)
  /-- REPLAY_RING_LOAD (R346): Firmware advances SCH_RPLY_PTR.HEAD, releasing a start barrier held until the replay ring holds its step's records. -/
  | replayRingLoad (head : Nat)
  /-- REGISTER_READ_CLEAR (R9): A read of an RC field, or of a register whose read clears an interrupt condition, returns the value and clears the field or condition. -/
  | registerReadClear (acc : CtlAccess)
  /-- CORE_RESET (R427): A write of MP_CORE_CTL.RESET resets the named management core. -/
  | coreReset (mask : Nat)
  /-- ATTIC_CONTROLLER_FATAL (R417): An attic drive's controller reports fatal status and the drive becomes FAILED, leaving the array degraded. -/
  | atticControllerFatal (drive : Nat)
  deriving DecidableEq, Repr

end Sys2Proof
end

