-- ==== Sys2Proof/WellFormed.lean ====
section
/-!
DEFINITION. The commands that the outside world can send: every unit, channel, port, queue or slot that an operand names is one that the module has, and
every field fits the width that the spec gives it. The machine is total on the others too; it gives them the same rules.
-/
namespace Sys2Proof

/-- The ends and the id of a transfer lie in the fields of its header (Table 14.2). -/
def transferOk (x : Transfer) : Bool :=
  decide (x.srank < 65536) && decide (x.drank < 65536) && decide (x.sfloor < 10) && decide (x.dfloor < 10) && decide (x.xid < 16384)

/-- A flit has 256 bytes, and a link 5 lanes (R351, R352). -/
def flitOk (f : FlitIn) : Bool :=
  match f with
  | .bad _ => true
  | .symbols errs => decide (errs.length = 5)
  | .control _ _ _ _ => true
  | .bytes bs => decide (bs.length = 256)

/-- An address of the control-register region (R8, Table 1.5). -/
def inRegisters (a : Nat) : Bool := decide (0x060000000000 ≤ a ∧ a < 0x060012000000)

/-- Whether a command is well-formed. -/
def wellFormed (i : Instr) : Bool :=
  match i with
  | .aload room _ => decide (room < 4096)
  | .aswap room _ => decide (room < 4096)
  | .arow room _ => decide (room < 4096)
  | .aorow room _ => decide (room < 4096)
  | .adrain room _ => decide (room < 4096)
  | .astat room _ => decide (room < 4096)
  | .aclr room _ => decide (room < 4096)
  | .vadd room _ => decide (room < 4096)
  | .vsub room _ => decide (room < 4096)
  | .vmul room _ => decide (room < 4096)
  | .vfma room _ => decide (room < 4096)
  | .vdiv room _ => decide (room < 4096)
  | .vsqrt room _ => decide (room < 4096)
  | .vmin room _ => decide (room < 4096)
  | .vmax room _ => decide (room < 4096)
  | .vceq room _ => decide (room < 4096)
  | .vclt room _ => decide (room < 4096)
  | .vcle room _ => decide (room < 4096)
  | .vsel room _ => decide (room < 4096)
  | .viadd room _ => decide (room < 4096)
  | .visub room _ => decide (room < 4096)
  | .vimul room _ => decide (room < 4096)
  | .vrelu room _ => decide (room < 4096)
  | .vrelud room _ => decide (room < 4096)
  | .vcvtf room _ => decide (room < 4096)
  | .vcvti room _ => decide (room < 4096)
  | .vld room _ => decide (room < 4096)
  | .vst room _ => decide (room < 4096)
  | .vbc room _ => decide (room < 4096)
  | .vrsum room _ => decide (room < 4096)
  | .vrmin room _ => decide (room < 4096)
  | .vrmax room _ => decide (room < 4096)
  | .vxtr room _ => decide (room < 4096)
  | .vsfu room _ => decide (room < 4096)
  | .vsfud room _ => decide (room < 4096)
  | .mload room _ => decide (room < 4096)
  | .mstore room _ => decide (room < 4096)
  | .mroom room _ => decide (room < 4096)
  | .matom room _ => decide (room < 4096)
  | .mgather room _ => decide (room < 4096)
  | .mscatter room _ => decide (room < 4096)
  | .msend room _ => decide (room < 4096)
  | .mrecv room _ => decide (room < 4096)
  | .mreduce room _ => decide (room < 4096)
  | .mfence room _ => decide (room < 4096)
  | .mpref room _ => decide (room < 4096)
  | .wait room _ => decide (room < 4096)
  | .tstat room _ => decide (room < 4096)
  | .xset room _ => decide (room < 4096)
  | .xadd room _ => decide (room < 4096)
  | .xsub room _ => decide (room < 4096)
  | .xmul room _ => decide (room < 4096)
  | .xand room _ => decide (room < 4096)
  | .xor room _ => decide (room < 4096)
  | .xshl room _ => decide (room < 4096)
  | .xshr room _ => decide (room < 4096)
  | .xaddi room _ => decide (room < 4096)
  | .amov room _ => decide (room < 4096)
  | .aadd room _ => decide (room < 4096)
  | .loop room _ => decide (room < 4096)
  | .jmp room _ => decide (room < 4096)
  | .bnz room _ => decide (room < 4096)
  | .sync room _ => decide (room < 4096)
  | .pend room _ => decide (room < 4096)
  | .halt room _ => decide (room < 4096)
  | .rstat room _ => decide (room < 4096)
  | .ftime room _ => decide (room < 4096)
  | .waitTimeout room => decide (room < 4096)
  | .mloadDone room tk => decide (room < 4096) && decide (tk < 64)
  | .mstoreDone room tk => decide (room < 4096) && decide (tk < 64)
  | .mroomDone room tk => decide (room < 4096) && decide (tk < 64)
  | .matomDone room tk => decide (room < 4096) && decide (tk < 64)
  | .mgatherDone room tk => decide (room < 4096) && decide (tk < 64)
  | .mscatterDone room tk => decide (room < 4096) && decide (tk < 64)
  | .msendDone room tk => decide (room < 4096) && decide (tk < 64)
  | .mrecvDone room tk => decide (room < 4096) && decide (tk < 64)
  | .mreduceDone room tk => decide (room < 4096) && decide (tk < 64)
  | .mfenceDone room tk => decide (room < 4096) && decide (tk < 64)
  | .mprefDone room tk => decide (room < 4096) && decide (tk < 64)
  | .programFillDone room => decide (room < 4096)
  | .turnSwap _ => true
  | .syncRelease => true
  | .barrierArrival => true
  | .barrierArriveReceive x => transferOk x
  | .rootDeadline => true
  | .barrierNoticeReceive x => transferOk x
  | .barrierRelease => true
  | .tolerantRelease => true
  | .barrierTimeout => true
  | .barrierAbortReceive x => transferOk x
  | .stepStop => true
  | .schCtrlLoad => true
  | .schCtrlStart => true
  | .schCtrlStop => true
  | .timeExchange _ _ _ _ _ => true
  | .holdoverExpiry => true
  | .timeUnlocked => true
  | .gmChange _ sbRank => decide (sbRank < 65536)
  | .ppsEdge => true
  | .scrubRead cellar ch => decide (cellar < 20) && decide (ch < 32)
  | .periodicRetrainStart => true
  | .driftRetrainStart cellar ch => decide (cellar < 20) && decide (ch < 32)
  | .firmwareRetrain cellar ch => decide (cellar < 20) && decide (ch < 32)
  | .retrainComplete cellar ch _ _ _ _ => decide (cellar < 20) && decide (ch < 32)
  | .channelMapout cellar ch => decide (cellar < 20) && decide (ch < 32)
  | .cellarTempReading cellar temp die => decide (cellar < 20) && decide (temp < 4096) && decide (die < 16)
  | .floatMoveComplete entry => decide (entry < 256)
  | .packedBlockWriteback _ => true
  | .ldrPrepSubmit floor _ => decide (floor < 10)
  | .prepComplete floor => decide (floor < 10)
  | .gatherRowReadDone room tk _ => decide (room < 4096) && decide (tk < 64)
  | .indexReceive x => transferOk x
  | .replyReceive x => transferOk x
  | .scatterReceive x => transferOk x
  | .cellarUpdateComplete cellar => decide (cellar < 20)
  | .versionLoad _ => true
  | .versionReady _ => true
  | .versionSwitchRequest _ => true
  | .versionBind _ => true
  | .versionUnbind _ => true
  | .versionDiscard _ => true
  | .migrateReceive x => transferOk x
  | .prefetchSubmit floor _ => decide (floor < 10)
  | .sliceDeliver _ => true
  | .blockProcessComplete floor => decide (floor < 10)
  | .collectiveReceive x => transferOk x
  | .journalPut _ => true
  | .laneSpare link lane => decide (link < 50) && decide (lane < 16)
  | .laneLossOfLock link lane => decide (link < 50) && decide (lane < 16)
  | .spareNow link => decide (link < 50)
  | .flitReceive link f => decide (link < 50) && flitOk f
  | .nakReceive link _ => decide (link < 50)
  | .linkAckTimeout link => decide (link < 50)
  | .linkRetrain link => decide (link < 50)
  | .linkTrainComplete link _ _ _ _ => decide (link < 50)
  | .ackReceive _ => true
  | .e2eTimeout floor xid => decide (floor < 10) && decide (xid < 16384)
  | .sendReceive x => transferOk x
  | .peerWriteReceive x => transferOk x
  | .rdmaWrite qp key _ bs _ => decide (qp < 16777216) && decide (key < 4294967296) && decide (bs.length ≤ 4096)
  | .rdmaRead qp key _ _ _ => decide (qp < 16777216) && decide (key < 4294967296)
  | .roceSend qp bs _ => decide (qp < 16777216) && decide (bs.length ≤ 4096)
  | .cnpReceive qp => decide (qp < 16777216)
  | .ccTimer qp => decide (qp < 16777216)
  | .roceAckTimeout qp => decide (qp < 16777216)
  | .portServiceFrame port _ => decide (port < 8)
  | .eapolFrame port _ => decide (port < 8)
  | .porchLinkDown port => decide (port < 8)
  | .porchLinkUp port _ => decide (port < 8)
  | .producerWrite q v => decide (q < 16) && decide (v < 4294967296)
  | .resumeWrite q v => decide (q < 16) && decide (v < 4294967296)
  | .cqConsumerWrite q v => decide (q < 16) && decide (v < 4294967296)
  | .commandConsume q => decide (q < 16)
  | .commandReread q => decide (q < 16)
  | .nop q => decide (q < 16)
  | .query q => decide (q ≤ 16)
  | .regRead q => decide (q ≤ 16)
  | .regWrite q => decide (q < 16)
  | .openSession q => decide (q ≤ 16)
  | .closeSession q => decide (q ≤ 16)
  | .registerRegion q => decide (q < 16)
  | .winMove q => decide (q < 16)
  | .setStaging q => decide (q < 16)
  | .batch q => decide (q < 16)
  | .jobLoad q modules => decide (q < 16) && decide (1 ≤ modules ∧ modules ≤ 65536)
  | .jobStart q => decide (q < 16)
  | .jobStop q => decide (q < 16)
  | .jobUnload q => decide (q < 16)
  | .restore q _ => decide (q < 16)
  | .journalSafe q => decide (q < 16)
  | .version q => decide (q < 16)
  | .mapout q => decide (q < 16)
  | .attest q => decide (q ≤ 16)
  | .wrapCak q => decide (q = 16)
  | .noticeWriteAck slot _ => decide (slot < 64)
  | .mgmtRequest _ => true
  | .epochShadowCopyDone => true
  | .denseCopyDone => true
  | .epochComplete => true
  | .atticIoComplete drive queue _ => decide (drive < 4) && decide (queue < 16)
  | .atticCommandTimeout drive => decide (drive < 4)
  | .atticDriveLinkLost drive => decide (drive < 4)
  | .atticHealthPoll drive _ _ _ _ => decide (drive < 4)
  | .atticScrub drive _ => decide (drive < 4)
  | .atticAdopt drive _ _ _ => decide (drive < 4)
  | .atticRebuildComplete drive _ => decide (drive < 4)
  | .atticRetire drive => decide (drive < 4)
  | .atticImport _ => true
  | .exportTailAdvance _ => true
  | .mpWatchdog core => decide (core < 4)
  | .mpSramUncorrectable _ _ => true
  | .watchdogKick core => decide (core < 4)
  | .irqLevelChange source => decide (source < 1024)
  | .irqHoldoffExpiry _ => true
  | .irqClaim target => decide (target < 5)
  | .irqEoi target source => decide (target < 5) && decide (source < 1024)
  | .irqSwset source => decide (source < 1024)
  | .irqSwclr source => decide (source < 1024)
  | .evrRecordWrite => true
  | .evrData => true
  | .evrCursor offset => decide (offset < 65536)
  | .evrFire trigger => decide (trigger < 8)
  | .evrSoft code arg => decide (code < 65536) && decide (arg < 281474976710656)
  | .evrTimeTrigger trigger => decide (trigger < 8)
  | .evrSnapshotComplete => true
  | .cvuGo channel count => decide (channel < 32) && decide (count < 4294967296)
  | .cvuComplete channel => decide (channel < 32)
  | .freezeN => true
  | .mpFreezeNow key => decide (key < 65536)
  | .timedFreeze => true
  | .scanSelect chain => decide (chain < 5)
  | .scanRead => true
  | .powerSample _ _ _ _ _ => true
  | .railOverload _ _ => true
  | .droop floor _ => decide (floor < 10)
  | .floorTempSample floor _ _ _ => decide (floor < 10)
  | .secMr3Ext _ => true
  | .presentNAssert => true
  | .presentNDeassert => true
  | .standbyStage _ => true
  | .bootRomStage _ _ => true
  | .travarStage => true
  | .configurationStage => true
  | .floorBringupStage _ _ _ _ _ => true
  | .cellarTrainingStage _ _ => true
  | .linkStage _ => true
  | .fabricTimeStage _ _ gmRank sbRank => decide (gmRank < 65536) && decide (sbRank < 65536)
  | .attestationStage _ => true
  | .letterboxStage => true
  | .serviceImageWrite slot _ => decide (slot < 2)
  | .serviceConfigWrite _ => true
  | .serviceReset => true
  | .registerWrite acc _ => inRegisters acc.addr
  | .serveRowReadDone floor _ _ => decide (floor < 10)
  | .xidRelease floor xid => decide (floor < 10) && decide (xid < 16384)
  | .refOkChange _ _ _ gmRank sbRank => decide (gmRank < 65536) && decide (sbRank < 65536)
  | .carrierRegulatorSensorTrip => true
  | .managementPortLinkChange => true
  | .macsecRekey port => decide (port < 8)
  | .priorityFlowControlFrame port prio _ => decide (port < 8) && decide (prio < 8)
  | .roceNakReceive qp _ => decide (qp < 16777216)
  | .replayRingLoad _ => true
  | .registerReadClear acc => inRegisters acc.addr
  | .coreReset mask => decide (mask < 16)
  | .atticControllerFatal drive => decide (drive < 4)

end Sys2Proof
end

