-- ==== Sys2Proof/Decode.lean ====
section
/-!
DEFINITION. The commands that a word of the opcode table spells. The table gives its rows no bits: the commands are events at the module's pins, ports
and units, and the slots of a room's bundle, which Machine/Operands.lean decodes from the bundle itself (Table 4.1). So no word spells a command.
-/
namespace Sys2Proof

/-- No row of the table has bits. -/
def decodeTableWord (_nbits _w : Nat) : Option Instr := none

end Sys2Proof
end

