-- ==== Sys2Proof/Machine/Sparse.lean ====
section
/-!
DEFINITION. Sparse maps in canonical form: a list of (key, value) pairs with strictly rising keys and no entry equal
to the value an unlisted key reads as. Device memory, register files, per-unit records and the control registers
are all held in this form, so that equal contents are equal data.
-/
namespace Sys2Proof.Machine

/-- What key `k` holds; `d` is what an unlisted key reads as. -/
def smGet {α : Type} (d : α) : List (Nat × α) → Nat → α
  | [], _ => d
  | (k, v) :: m, a => if a = k then v else smGet d m a

/-- Put `v` at key `a` of a map with rising keys. -/
def smPut {α : Type} : List (Nat × α) → Nat → α → List (Nat × α)
  | [], a, v => [(a, v)]
  | (k, w) :: m, a, v => if a < k then (a, v) :: (k, w) :: m else if a = k then (a, v) :: m else (k, w) :: smPut m a v

/-- Store `v` at key `a`, keeping the canonical form: storing the default removes the entry. -/
def smSet {α : Type} [DecidableEq α] (d : α) (m : List (Nat × α)) (a : Nat) (v : α) : List (Nat × α) :=
  if v = d then m.filter (fun e => decide (e.1 ≠ a)) else smPut m a v

/-- Apply `f` to what key `a` holds. -/
def smModify {α : Type} [DecidableEq α] (d : α) (m : List (Nat × α)) (a : Nat) (f : α → α) : List (Nat × α) :=
  smSet d m a (f (smGet d m a))

/-- Canonical from key `lo` up, where an unlisted key `k` reads as `d k`. -/
def smWfFrom {α : Type} [DecidableEq α] (d : Nat → α) : Nat → List (Nat × α) → Bool
  | _, [] => true
  | lo, (k, v) :: m => decide (lo ≤ k) && decide (v ≠ d k) && smWfFrom d (k + 1) m

/-- The canonical form: keys strictly rising, and no entry equal to what its key reads as when unlisted. -/
def smWf {α : Type} [DecidableEq α] (d : Nat → α) (m : List (Nat × α)) : Bool := smWfFrom d 0 m

/-- Rebuild a map after changing every value (values that became the default drop out). -/
def smMap {α : Type} [DecidableEq α] (d : α) (f : Nat → α → α) : List (Nat × α) → List (Nat × α)
  | [] => []
  | (k, v) :: m => if f k v = d then smMap d f m else (k, f k v) :: smMap d f m

/-- Store a list of values at `a`, `a + 1`, … -/
def smSetList {α : Type} [DecidableEq α] (d : α) (m : List (Nat × α)) (a : Nat) : List α → List (Nat × α)
  | [] => m
  | v :: vs => smSetList d (smSet d m a v) (a + 1) vs

/-- Read `n` values from `a` on. -/
def smGetList {α : Type} (d : α) (m : List (Nat × α)) (a : Nat) : Nat → List α
  | 0 => []
  | n + 1 => smGet d m a :: smGetList d m (a + 1) n

/-- Copy the `n` keys from `src` on over the `n` keys from `dst` on. -/
def smCopy {α : Type} (m : List (Nat × α)) (src dst n : Nat) : List (Nat × α) :=
  m.filter (fun e => decide (e.1 < dst)) ++
    ((m.filter (fun e => decide (src ≤ e.1) && decide (e.1 < src + n))).map (fun e => (e.1 - src + dst, e.2)) ++
      m.filter (fun e => decide (dst + n ≤ e.1)))

/-- Keys `a` to `a + n - 1` return to the default. -/
def smClear {α : Type} (m : List (Nat × α)) (a n : Nat) : List (Nat × α) :=
  m.filter (fun e => !(decide (a ≤ e.1) && decide (e.1 < a + n)))

/-- Insert a number into a strictly rising list. -/
def setInsert (a : Nat) : List Nat → List Nat
  | [] => [a]
  | k :: m => if a < k then a :: k :: m else if a = k then k :: m else k :: setInsert a m

/-- Remove a number from a list. -/
def setErase (a : Nat) (m : List Nat) : List Nat := m.filter (fun k => k ≠ a)

/-- Replace the `i`-th element. -/
def listSet {α : Type} : List α → Nat → α → List α
  | [], _, _ => []
  | _ :: l, 0, v => v :: l
  | x :: l, i + 1, v => x :: listSet l i v

/-- Apply `f` to the first element that satisfies `p`. -/
def modifyFirst {α : Type} (p : α → Bool) (f : α → α) : List α → List α
  | [] => []
  | x :: l => if p x then f x :: l else x :: modifyFirst p f l

/-- Drop the first element that satisfies `p`. -/
def eraseFirst {α : Type} (p : α → Bool) : List α → List α
  | [] => []
  | x :: l => if p x then l else x :: eraseFirst p l

end Sys2Proof.Machine
end

