-- ==== Sys2Proof/Machine/Float.lean ====
section
/-!
DEFINITION. Floating point by exact integer arithmetic and one rounding (R33 to R36, R52, R59, R60).
A value is NaN, an infinity, or the exact number ± m × 2^e. Each operation forms the exact result (or, for a quotient
or a root, enough bits of it and a sticky bit) and rounds once.
-/
namespace Sys2Proof.Machine

/-- A binary format with `ew` exponent bits and `fw` fraction bits (Table 2.2). -/
structure FFmt where
  ew : Nat
  fw : Nat
  deriving DecidableEq, Repr

def fmtB32 : FFmt := { ew := 8, fw := 23 }
def fmtBf16 : FFmt := { ew := 8, fw := 7 }
/-- binary64, used by the watch array's wide sums only (R79). -/
def fmtB64 : FFmt := { ew := 11, fw := 52 }

/-- What an encoding stands for: NaN, an infinity with its sign, or (−1)^s × m × 2^e. -/
inductive FV where
  | nan
  | inf (s : Bool)
  | fin (s : Bool) (m : Nat) (e : Int)
  deriving DecidableEq, Repr

/-- The rounding of a magnitude: to nearest even (R52), or up (the RU operations of R46, on magnitudes). -/
inductive RMode where
  | rne
  | up
  deriving DecidableEq, Repr

/-- The cases of Tables 2.8 and 2.9 that an operation met. -/
structure NumFlags where
  invalid : Bool := false
  divide : Bool := false
  overflow : Bool := false
  intRange : Bool := false
  saturated : Bool := false
  nonfinite : Bool := false
  deriving DecidableEq, Repr

def noFlags : NumFlags := {}

/-- Either operand's cases. -/
def NumFlags.or (a b : NumFlags) : NumFlags :=
  { invalid := a.invalid || b.invalid, divide := a.divide || b.divide, overflow := a.overflow || b.overflow,
    intRange := a.intRange || b.intRange, saturated := a.saturated || b.saturated,
    nonfinite := a.nonfinite || b.nonfinite }

/-- The smallest exponent of the format's last fraction bit. -/
def fQmin (f : FFmt) : Int := 2 - Int.ofNat (2 ^ (f.ew - 1)) - Int.ofNat f.fw

/-- Decode an encoding of the format (R33, R34). -/
def fdec (f : FFmt) (b : Nat) : FV :=
  let s := b.testBit (f.ew + f.fw)
  let e := (b >>> f.fw) % 2 ^ f.ew
  let m := b % 2 ^ f.fw
  if e = 2 ^ f.ew - 1 then (if m = 0 then FV.inf s else FV.nan)
  else if e = 0 then FV.fin s m (fQmin f)
  else FV.fin s (2 ^ f.fw + m) (fQmin f + Int.ofNat e - 1)

/-- Shift a magnitude right by `k` bits, rounding. -/
def shiftRound (rm : RMode) (m k : Nat) : Nat :=
  let q := m / 2 ^ k
  let r := m % 2 ^ k
  match rm with
  | .rne => if 2 ^ k < 2 * r ∨ (2 * r = 2 ^ k ∧ k ≠ 0 ∧ q % 2 = 1) then q + 1 else q
  | .up => if r = 0 then q else q + 1

/-- Exponent bits all ones, fraction zero. -/
def fInfCode (f : FFmt) : Nat := (2 ^ f.ew - 1) * 2 ^ f.fw

/-- The canonical NaN: quiet bit only, sign 0 (R35, Table 2.2). -/
def fNanCode (f : FFmt) : Nat := fInfCode f + 2 ^ (f.fw - 1)

def fSign (f : FFmt) (s : Bool) : Nat := if s then 2 ^ (f.ew + f.fw) else 0

/-- Round ± m × 2^e to the format: the encoding, and whether it overflowed to an infinity. -/
def fround (f : FFmt) (rm : RMode) (s : Bool) (m : Nat) (e : Int) : Nat × Bool :=
  if m = 0 then (fSign f s, false)
  else
    let top := e + Int.ofNat (Nat.log2 m) - Int.ofNat f.fw
    let q := if top ≤ fQmin f then fQmin f else top
    let n := if q ≤ e then m <<< (e - q).toNat else shiftRound rm m (q - e).toNat
    let code := (q - fQmin f).toNat * 2 ^ f.fw + n
    if fInfCode f ≤ code then (fSign f s + fInfCode f, true) else (fSign f s + code, false)

/-- Encode a value in the format by RNE: the encoding and whether a finite value overflowed. -/
def fenc (f : FFmt) : FV → Nat × Bool
  | .nan => (fNanCode f, false)
  | .inf s => (fSign f s + fInfCode f, false)
  | .fin s m e => fround f .rne s m e

/-- The exact value as a signed integer multiple of 2^e0, for e0 at most e. -/
def signedAt (s : Bool) (m : Nat) (e e0 : Int) : Int :=
  let v := Int.ofNat (m <<< (e - e0).toNat)
  if s then -v else v

/-- Exact sum; the flag says ∞ + (−∞) (Table 2.8). An exact zero sum is +0 unless both addends are negative zeros (R36). -/
def fvAdd : FV → FV → FV × Bool
  | .nan, _ => (.nan, false)
  | _, .nan => (.nan, false)
  | .inf s, .inf t => if s = t then (.inf s, false) else (.nan, true)
  | .inf s, .fin _ _ _ => (.inf s, false)
  | .fin _ _ _, .inf t => (.inf t, false)
  | .fin s m e, .fin t n g =>
    let e0 := min e g
    let z := signedAt s m e e0 + signedAt t n g e0
    if z = 0 then (.fin (s && t) 0 e0, false) else (.fin (decide (z < 0)) z.natAbs e0, false)

def fvNeg : FV → FV
  | .nan => .nan
  | .inf s => .inf (!s)
  | .fin s m e => .fin (!s) m e

def fvAbs : FV → FV
  | .nan => .nan
  | .inf _ => .inf false
  | .fin _ m e => .fin false m e

/-- Exact product; the flag says 0 × ±∞. -/
def fvMul : FV → FV → FV × Bool
  | .nan, _ => (.nan, false)
  | _, .nan => (.nan, false)
  | .inf s, .inf t => (.inf (s != t), false)
  | .inf s, .fin t m _ => if m = 0 then (.nan, true) else (.inf (s != t), false)
  | .fin s m _, .inf t => if m = 0 then (.nan, true) else (.inf (s != t), false)
  | .fin s m e, .fin t n g => (.fin (s != t) (m * n) (e + g), false)

/-- Quotient to `k` extra bits with a sticky last bit; flags: invalid, divide by zero. -/
def fvDiv : FV → FV → FV × Bool × Bool
  | .nan, _ => (.nan, false, false)
  | _, .nan => (.nan, false, false)
  | .inf _, .inf _ => (.nan, true, false)
  | .inf s, .fin t _ _ => (.inf (s != t), false, false)
  | .fin s _ _, .inf t => (.fin (s != t) 0 0, false, false)
  | .fin s m e, .fin t n g =>
    if n = 0 then (if m = 0 then (.nan, true, false) else (.inf (s != t), false, true))
    else
      let k := Nat.log2 n + 80
      let q := (m <<< k) / n
      let r := (m <<< k) % n
      (.fin (s != t) (2 * q + (if r = 0 then 0 else 1)) (e - g - Int.ofNat k - 1), false, false)

/-- Square root with a sticky last bit; the flag says a negative non-zero operand. -/
def fvSqrt : FV → FV × Bool
  | .nan => (.nan, false)
  | .inf s => if s then (.nan, true) else (.inf false, false)
  | .fin s m e =>
    if m = 0 then (.fin s 0 e, false)
    else if s then (.nan, true)
    else
      let k := if e % 2 = 0 then 160 else 161
      let r := isqrt (m <<< k)
      (.fin false (2 * r + (if r * r = m <<< k then 0 else 1)) ((e - Int.ofNat k) / 2 - 1), false)

/-- Strictly less, false when either is NaN (R59, R101). -/
def fvLt : FV → FV → Bool
  | .nan, _ => false
  | _, .nan => false
  | .inf s, .inf t => s && !t
  | .inf s, .fin _ _ _ => s
  | .fin _ _ _, .inf t => !t
  | .fin s m e, .fin t n g => decide (signedAt s m e (min e g) < signedAt t n g (min e g))

/-- Equal in value (−0 equals +0), false when either is NaN. -/
def fvEq : FV → FV → Bool
  | .inf s, .inf t => s == t
  | .fin s m e, .fin t n g => decide (signedAt s m e (min e g) = signedAt t n g (min e g))
  | _, _ => false

def fvIsNan : FV → Bool
  | .nan => true
  | _ => false

def fvIsInf : FV → Bool
  | .inf _ => true
  | _ => false

def fvIsFin : FV → Bool
  | .fin _ _ _ => true
  | _ => false

def fvSign : FV → Bool
  | .nan => false
  | .inf s => s
  | .fin s _ _ => s

def fvIsZero : FV → Bool
  | .fin _ m _ => m == 0
  | _ => false

/-- IEEE 754-2019 minimum: a NaN operand gives NaN, and −0 is below +0 (R59). -/
def fvMin (a b : FV) : FV :=
  if fvIsNan a || fvIsNan b then .nan
  else if fvLt a b then a else if fvLt b a then b else if fvSign a then a else b

/-- IEEE 754-2019 maximum. -/
def fvMax (a b : FV) : FV :=
  if fvIsNan a || fvIsNan b then .nan
  else if fvLt a b then b else if fvLt b a then a else if fvSign a then b else a

/-- The value of a binary32 encoding. -/
def b32 (x : Lane) : FV := fdec fmtB32 x.toNat

/-- Round an exact value to binary32: the encoding and the overflow flag. -/
def toB32 (v : FV) : Lane × Bool := let r := fenc fmtB32 v; (BitVec.ofNat 32 r.1, r.2)

def b32Nan : Lane := 0x7FC00000#32
def b32One : Lane := 0x3F800000#32

def b32Add (a b : Lane) : Lane × NumFlags :=
  let r := fvAdd (b32 a) (b32 b)
  let o := toB32 r.1
  (o.1, { noFlags with invalid := r.2, overflow := o.2 })

def b32Neg (a : Lane) : Lane := a ^^^ 0x80000000#32

def b32Sub (a b : Lane) : Lane × NumFlags := b32Add a (if fvIsNan (b32 b) then b else b32Neg b)

def b32Mul (a b : Lane) : Lane × NumFlags :=
  let r := fvMul (b32 a) (b32 b)
  let o := toB32 r.1
  (o.1, { noFlags with invalid := r.2, overflow := o.2 })

/-- a × b + c with one rounding; 0 × ±∞ is invalid whatever the addend (Table 2.8). -/
def b32Fma (a b c : Lane) : Lane × NumFlags :=
  let p := fvMul (b32 a) (b32 b)
  let r := fvAdd p.1 (b32 c)
  let o := toB32 r.1
  (o.1, { noFlags with invalid := p.2 || r.2, overflow := o.2 })

def b32Div (a b : Lane) : Lane × NumFlags :=
  let r := fvDiv (b32 a) (b32 b)
  let o := toB32 r.1
  (o.1, { noFlags with invalid := r.2.1, divide := r.2.2, overflow := o.2 })

def b32Sqrt (a : Lane) : Lane × NumFlags :=
  let r := fvSqrt (b32 a)
  ((toB32 r.1).1, { noFlags with invalid := r.2 })

def b32Min (a b : Lane) : Lane × NumFlags := ((toB32 (fvMin (b32 a) (b32 b))).1, noFlags)
def b32Max (a b : Lane) : Lane × NumFlags := ((toB32 (fvMax (b32 a) (b32 b))).1, noFlags)

def laneTrue : Lane := 0xFFFFFFFF#32
def laneOf (b : Bool) : Lane := if b then laneTrue else 0#32

def b32Eq (a b : Lane) : Lane × NumFlags := (laneOf (fvEq (b32 a) (b32 b)), noFlags)
def b32Lt (a b : Lane) : Lane × NumFlags := (laneOf (fvLt (b32 a) (b32 b)), noFlags)
def b32Le (a b : Lane) : Lane × NumFlags :=
  (laneOf (fvLt (b32 a) (b32 b) || fvEq (b32 a) (b32 b)), noFlags)

/-- An integer as an exact value. -/
def fvOfInt (z : Int) : FV := .fin (decide (z < 0)) z.natAbs 0

/-- The exact value 2^x. -/
def fvPow2 (x : Int) : FV := .fin false 1 x

/-- The exact product with a power of two. -/
def fvScale (v : FV) (x : Int) : FV :=
  match v with
  | .nan => .nan
  | .inf s => .inf s
  | .fin s m e => .fin s m (e + x)

/-- Floor of a non-negative finite value times `k`. -/
def fvFloorMag (m : Nat) (e : Int) : Nat := if 0 ≤ e then m <<< e.toNat else m >>> (-e).toNat

/-- Round a finite value to the nearest integer, ties to even: its magnitude. -/
def fvRoundMag (m : Nat) (e : Int) : Nat := if 0 ≤ e then m <<< e.toNat else shiftRound .rne m (-e).toNat

/-- INT32 to binary32 by RNE (VCVTF, R58). -/
def b32OfInt32 (x : Lane) : Lane := (toB32 (fvOfInt (toSigned 32 x.toNat))).1

/-- binary32 to INT32 by RNE; saturates to ±(2^31 − 1); NaN gives 0 (VCVTI, R38, Table 4.6). -/
def b32ToInt32 (x : Lane) : Lane × NumFlags :=
  let big : Nat := 2147483647
  match b32 x with
  | .nan => (0#32, { noFlags with intRange := true })
  | .inf s => (BitVec.ofNat 32 (if s then ofSigned 32 (-(Int.ofNat big)) else big), { noFlags with intRange := true })
  | .fin s m e =>
    let r := fvRoundMag m e
    let past := decide (big < r)
    let v := if past then big else r
    (BitVec.ofNat 32 (if s then ofSigned 32 (-(Int.ofNat v)) else v), { noFlags with intRange := past })

/-- INT32 result of an exact integer: wrap or saturate (R38, Table 2.8). -/
def int32Of (sat : Bool) (z : Int) : Lane × NumFlags :=
  let past := decide (z < -2147483648 ∨ 2147483647 < z)
  let v := if sat && past then (if z < 0 then -2147483648 else 2147483647) else z
  (BitVec.ofNat 32 (ofSigned 32 v), { noFlags with intRange := past })

def int32 (x : Lane) : Int := toSigned 32 x.toNat

def i32Add (sat : Bool) (a b : Lane) : Lane × NumFlags := int32Of sat (int32 a + int32 b)
def i32Sub (sat : Bool) (a b : Lane) : Lane × NumFlags := int32Of sat (int32 a - int32 b)
def i32Mul (sat : Bool) (a b : Lane) : Lane × NumFlags := int32Of sat (int32 a * int32 b)

/-- relu: a if a > 0, +0 if a ≤ 0, canonical NaN if a is NaN (Table 4.6). -/
def b32Relu (a : Lane) : Lane :=
  let v := b32 a
  if fvIsNan v then b32Nan else if fvIsZero v || fvSign v then 0#32 else a

/-- Derivative of relu (Table 3.8). -/
def b32ReluD (a : Lane) : Lane :=
  let v := b32 a
  if fvIsNan v then b32Nan else if fvIsZero v || fvSign v then 0#32 else b32One

end Sys2Proof.Machine
end

