-- ==== Sys2Proof/Machine/Philox.lean ====
section
/-!
DEFINITION. The module's random generator, Philox-4×32-10 (R332), and the draw of an element (R55, R333).
-/
namespace Sys2Proof.Machine

/-- The generator's counter (c0 to c3) or output words (Y0 to Y3). -/
structure PhiloxWords where
  w0 : Nat
  w1 : Nat
  w2 : Nat
  w3 : Nat
  deriving DecidableEq, Repr

/-- One round of R332's function. -/
def philoxRound (c : PhiloxWords) (k0 k1 : Nat) : PhiloxWords :=
  let p := 0xD2511F53 * c.w0
  let q := 0xCD9E8D57 * c.w2
  { w0 := Nat.xor (Nat.xor (q >>> 32) c.w1) k0, w1 := q % 2 ^ 32,
    w2 := Nat.xor (Nat.xor (p >>> 32) c.w3) k1, w3 := p % 2 ^ 32 }

def philoxRounds : Nat → PhiloxWords → Nat → Nat → PhiloxWords
  | 0, c, _, _ => c
  | n + 1, c, k0, k1 =>
    philoxRounds n (philoxRound c k0 k1) ((0x9E3779B9 + k0) % 2 ^ 32) ((0xBB67AE85 + k1) % 2 ^ 32)

/-- R332: ten rounds. -/
def philox (c : PhiloxWords) (k0 k1 : Nat) : PhiloxWords := philoxRounds 10 c k0 k1

/-- What names a draw beside the element index: the key (SCH_SEED), the step, the unit word and the stream word (Table 13.1). -/
structure DrawKey where
  seed : Word
  step : Nat
  unit : Nat
  stream : Nat
  deriving DecidableEq, Repr

/-- The 16-bit draw of element `e` (R55): word Y[(e mod 8) div 2], low half when e is even. -/
def drawOf (k : DrawKey) (e : Nat) : Nat :=
  let y := philox { w0 := k.step % 2 ^ 32, w1 := k.unit % 2 ^ 32, w2 := k.stream % 2 ^ 32, w3 := (e / 8) % 2 ^ 32 }
    (bits k.seed 31 0) (bits k.seed 63 32)
  let w := match (e % 8) / 2 with
    | 0 => y.w0
    | 1 => y.w1
    | 2 => y.w2
    | _ => y.w3
  if e % 2 = 0 then w % 2 ^ 16 else w >>> 16

/-- The stream word of a room's draw: rank in [31:16], stream id in [15:0] (Table 13.1). -/
def roomStreamWord (rank stream : Nat) : Nat := (rank % 2 ^ 16) * 2 ^ 16 + stream % 2 ^ 16

/-- The unit word of a room's draw: kind in [13:12] (0 move store, 1 array drain, 2 vector store), room in [11:0]. -/
def roomUnitWord (room kind : Nat) : Nat := (kind % 4) * 2 ^ 12 + room % 2 ^ 12

end Sys2Proof.Machine
end

