-- ==== Sys2Proof/Machine/Convert.lean ====
section
/-!
DEFINITION. Format conversions: the pseudocode of R63, block scales (R40, R41), row codes (R44 to R47), supplied scales (R487).
-/
namespace Sys2Proof.Machine

/-- The FP8 formats' widths: E4M3 (0x2, 0x4) and E5M2 (0x3, 0x5). -/
inductive Fp8 where
  | e4m3
  | e5m2
  deriving DecidableEq, Repr

/-- Decode an FP8 code (R33). In E4M3 only e = 15 with f = 7 is NaN and there are no infinities. -/
def fp8Dec (t : Fp8) (c : Nat) : FV :=
  match t with
  | .e5m2 => fdec { ew := 5, fw := 2 } (c % 256)
  | .e4m3 =>
    let s := c.testBit 7
    let e := (c / 8) % 16
    let f := c % 8
    if e = 15 ∧ f = 7 then .nan
    else if e = 0 then .fin s f (-9)
    else .fin s (8 + f) (Int.ofNat e - 10)

/-- The largest finite code: 448 is 0x7E, 57,344 is 0x7B. -/
def fp8MaxCode : Fp8 → Nat
  | .e4m3 => 0x7E
  | .e5m2 => 0x7B

/-- The largest finite magnitude F of R40. -/
def fp8Max : Fp8 → Nat
  | .e4m3 => 448
  | .e5m2 => 57344

/-- The exact magnitude of a finite non-negative code, as a multiple of 2^−16. -/
def fp8Mag16 (t : Fp8) (c : Nat) : Nat :=
  match fp8Dec t c with
  | .fin _ m e => m <<< (e + 16).toNat
  | _ => 0

/-- The largest code whose magnitude is at most m × 2^e, from code `c` down. -/
def fp8Floor (t : Fp8) (m : Nat) (e : Int) : Nat → Nat
  | 0 => 0
  | c + 1 => if fvLt (.fin false m e) (.fin false (fp8Mag16 t (c + 1)) (-16)) then fp8Floor t m e c else c + 1

/-- `to_fp8` of R63 on an exact value: `sr` selects stochastic rounding with the draw. -/
def toFp8V (t : Fp8) (sr : Bool) (draw : Nat) : FV → Nat × NumFlags
  | .nan => (0x7F, noFlags)
  | .inf s =>
    match t with
    | .e5m2 => (b2n s * 128 + 0x7C, noFlags)
    | .e4m3 => (0x7F, { noFlags with nonfinite := true })
  | .fin s m e =>
    if fvLt (.fin false (fp8Max t) 0) (.fin false m e) then
      (b2n s * 128 + fp8MaxCode t, { noFlags with saturated := true })
    else
      let lo := fp8Floor t m e (fp8MaxCode t)
      if fvEq (.fin false m e) (.fin false (fp8Mag16 t lo) (-16)) then (b2n s * 128 + lo, noFlags)
      else
        let e0 := min e (-16)
        let a := m <<< (e - e0).toNat
        let l := fp8Mag16 t lo <<< ((-16 : Int) - e0).toNat
        let h := fp8Mag16 t (lo + 1) <<< ((-16 : Int) - e0).toNat
        let up :=
          if sr then decide (65536 ≤ 65536 * (a - l) / (h - l) + draw)
          else decide (h - a < a - l) || (decide (a - l = h - a) && decide (lo % 2 = 1))
        (b2n s * 128 + (if up then lo + 1 else lo), noFlags)

/-- `to_bf16` of R63. -/
def toBf16 (sr : Bool) (draw : Nat) (x : Lane) : Nat × NumFlags :=
  let b := x.toNat
  let hi := b / 65536
  let d := b % 65536
  match b32 x with
  | .nan => (0x7FC0, noFlags)
  | .inf _ => (hi, noFlags)
  | .fin _ _ _ =>
    let up := if sr then decide (65536 ≤ d + draw) else decide (0x8000 < d) || (decide (d = 0x8000) && decide (hi % 2 = 1))
    let r := if up then hi + 1 else hi
    (r, { noFlags with overflow := decide (r % 0x8000 = 0x7F80) })

/-- `to_int` of R63: x is already divided by its scale. -/
def toIntQ (qmax : Nat) (sr : Bool) (draw : Nat) : FV → Int × NumFlags
  | .nan => (0, { noFlags with intRange := true })
  | .inf s => ((if s then -Int.ofNat qmax else Int.ofNat qmax), { noFlags with intRange := true })
  | .fin s m e =>
    let q : FV := .fin false qmax 0
    let a : FV := .fin false m e
    let mag :=
      if fvLt a q then
        let lo := fvFloorMag m e
        let up :=
          if 0 ≤ e then false
          else if sr then decide (65536 ≤ (65536 * (m % 2 ^ (-e).toNat)) / 2 ^ (-e).toNat + draw)
          else decide (2 ^ (-e).toNat < 2 * (m % 2 ^ (-e).toNat)) ||
            (decide (2 ^ (-e).toNat = 2 * (m % 2 ^ (-e).toNat)) && decide (lo % 2 = 1))
        if up then lo + 1 else lo
      else qmax
    ((if s then -Int.ofNat mag else Int.ofNat mag), { noFlags with intRange := fvLt q a })

/-- The smallest integer x with a ≤ F × 2^x (R40), for a > 0: found from the top of the binary32 range down. -/
def scaleExpAux (t : Fp8) (a : FV) : Nat → Int → Int
  | 0, x => x
  | n + 1, x => if fvLt (.fin false (fp8Max t) (x - 1)) a then x else scaleExpAux t a n (x - 1)

/-- The scale exponent of R40, clamped to [−127, 127]; 0 for a = 0. -/
def scaleExp (t : Fp8) (a : FV) : Int :=
  if fvIsZero a then 0
  else
    let x := scaleExpAux t a 320 130
    if x < -127 then -127 else if 127 < x then 127 else x

/-- The largest magnitude of a list of finite values. -/
def maxMag : List FV → FV
  | [] => .fin false 0 0
  | v :: vs => let r := maxMag vs; if fvIsFin v && fvLt r (fvAbs v) then fvAbs v else r

/-- `encode_block` of R63: the scale byte, the codes, and the cases met. `draw i` is element i's draw. -/
def encodeBlock (t : Fp8) (sr : Bool) (draw : Nat → Nat) (v : List FV) : Nat × List Nat × NumFlags :=
  if v.any (fun x => !(fvIsFin x)) then (0xFF, v.map (fun _ => 0x7F), { noFlags with nonfinite := true })
  else
    let x := scaleExp t (maxMag v)
    ((x + 127).toNat, (v.zipIdx).map (fun p => (toFp8V t sr (draw p.2) (fvScale p.1 (-x))).1), noFlags)

/-- `decode_block_element` before its rounding (R41): NaN for scale byte 0xFF. -/
def decodeBlockElem (t : Fp8) (scale c : Nat) : FV :=
  if scale = 0xFF then .nan else fvScale (fp8Dec t c) (Int.ofNat scale - 127)

/-- The quotient x / s of R487, by RNE, and the value the conversion functions see: a finite x whose quotient is
infinite converts as a finite value beyond range. -/
def supplyQuot (x s : Lane) : FV :=
  let q := b32 (b32Div x s).1
  match q with
  | .inf sg => if fvIsFin (b32 x) then .fin sg 1 200 else q
  | _ => q

/-- BG4 grid m[I] (Table 2.6). -/
def bg4Grid : List Nat := [0, 11, 23, 36, 51, 69, 92, 128]

/-- The index under RNE: bounds of Table 2.6 in halves, ties to the even index. -/
def bg4Rne (t : FV) : Nat :=
  let gt (h : Nat) := fvLt (.fin false h (-1)) t
  let ge (h : Nat) := gt h || fvEq (.fin false h (-1)) t
  if gt 220 then 7 else if ge 161 then 6 else if gt 120 then 5 else if ge 87 then 4
  else if gt 59 then 3 else if ge 34 then 2 else if gt 11 then 1 else 0

/-- The largest index j with m[j] ≤ t. -/
def bg4Floor (t : FV) : Nat :=
  ((bg4Grid.zipIdx).filter (fun p => !(fvLt t (.fin false p.1 0)))).foldl (fun a p => max a p.2) 0

/-- `encode_bg4` of R63. -/
def encodeBg4 (x : Lane) (s : Nat) (sr : Bool) (draw : Nat) : Nat × NumFlags :=
  match b32 x with
  | .nan => (0, { noFlags with nonfinite := true })
  | .inf sg => (b2n sg * 8 + 7, { noFlags with nonfinite := true })
  | .fin sg m e =>
    let q := (toB32 (fvDiv (.fin false m e) (b32 (BitVec.ofNat 32 (s * 65536)))).1).1
    let t := fvScale (b32 q) 7
    let i :=
      if sr then
        let j := bg4Floor t
        if j = 7 then 7
        else
          let lo := bg4Grid.getD j 0
          let hi := bg4Grid.getD (j + 1) 128
          match fvAdd t (.fin true lo 0) with
          | (.fin _ dm de, _) =>
            let d := if de < 0 then (65536 * dm) / ((hi - lo) * 2 ^ (-de).toNat) else ((65536 * dm) <<< de.toNat) / (hi - lo)
            if 65536 ≤ d + draw then j + 1 else j
          | _ => j
      else bg4Rne t
    (if i = 0 then 0 else b2n sg * 8 + i, noFlags)

/-- Decode a BG4 code times 128 (R47): 0b1000 reads as +0. -/
def bg4Dec (c : Nat) : FV := .fin (c.testBit 3 && c % 8 != 0) (bg4Grid.getD (c % 8) 0) (-7)

/-- A BF16 value. -/
def bf16V (c : Nat) : FV := fdec fmtBf16 (c % 65536)

/-- BF16 to binary32, exactly. -/
def bf16ToLane (c : Nat) : Lane :=
  if fvIsNan (bf16V c) then b32Nan else BitVec.ofNat 32 (c * 65536)

/-- Round an exact value to BF16 by RNE (R45). -/
def toBf16V (v : FV) : Nat := (fenc fmtBf16 v).1

/-- RU32 of a positive quotient (R46): round a magnitude up to binary32. -/
def ru32 (m : Nat) (e : Int) : Lane := BitVec.ofNat 32 (fround fmtB32 .up false m e).1

/-- RU_BF16 of a non-negative binary32 value (R46). -/
def ruBf16 (x : Lane) : Nat :=
  match b32 x with
  | .fin _ m e => (fround fmtBf16 .up false m e).1
  | .inf _ => 0x7F80
  | .nan => 0x7FC0

/-- a / k rounded up to binary32, for a magnitude; an infinite one, as a sum rounded up may be, stays infinite. -/
def ruDivNat (a : FV) (k : Nat) : Lane :=
  match fvDiv a (.fin false k 0) with
  | (.fin _ m e, _) => ru32 m e
  | (.inf _, _) => 0x7F800000#32
  | _ => b32Nan

end Sys2Proof.Machine
end

