-- ==== Sys2Proof/Machine/Regs.lean ====
section
/-!
DEFINITION. The control-register maps: block bases (Table 1.6), and for every register its address, instances, and
fields with their access codes and reset values (Tables 0.4 and 0.5, R8, R9, R11, and each block's map).
A field whose Reset column reads cfg or meas resets to 0 here (log 2).
-/
namespace Sys2Proof.Machine

/-- Access codes of Table 0.5. A reserved field is simply not listed. -/
inductive Access where
  | ro
  | rw
  | w1c
  | w1s
  | wo
  | rc
  deriving DecidableEq, Repr

/-- A field `[hi:lo]` with its access code and reset value. -/
structure RField where
  hi : Nat
  lo : Nat
  acc : Access
  rst : Nat
  deriving DecidableEq, Repr

/-- A register and its instances: address base + i × s1 + j × s2 for i < n1 and j < n2, where s1 ≥ n2 × s2. -/
structure RDef where
  base : Nat
  n1 : Nat
  s1 : Nat
  n2 : Nat
  s2 : Nat
  fields : List RField
  deriving DecidableEq, Repr

/-- Whether address `a` is an instance of the register. -/
def RDef.covers (d : RDef) (a : Nat) : Bool :=
  decide (d.base ≤ a) &&
    (let r := a - d.base
     decide (r / d.s1 < d.n1) && decide ((r % d.s1) / d.s2 < d.n2) && decide ((r % d.s1) % d.s2 = 0))

/-- One register. -/
def reg1 (base : Nat) (fields : List RField) : RDef :=
  { base := base, n1 := 1, s1 := 2 ^ 24, n2 := 1, s2 := 2 ^ 24, fields := fields }

/-- A row of `n` registers `s` bytes apart. -/
def regN (base n s : Nat) (fields : List RField) : RDef :=
  { base := base, n1 := 1, s1 := 2 ^ 28, n2 := n, s2 := s, fields := fields }

/-- `n1` groups `s1` bytes apart, each of `n2` registers `s2` bytes apart. -/
def regNN (base n1 s1 n2 s2 : Nat) (fields : List RField) : RDef :=
  { base := base, n1 := n1, s1 := s1, n2 := n2, s2 := s2, fields := fields }

def fRo (hi lo : Nat) (rst : Nat := 0) : RField := { hi := hi, lo := lo, acc := .ro, rst := rst }
def fRw (hi lo : Nat) (rst : Nat := 0) : RField := { hi := hi, lo := lo, acc := .rw, rst := rst }
def fW1c (hi lo : Nat) : RField := { hi := hi, lo := lo, acc := .w1c, rst := 0 }
def fW1s (hi lo : Nat) : RField := { hi := hi, lo := lo, acc := .w1s, rst := 0 }
def fWo (hi lo : Nat) : RField := { hi := hi, lo := lo, acc := .wo, rst := 0 }
def fRc (hi lo : Nat) (rst : Nat := 0) : RField := { hi := hi, lo := lo, acc := .rc, rst := rst }

/-- CODE [15:0] and VALID [16]: the fault register that most blocks have. -/
def faultFields : List RField := [fRo 15 0, fW1c 16 16]

/-! ### Block bases (Table 1.6) -/

def baseCtl : Nat := 0x060000000000
def baseSch : Nat := 0x060000000000
def baseMem : Nat := 0x060001000000
def baseCel : Nat := 0x060002000000
def baseLdr : Nat := 0x060003000000
def baseUpd : Nat := 0x060004000000
def baseFab : Nat := 0x060005000000
def basePrc : Nat := 0x060006000000
def baseWin : Nat := 0x060007000000
def baseLbx : Nat := 0x060008000000
def baseAtt : Nat := 0x060009000000
def baseMp : Nat := 0x06000A000000
def baseIrq : Nat := 0x06000B000000
def baseEvr : Nat := 0x06000C000000
def baseCvu : Nat := 0x06000D000000
def basePwr : Nat := 0x06000E000000
def baseThm : Nat := 0x06000F000000
def baseSec : Nat := 0x060010000000
def baseCfg : Nat := 0x060011000000
/-- First address above the control-register region (R8). -/
def endCtl : Nat := 0x060012000000

/-! ### SCH (Tables 5.6 to 5.9, Table 13.9) -/

def rSchCtrl : Nat := baseSch
def rSchState : Nat := 0x008 + baseSch
def rSchFtime : Nat := 0x010 + baseSch
def rSchOffset : Nat := 0x018 + baseSch
def rSchImage : Nat := 0x020 + baseSch
def rSchStep : Nat := 0x028 + baseSch
def rSchStretch : Nat := 0x030 + baseSch
def rSchTurns : Nat := 0x038 + baseSch
def rSchLastSync : Nat := 0x040 + baseSch
def rSchLateTotal : Nat := 0x048 + baseSch
def rSchFault : Nat := 0x050 + baseSch
def rSchSeed : Nat := 0x058 + baseSch
def rJrnlBase : Nat := 0x060 + baseSch
def rJrnlCtl : Nat := 0x068 + baseSch
def rJrnlPtr : Nat := 0x070 + baseSch
def rJrnlSeq : Nat := 0x078 + baseSch
def rJrnlSafe : Nat := 0x080 + baseSch
def rJrnlPut : Nat := 0x088 + baseSch
def rReplay : Nat := 0x090 + baseSch
def rReplayUntil : Nat := 0x098 + baseSch
def rRplyBase : Nat := 0x0A0 + baseSch
def rRplyCtl : Nat := 0x0A8 + baseSch
def rRplyPtr : Nat := 0x0B0 + baseSch
def rSchRoomSel : Nat := 0x100 + baseSch
def rSchRoomData : Nat := 0x108 + baseSch

def regsSch : List RDef :=
  [reg1 rSchCtrl [fWo 0 0, fWo 1 1, fWo 2 2],
   reg1 rSchState [fRo 2 0, fRo 3 3, fRo 4 4],
   reg1 rSchFtime [fRo 63 0],
   reg1 rSchOffset [fRo 31 0, fRo 32 32],
   reg1 rSchImage [fRw 63 6],
   reg1 rSchStep [fRo 63 0],
   reg1 rSchStretch [fRo 4 0, fRw 12 8, fRo 20 16],
   reg1 rSchTurns [fRo 5 0 1, fRo 13 8],
   reg1 rSchLastSync [fRo 15 0, fRo 16 16, fRo 17 17, fRo 18 18, fRo 63 32],
   reg1 rSchLateTotal [fRc 47 0, fRc 63 48],
   reg1 rSchFault faultFields,
   reg1 rSchRoomSel [fRw 11 0, fRw 16 12, fRw 18 17, fRw 24 19, fRw 25 25],
   reg1 rSchRoomData [fRo 63 0],
   reg1 rSchSeed [fRw 63 0],
   reg1 rJrnlBase [fRw 63 12],
   reg1 rJrnlCtl [fRw 23 0, fW1c 24 24, fRc 47 32],
   reg1 rJrnlPtr [fRo 31 0, fRw 63 32],
   reg1 rJrnlSeq [fRo 63 0],
   reg1 rJrnlSafe [fRw 63 0],
   reg1 rJrnlPut [fWo 63 4],
   reg1 rReplay [fRw 0 0, fRo 1 1],
   reg1 rReplayUntil [fRw 63 0],
   reg1 rRplyBase [fRw 63 12],
   reg1 rRplyCtl [fRw 23 0],
   reg1 rRplyPtr [fRw 31 0, fRo 63 32]]

/-! ### MP (Table 17.6) -/

def rMpId : Nat := baseMp
def rMpCoreCtl : Nat := 0x008 + baseMp
def rMpCoreStat : Nat := 0x010 + baseMp
def rMpWdog (c : Nat) : Nat := 0x020 + baseMp + 8 * c
def rMpSram : Nat := 0x040 + baseMp
def rMpFreeze : Nat := 0x048 + baseMp
def rMpFreezeAt : Nat := 0x050 + baseMp
def rMpFault : Nat := 0x058 + baseMp
def rMpScratch (i : Nat) : Nat := 0x100 + baseMp + 8 * i

def regsMp : List RDef :=
  [reg1 rMpId [fRo 15 0 0x0C20, fRo 23 16],
   reg1 rMpCoreCtl [fRw 3 0 1, fWo 7 4],
   reg1 rMpCoreStat [fRo 3 0 1, fW1c 4 4, fW1c 5 5, fW1c 6 6, fW1c 7 7, fRo 15 8],
   reg1 (rMpWdog 0) [fRw 23 0 1000000, fRw 24 24 1, fWo 25 25],
   regN (rMpWdog 1) 3 8 [fRw 23 0 1000000, fRw 24 24, fWo 25 25],
   reg1 rMpSram [fRc 23 0, fRc 39 24, fRo 59 40],
   reg1 rMpFreeze [fRw 0 0, fWo 1 1, fWo 63 48],
   reg1 rMpFreezeAt [fRw 63 0],
   reg1 rMpFault faultFields,
   regN (rMpScratch 0) 8 8 [fRw 63 0]]

/-! ### IRQ (Table 17.7) -/

def rIrqSwset : Nat := baseIrq
def rIrqSwclr : Nat := 0x008 + baseIrq
def rIrqStat : Nat := 0x010 + baseIrq
def rIrqSrc (s : Nat) : Nat := 0x10000 + baseIrq + 8 * s
def rIrqGrp (g : Nat) : Nat := 0x20000 + baseIrq + 8 * g
def rIrqTgt (t : Nat) : Nat := 0x30000 + baseIrq + 0x40 * t
def rIrqClaim (t : Nat) : Nat := 0x08 + rIrqTgt t
def rIrqEoi (t : Nat) : Nat := 0x10 + rIrqTgt t
def rIrqRpri (t : Nat) : Nat := 0x18 + rIrqTgt t

def regsIrq : List RDef :=
  [reg1 rIrqSwset [fWo 9 0],
   reg1 rIrqSwclr [fWo 9 0],
   reg1 rIrqStat [fW1c 0 0, fRc 31 16],
   regN (rIrqSrc 0) 1024 8 [fRw 3 0 15, fRw 8 4 1, fRw 9 9, fRo 10 10, fRo 11 11, fRo 12 12, fRo 15 13 7],
   regN (rIrqGrp 0) 64 8 [fRw 9 0, fRo 10 10, fRo 13 11 4],
   reg1 (rIrqTgt 0) [fRw 0 0 1],
   regN (rIrqTgt 1) 4 0x40 [fRw 0 0],
   regN (rIrqClaim 0) 5 0x40 [fRc 9 0, fRc 10 10, fRc 14 11],
   regN (rIrqEoi 0) 5 0x40 [fWo 9 0],
   regN (rIrqRpri 0) 5 0x40 [fRo 4 0 16, fRo 9 5]]

/-! ### EVR (Table 17.8) -/

def rEvrCtrl : Nat := baseEvr
def rEvrPtr : Nat := 0x008 + baseEvr
def rEvrCursor : Nat := 0x010 + baseEvr
def rEvrData : Nat := 0x018 + baseEvr
def rEvrStat : Nat := 0x020 + baseEvr
def rEvrFire : Nat := 0x028 + baseEvr
def rEvrSoft : Nat := 0x030 + baseEvr
def rEvrTrg (t : Nat) : Nat := 0x100 + baseEvr + 0x10 * t
def rEvrTrgTime (t : Nat) : Nat := rEvrTrg t + 8
def rEvrSel (t i : Nat) : Nat := 0x1000 + baseEvr + 0x100 * t + 8 * i

def regsEvr : List RDef :=
  [reg1 rEvrCtrl [fRw 0 0 1],
   reg1 rEvrPtr [fRo 15 0, fRo 39 32 1],
   reg1 rEvrCursor [fRw 15 3],
   reg1 rEvrData [fRo 63 0],
   reg1 rEvrStat [fRc 31 0, fRc 47 32, fRc 63 48],
   reg1 rEvrFire [fWo 2 0],
   reg1 rEvrSoft [fWo 15 0, fWo 63 16],
   regN (rEvrTrg 0) 8 0x10 [fRw 0 0, fRw 2 1, fRw 3 3, fRw 4 4, fRw 10 5, fRw 31 16, fRw 47 32, fRc 55 48],
   regN (rEvrTrgTime 0) 8 0x10 [fRw 63 0],
   regNN (rEvrSel 0 0) 8 0x100 32 8 [fRw 31 3]]

/-! ### CVU (Table 17.9) -/

def rCvu (k off : Nat) : Nat := baseCvu + 0x40 * k + off

def regsCvu : List RDef :=
  [regN (rCvu 0 0x00) 32 0x40 [fRw 63 0 0x1EDC6F41],
   regN (rCvu 0 0x08) 32 0x40 [fRw 63 0 0xFFFFFFFF],
   regN (rCvu 0 0x10) 32 0x40 [fRw 63 0 0xFFFFFFFF],
   regN (rCvu 0 0x18) 32 0x40
     [fRw 6 0 32, fRw 7 7 1, fRw 8 8 1, fRw 9 9, fRw 10 10 1, fRw 11 11, fRo 16 16, fW1c 17 17, fW1c 18 18, fRo 47 32],
   regN (rCvu 0 0x20) 32 0x40 [fRw 63 0],
   regN (rCvu 0 0x28) 32 0x40 [fRw 63 0],
   regN (rCvu 0 0x30) 32 0x40 [fWo 31 0],
   regN (rCvu 0 0x38) 32 0x40 [fRo 63 0]]

/-! ### MEM and CEL (Tables 6.4, 7.5 to 7.8) -/

def rMemCtrl (c : Nat) : Nat := baseMem + 0x80000 * c
def rMemStatus (c : Nat) : Nat := 0x008 + rMemCtrl c
def rMemFault (c : Nat) : Nat := 0x010 + rMemCtrl c
def rMemChState (c ch : Nat) : Nat := 0x1000 + rMemCtrl c + 0x40 * ch
def rMemChErr (c ch : Nat) : Nat := 0x08 + rMemChState c ch
def rMemChUe (c ch : Nat) : Nat := 0x10 + rMemChState c ch
def rMemChMargin (c ch : Nat) : Nat := 0x18 + rMemChState c ch
def rMemChRetrain (c ch : Nat) : Nat := 0x20 + rMemChState c ch

def regsMem : List RDef :=
  [regN (rMemCtrl 0) 20 0x80000 [fRw 5 0 33, fRw 6 6 1],
   regN (rMemStatus 0) 20 0x80000 [fRo 0 0, fRo 1 1, fRo 7 2, fRo 12 8, fRo 13 13],
   regN (rMemFault 0) 20 0x80000 [fRo 15 0, fRo 20 16, fW1c 21 21],
   regNN (rMemChState 0 0) 20 0x80000 32 0x40 [fRo 2 0, fW1s 3 3, fW1s 4 4, fRo 63 32],
   regNN (rMemChErr 0 0) 20 0x80000 32 0x40 [fRc 23 0, fRc 43 24, fRc 63 44],
   regNN (rMemChUe 0 0) 20 0x80000 32 0x40 [fRc 15 0, fRc 31 16, fRo 57 32, fRo 63 58],
   regNN (rMemChMargin 0 0) 20 0x80000 32 0x40 [fRo 7 0, fRo 15 8, fRo 23 16, fRo 31 24, fRo 35 32],
   regNN (rMemChRetrain 0 0) 20 0x80000 32 0x40 [fRo 15 0, fRo 31 16, fRc 47 32, fRo 49 48]]

def rCelZone : Nat := baseCel
def rCelLive : Nat := 0x008 + baseCel
def rCelLast : Nat := 0x010 + baseCel
def rCelFloatA (e : Nat) : Nat := 0x10000 + baseCel + 0x10 * e
def rCelFloatB (e : Nat) : Nat := rCelFloatA e + 8
def rCelPin (c : Nat) : Nat := 0x100000 + baseCel + 0x10000 * c
def rCelTemp (c : Nat) : Nat := 0x08 + rCelPin c
def rCelHold (c : Nat) : Nat := 0x10 + rCelPin c
def rCelStat (c : Nat) : Nat := 0x18 + rCelPin c

def regsCel : List RDef :=
  [reg1 rCelZone [fRw 5 0 48, fRo 6 6],
   reg1 rCelLive [fRo 9 0, fRo 21 10, fRo 31 22],
   reg1 rCelLast [fRo 63 0],
   regN (rCelFloatA 0) 256 0x10 [fRw 19 0, fRw 35 20, fRo 38 36, fRo 43 39, fRo 44 44, fRo 60 45],
   regN (rCelFloatB 0) 256 0x10 [fRo 19 0, fRw 39 20, fRw 42 40, fRw 47 43, fW1s 48 48],
   regN (rCelPin 0) 20 0x10000 [fRw 3 0],
   regN (rCelTemp 0) 20 0x10000 [fRo 11 0, fRo 15 12, fRo 16 16, fRo 17 17, fRo 18 18, fRc 43 32],
   regN (rCelHold 0) 20 0x10000 [fRo 25 0, fRc 51 26],
   regN (rCelStat 0) 20 0x10000 [fRc 31 0, fRc 63 32]]

/-! ### LDR (Tables 8.10 to 8.13, 9.7, 9.8) -/

def rLdr (f off : Nat) : Nat := baseLdr + 0x100000 * f + off
def rLdrCtrl (f : Nat) : Nat := rLdr f 0x000
def rLdrPrepOut (f : Nat) : Nat := rLdr f 0x008
def rLdrPrepIn (f : Nat) : Nat := rLdr f 0x010
def rLdrPrepStatus (f : Nat) : Nat := rLdr f 0x018
def rLdrCtx (f : Nat) : Nat := rLdr f 0x020
def rLdrDesc (f : Nat) : Nat := rLdr f 0x028
def rLdrStatLocal (f : Nat) : Nat := rLdr f 0x030
def rLdrStatRemote (f : Nat) : Nat := rLdr f 0x038
def rLdrStatServed (f : Nat) : Nat := rLdr f 0x040
def rLdrStatScatter (f : Nat) : Nat := rLdr f 0x048
def rLdrStatFail (f : Nat) : Nat := rLdr f 0x050
def rLdrFault (f : Nat) : Nat := rLdr f 0x058
def rLdrPfBuf (f : Nat) : Nat := rLdr f 0x060
def rLdrPfList (f : Nat) : Nat := rLdr f 0x068
def rLdrPfStatus (f : Nat) : Nat := rLdr f 0x070
def rLdrLoadBase (f : Nat) : Nat := rLdr f 0x078
def rLdrProbe (f : Nat) : Nat := rLdr f 0x080
def rLdrCq (c off : Nat) : Nat := 0xA00000 + baseLdr + 0x1000 * c + off
def rLdrCqBase (c : Nat) : Nat := rLdrCq c 0x00
def rLdrCqCap (c : Nat) : Nat := rLdrCq c 0x08
def rLdrCqState (c : Nat) : Nat := rLdrCq c 0x10
def rLdrCqTime (c : Nat) : Nat := rLdrCq c 0x18
def rLdrTdir : Nat := 0xB00000 + baseLdr
def rLdrJob : Nat := 0xB00008 + baseLdr
def rLdrRqBase : Nat := 0xB00010 + baseLdr
def rLdrRqCtl : Nat := 0xB00018 + baseLdr
def rLdrRqPtr : Nat := 0xB00020 + baseLdr
def rLdrVerCmd : Nat := 0xB00028 + baseLdr
def rLdrVerState : Nat := 0xB00030 + baseLdr
def rLdrMigProp : Nat := 0xB00038 + baseLdr
def rLdrMigCtl : Nat := 0xB00040 + baseLdr
def rLdrMigStat : Nat := 0xB00048 + baseLdr
def rLdrTrack (i : Nat) : Nat := 0xB01000 + baseLdr + 8 * i

def regsLdr : List RDef :=
  [regN (rLdrCtrl 0) 10 0x100000 [fRw 2 0 1],
   regN (rLdrPrepOut 0) 10 0x100000 [fRw 63 6],
   regN (rLdrPrepIn 0) 10 0x100000 [fWo 63 6],
   regN (rLdrPrepStatus 0) 10 0x100000 [fRo 4 0, fW1c 5 5],
   regN (rLdrCtx 0) 10 0x100000 [fRo 14 0, fRo 28 15, fRc 43 29, fRc 57 44],
   regN (rLdrDesc 0) 10 0x100000 [fRo 6 0, fRo 20 7],
   regN (rLdrStatLocal 0) 10 0x100000 [fRc 47 0],
   regN (rLdrStatRemote 0) 10 0x100000 [fRc 47 0],
   regN (rLdrStatServed 0) 10 0x100000 [fRc 47 0],
   regN (rLdrStatScatter 0) 10 0x100000 [fRc 47 0],
   regN (rLdrStatFail 0) 10 0x100000 [fRc 23 0, fRc 47 24, fRc 63 48],
   regN (rLdrFault 0) 10 0x100000 faultFields,
   regN (rLdrPfBuf 0) 10 0x100000 [fRw 63 6],
   regN (rLdrPfList 0) 10 0x100000 [fWo 63 6],
   regN (rLdrPfStatus 0) 10 0x100000 [fRo 4 0, fW1c 5 5, fRc 47 8],
   regN (rLdrLoadBase 0) 10 0x100000 [fRw 63 14],
   regN (rLdrProbe 0) 10 0x100000 [fRc 31 0, fRc 63 32],
   regN (rLdrCqBase 0) 20 0x1000 [fRw 63 5],
   regN (rLdrCqCap 0) 20 0x1000 [fRw 31 0],
   regN (rLdrCqState 0) 20 0x1000 [fRo 31 0, fRc 63 32],
   regN (rLdrCqTime 0) 20 0x1000 [fRo 31 0, fRo 63 32],
   reg1 rLdrTdir [fRw 63 6],
   reg1 rLdrJob [fRw 15 0, fRo 16 16, fRw 17 17],
   reg1 rLdrRqBase [fRw 63 4],
   reg1 rLdrRqCtl [fRw 24 0],
   reg1 rLdrRqPtr [fRo 31 0, fRw 63 32],
   reg1 rLdrVerCmd [fWo 63 6],
   reg1 rLdrVerState [fRo 15 0, fRo 16 16, fRo 17 17 1, fRo 18 18, fRo 47 32],
   reg1 rLdrMigProp [fRw 63 6],
   reg1 rLdrMigCtl [fRw 8 0, fRw 31 16, fRw 44 32],
   reg1 rLdrMigStat [fRo 15 0, fRo 31 16, fRo 47 32, fRc 63 48],
   regN (rLdrTrack 0) 64 8 [fRw 15 0, fRw 16 16, fRw 17 17]]

/-! ### UPD (Tables 11.7, 11.8) -/

def rUpd (f off : Nat) : Nat := baseUpd + 0x100000 * f + off
def rUpdDir (f : Nat) : Nat := rUpd f 0x000
def rUpdStat (f : Nat) : Nat := rUpd f 0x008
def rUpdTime (f : Nat) : Nat := rUpd f 0x010
def rUpdNum (f : Nat) : Nat := rUpd f 0x018
def rUpdWatchCtl (f : Nat) : Nat := rUpd f 0x020
def rUpdWatchCnt (f : Nat) : Nat := rUpd f 0x028
def rUpdWatchLast (f : Nat) : Nat := rUpd f 0x030
def rUpdFault (f : Nat) : Nat := rUpd f 0x038
def rUpdPwin (i : Nat) : Nat := 0xA00000 + baseUpd + 8 * i

def regsUpd : List RDef :=
  [regN (rUpdDir 0) 10 0x100000 [fRw 11 0, fRw 63 12],
   regN (rUpdStat 0) 10 0x100000 [fRo 31 0, fRo 47 32],
   regN (rUpdTime 0) 10 0x100000 [fRo 31 0, fRo 63 32],
   regN (rUpdNum 0) 10 0x100000 [fRc 23 0, fRc 47 24, fRc 63 48],
   regN (rUpdWatchCtl 0) 10 0x100000 [fRw 0 0 1, fRw 1 1 1, fRw 6 2 12, fRw 11 7 4],
   regN (rUpdWatchCnt 0) 10 0x100000 [fRc 31 0, fRc 47 32, fRc 63 48],
   regN (rUpdWatchLast 0) 10 0x100000
     [fRo 11 0, fRo 16 12, fRo 17 17, fRo 20 18, fRo 23 21, fW1c 24 24, fRo 63 32],
   regN (rUpdFault 0) 10 0x100000 faultFields,
   regN (rUpdPwin 0) 64 8 [fRw 19 0, fRw 39 20, fRw 55 40]]

/-! ### FAB and PRC (Tables 14.9 to 14.11) -/

def rLnkCtrl (l : Nat) : Nat := baseFab + 0x1000 * l
def rLnkState (l : Nat) : Nat := 0x08 + rLnkCtrl l
def rLnkFec (l : Nat) : Nat := 0x10 + rLnkCtrl l
def rLnkRetry (l : Nat) : Nat := 0x18 + rLnkCtrl l
def rLnkLane (l : Nat) : Nat := 0x20 + rLnkCtrl l
def rLnkTime (l : Nat) : Nat := 0x28 + rLnkCtrl l
def rFabJob : Nat := 0x100000 + baseFab
def rFabE2e : Nat := 0x100008 + baseFab
def rFabTimeCfg : Nat := 0x100010 + baseFab
def rFabTimeStat : Nat := 0x100018 + baseFab
def rFabPps : Nat := 0x100020 + baseFab
def rFabStat : Nat := 0x100028 + baseFab
def rFabFault : Nat := 0x100030 + baseFab
def rFabPermA (i : Nat) : Nat := 0x100100 + baseFab + 0x10 * i
def rFabPermB (i : Nat) : Nat := rFabPermA i + 8

def regsFab : List RDef :=
  [regN (rLnkCtrl 0) 50 0x1000 [fRw 0 0 1, fW1s 1 1, fW1s 2 2, fRw 5 3],
   regN (rLnkState 0) 50 0x1000 [fRo 2 0, fRo 5 3 7, fRo 15 8],
   regN (rLnkFec 0) 50 0x1000 [fRc 39 0, fRc 63 40],
   regN (rLnkRetry 0) 50 0x1000 [fRc 31 0, fRc 63 32],
   regN (rLnkLane 0) 50 0x1000 [fRc 39 0],
   regN (rLnkTime 0) 50 0x1000 [fRw 31 0, fRo 63 32],
   reg1 rFabJob [fRw 15 0, fRo 16 16, fRw 47 32],
   reg1 rFabE2e [fRw 15 0 256, fRw 18 16 4],
   reg1 rFabTimeCfg [fRw 7 0, fRw 13 8, fRw 19 14 25],
   reg1 rFabTimeStat [fRo 0 0, fRo 1 1, fRo 2 2, fRo 3 3, fRo 31 16, fRo 47 32],
   reg1 rFabPps [fRo 63 0],
   reg1 rFabStat [fRc 31 0, fRc 47 32, fRc 63 48],
   reg1 rFabFault [fRo 15 0, fRo 21 16, fW1c 22 22],
   regN (rFabPermA 0) 64 0x10 [fRw 63 12],
   regN (rFabPermB 0) 64 0x10 [fRw 23 0, fRw 39 24, fRw 55 40]]

def rPrc (p off : Nat) : Nat := basePrc + 0x10000 * p + off
def rPrcCtrl (p : Nat) : Nat := rPrc p 0x00
def rPrcStatus (p : Nat) : Nat := rPrc p 0x08
def rPrcMac (p : Nat) : Nat := rPrc p 0x10
def rPrcIp4 (p : Nat) : Nat := rPrc p 0x18
def rPrcCc (p : Nat) : Nat := rPrc p 0x30
def rPrcSec (p : Nat) : Nat := rPrc p 0x38
def rPrcStat (p : Nat) : Nat := rPrc p 0x40
def rPrcFault (p : Nat) : Nat := rPrc p 0x48

def regsPrc : List RDef :=
  [regN (rPrcCtrl 0) 8 0x10000 [fRw 0 0 1, fRw 1 1, fRw 4 2 3, fRw 5 5],
   regN (rPrcStatus 0) 8 0x10000 [fRo 0 0, fRo 1 1, fRo 24 16],
   regN (rPrcMac 0) 8 0x10000 [fRo 47 0],
   regN (rPrcIp4 0) 8 0x10000 [fRw 31 0],
   regN (rPrc 0 0x20) 8 0x10000 [fRw 63 0],
   regN (rPrc 0 0x28) 8 0x10000 [fRw 63 0],
   regN (rPrcCc 0) 8 0x10000 [fRw 7 0 8, fRw 23 8 5000, fRw 31 24 55, fRw 47 32 1],
   regN (rPrcSec 0) 8 0x10000 [fRw 29 0],
   regN (rPrcStat 0) 8 0x10000 [fRc 15 0, fRc 31 16, fRc 47 32, fRc 63 48],
   regN (rPrcFault 0) 8 0x10000 faultFields]

/-! ### WIN and LBX (Tables 15.9, 15.10) -/

def rWin (s off : Nat) : Nat := baseWin + 0x100 * s + off
def rWinSess (s : Nat) : Nat := rWin s 0x00
def rWinBase (s : Nat) : Nat := rWin s 0x08
def rWinBounds (s : Nat) : Nat := rWin s 0x10
def rWinStageBase (s : Nat) : Nat := rWin s 0x18
def rWinStageCtl (s : Nat) : Nat := rWin s 0x20
def rWinStat (s : Nat) : Nat := rWin s 0x28
def rWinNotice (s : Nat) : Nat := rWin s 0x30
def rWinKeys (s : Nat) : Nat := rWin s 0x38
def rWinFault : Nat := 0x8000 + baseWin

def regsWin : List RDef :=
  [regN (rWinSess 0) 64 0x100 [fRw 1 0, fRw 3 2, fRw 31 16, fRw 47 32],
   regN (rWinBase 0) 64 0x100 [fRw 40 26],
   regN (rWinBounds 0) 64 0x100 [fRw 14 0, fRw 30 16],
   regN (rWinStageBase 0) 64 0x100 [fRw 63 12],
   regN (rWinStageCtl 0) 64 0x100 [fRw 23 0, fRw 28 24, fRw 35 32, fRw 40 36, fRo 63 48],
   regN (rWinStat 0) 64 0x100 [fRc 31 0, fRc 47 32, fRc 63 48],
   regN (rWinNotice 0) 64 0x100 [fRo 47 0, fRc 63 48],
   regN (rWinKeys 0) 64 0x100 [fRw 31 0, fRw 63 32],
   reg1 rWinFault [fRo 15 0, fRo 21 16, fW1c 22 22]]

def rLbx (q off : Nat) : Nat := baseLbx + 0x100 * q + off
def rLbxOwner (q : Nat) : Nat := rLbx q 0x00
def rLbxPtr (q : Nat) : Nat := rLbx q 0x08
def rLbxCq (q : Nat) : Nat := rLbx q 0x10
def rLbxStat (q : Nat) : Nat := rLbx q 0x18
def rLbxFault (q : Nat) : Nat := rLbx q 0x20
def rLbxCtrl : Nat := 0x2000 + baseLbx

def regsLbx : List RDef :=
  [regN (rLbxOwner 0) 17 0x100 [fRw 5 0, fRw 6 6, fRo 8 7],
   regN (rLbxPtr 0) 17 0x100 [fRo 31 0, fRo 63 32],
   regN (rLbxCq 0) 17 0x100 [fRo 31 0, fRo 63 32],
   regN (rLbxStat 0) 17 0x100 [fRc 31 0, fRc 47 32, fRc 63 48],
   regN (rLbxFault 0) 17 0x100 [fRo 15 0, fW1c 16 16, fRo 63 32],
   reg1 rLbxCtrl [fRw 0 0, fRw 1 1 1]]

/-! ### ATT (Table 16.8) -/

def rAtt (off : Nat) : Nat := baseAtt + off
def rAttCtrl : Nat := rAtt 0x000
def rAttCapture : Nat := rAtt 0x008
def rAttCaptureN : Nat := rAtt 0x010
def rAttShadow : Nat := rAtt 0x018
def rAttShadowLen : Nat := rAtt 0x020
def rAttDmap : Nat := rAtt 0x028
def rAttEpoch : Nat := rAtt 0x030
def rAttLast : Nat := rAtt 0x038
def rAttExport : Nat := rAtt 0x040
def rAttExportCtl : Nat := rAtt 0x048
def rAttExportPtr : Nat := rAtt 0x050
def rAttImport : Nat := rAtt 0x058
def rAttImportLen : Nat := rAtt 0x060
def rAttScrub : Nat := rAtt 0x068
def rAttStat : Nat := rAtt 0x070
def rAttRows : Nat := rAtt 0x078
def rAttFault : Nat := rAtt 0x080
def rAttPort (p : Nat) : Nat := rAtt 0x800 + 0x10 * p
def rDrvState (d : Nat) : Nat := rAtt 0x1000 + 0x100 * d
def rDrvHealth (d : Nat) : Nat := 0x08 + rDrvState d
def rDrvErr (d : Nat) : Nat := 0x10 + rDrvState d
def rDrvCap (d : Nat) : Nat := 0x18 + rDrvState d

def regsAtt : List RDef :=
  [reg1 rAttCtrl [fRw 0 0, fRw 20 1, fRw 28 21 1, fRw 36 29 4, fRw 40 37 2],
   reg1 rAttCapture [fRw 63 6],
   reg1 rAttCaptureN [fRw 15 0],
   reg1 rAttShadow [fRw 63 16],
   reg1 rAttShadowLen [fRw 31 0],
   reg1 rAttDmap [fRw 63 12],
   reg1 rAttEpoch [fRo 31 0],
   reg1 rAttLast [fRo 31 0, fRo 63 32],
   reg1 rAttExport [fRw 63 12],
   reg1 rAttExportCtl [fRw 23 0],
   reg1 rAttExportPtr [fRo 31 0, fRw 63 32],
   reg1 rAttImport [fWo 63 12],
   reg1 rAttImportLen [fRw 31 0, fRo 32 32],
   reg1 rAttScrub [fRw 7 0 14, fRw 15 8 60, fRw 31 16 20, fRw 39 32 2],
   reg1 rAttStat [fRc 31 0, fRc 47 32],
   reg1 rAttRows [fRc 31 0, fRo 63 32],
   reg1 rAttFault [fRo 15 0, fRo 18 16, fW1c 19 19],
   regN (rAttPort 0) 2 0x10 [fRw 0 0, fRo 2 1],
   regN (rDrvState 0) 4 0x100 [fRo 2 0, fW1s 3 3, fW1s 4 4],
   regN (rDrvHealth 0) 4 0x100 [fRo 7 0, fRo 15 8, fRo 23 16],
   regN (rDrvErr 0) 4 0x100 [fRc 15 0, fRc 31 16, fRc 47 32, fRc 63 48],
   regN (rDrvCap 0) 4 0x100 [fRo 47 0]]

/-! ### PWR, THM, SEC and CFG (chapter 18) -/

def rPwrStatus : Nat := basePwr
def rPwrInput : Nat := 0x008 + basePwr
def rPwrLimit : Nat := 0x010 + basePwr
def rPwrAlarm : Nat := 0x018 + basePwr
def rPwrFault : Nat := 0x020 + basePwr
def rPwrFloor (f : Nat) : Nat := 0x100 + basePwr + 8 * f
def rPwrCellar (c : Nat) : Nat := 0x200 + basePwr + 8 * c

def regsPwr : List RDef :=
  [reg1 rPwrStatus [fRo 0 0 1, fRo 1 1, fRo 11 2, fRo 31 12],
   reg1 rPwrInput [fRo 15 0, fRo 31 16, fRo 47 32, fRc 63 48],
   reg1 rPwrLimit [fRw 15 0],
   reg1 rPwrAlarm [fRo 0 0, fRo 1 1, fRo 2 2, fW1c 3 3, fRc 31 16],
   reg1 rPwrFault faultFields,
   regN (rPwrFloor 0) 10 8 [fRo 9 0, fRw 25 16, fRo 41 32, fRo 63 48],
   regN (rPwrCellar 0) 20 8 [fRo 15 0, fRo 25 16]]

def rThmFloor (f : Nat) : Nat := baseThm + 8 * f
def rThmLimits : Nat := 0x080 + baseThm
def rThmPolicy : Nat := 0x088 + baseThm
def rThmFault : Nat := 0x090 + baseThm
def rThmProc (f : Nat) : Nat := 0x100 + baseThm + 8 * f

def regsThm : List RDef :=
  [regN (rThmFloor 0) 10 8 [fRo 11 0, fRo 16 12, fRo 17 17, fRo 18 18, fRo 19 19, fRc 43 32],
   reg1 rThmLimits [fRw 7 0, fRo 15 8 105, fRo 23 16 115, fRo 31 24 125],
   reg1 rThmPolicy [fRw 0 0 1, fRw 4 1 2, fRw 20 5 100, fRw 25 21 5, fRw 33 26 20],
   reg1 rThmFault [fRo 15 0, fRo 19 16, fW1c 20 20],
   regN (rThmProc 0) 10 8 [fRo 15 0, fRo 31 16]]

def rSecStatus : Nat := baseSec
def rSecEvent : Nat := 0x008 + baseSec
def rSecRestarts : Nat := 0x010 + baseSec
def rSecFault : Nat := 0x018 + baseSec
def rSecMr3Ext : Nat := 0x020 + baseSec
def rSecId (j : Nat) : Nat := 0x040 + baseSec + 8 * j
def rSecMr (i j : Nat) : Nat := 0x100 + baseSec + 0x40 * i + 8 * j

def regsSec : List RDef :=
  [reg1 rSecStatus [fRo 0 0, fRo 1 1, fRo 2 2],
   reg1 rSecEvent [fW1c 0 0, fW1c 1 1, fRo 2 2, fRc 31 16],
   reg1 rSecRestarts [fRo 15 0],
   reg1 rSecFault faultFields,
   reg1 rSecMr3Ext [fWo 63 6],
   regN (rSecId 0) 8 8 [fRo 63 0],
   regN (rSecMr 0 0) 32 8 [fRo 63 0]]

def rCfgStatus : Nat := baseCfg
def rCfgRepair : Nat := 0x008 + baseCfg
def rCfgFault : Nat := 0x010 + baseCfg
def rCfgSkey (i : Nat) : Nat := 0x100 + baseCfg + 8 * i

def regsCfg : List RDef :=
  [reg1 rCfgStatus [fW1c 0 0, fRo 1 1, fRo 2 2, fRo 63 32],
   reg1 rCfgRepair [fRo 31 0, fRo 32 32, fRo 33 33, fW1c 34 34],
   reg1 rCfgFault faultFields,
   regN (rCfgSkey 0) 8 8 [fRo 63 0]]

/-! ### Look-up -/

/-- The map of the block that an address of the control-register region lies in: 18 blocks of 16 MiB (R20, Table 1.6). -/
def blockRegs (b : Nat) : List RDef :=
  match b with
  | 0 => regsSch
  | 1 => regsMem
  | 2 => regsCel
  | 3 => regsLdr
  | 4 => regsUpd
  | 5 => regsFab
  | 6 => regsPrc
  | 7 => regsWin
  | 8 => regsLbx
  | 9 => regsAtt
  | 10 => regsMp
  | 11 => regsIrq
  | 12 => regsEvr
  | 13 => regsCvu
  | 14 => regsPwr
  | 15 => regsThm
  | 16 => regsSec
  | 17 => regsCfg
  | _ => []

/-- The fields of the register at an address; none where the block's map defines no register (R8). -/
def regFields (a : Nat) : List RField :=
  match (blockRegs (a % 2 ^ 40 / 2 ^ 24)).find? (fun d => d.covers a) with
  | some d => d.fields
  | none => []

/-- The reset value of a list of fields. -/
def fieldsReset : List RField → Nat
  | [] => 0
  | f :: fs => f.rst <<< f.lo + fieldsReset fs

/-- The reset value of the register at an address (R11). -/
def regReset (a : Nat) : Word := BitVec.ofNat 64 (fieldsReset (regFields a))

/-- What a read returns (Table 0.5): WO and reserved fields read 0. -/
def readMask : List RField → Nat
  | [] => 0
  | f :: fs => (if f.acc = .wo then 0 else (2 ^ (f.hi + 1 - f.lo) - 1) <<< f.lo) + readMask fs

/-- The register after a read (Table 0.5): an RC field keeps only what the device has written in the cycle, `new` (R10). -/
def afterRead (fs : List RField) (w new : Word) : Word :=
  fs.foldl (fun w f => if f.acc = .rc then setBits w f.hi f.lo (bits new f.hi f.lo) else w) w

/-- The register after a write of `d` (Table 0.5): RW fields take it, W1S bits written 1 set, and W1C bits written 1 clear, unless the device has set
them in the cycle, `new` (R10). -/
def afterWrite (fs : List RField) (w d new : Word) : Word :=
  fs.foldl (fun w f =>
    match f.acc with
    | .rw => setBits w f.hi f.lo (bits d f.hi f.lo)
    | .w1c => if bits d f.hi f.lo = 0 then w else setBits w f.hi f.lo (bits new f.hi f.lo)
    | .w1s => if bits d f.hi f.lo = 0 then w else setBits w f.hi f.lo 1
    | _ => w) w

/-- A register whose RC fields are those of `v`. -/
def withRc (fs : List RField) (w v : Word) : Word :=
  fs.foldl (fun w f => if f.acc = .rc then setBits w f.hi f.lo (bits v f.hi f.lo) else w) w

end Sys2Proof.Machine
end

