-- ==== Sys2Proof/Config.lean ====
section
/-!
DEFINITION. The free values: constants without a body, applied to a plain counter of State or to the operands they
depend on, for what the spec leaves open or gives only by name. Nothing can evaluate them, so a claim holds for
every value they may have.
-/
namespace Sys2Proof

/-- A value the spec leaves open, fresh for each use: the argument is State's counter of free values (log 3). -/
opaque Config.freeWord : Nat → Word

/-- The learning rate before warm-up of a parameter block whose SHAPE is reserved (R280, Table 11.3). -/
opaque Config.reservedShape : Nat → Lane

/-- Whether a stack line is in its cellar's cache in a cycle: R146 leaves the replacement choice open. -/
opaque Config.lineCached : Nat → Nat → Bool

/-- Whether a stack line that its cellar's cache holds is dirty there, in a cycle (R146, R176). -/
opaque Config.lineDirty : Nat → Nat → Bool

/-- The line of stack memory, if any, whose dirty copy a cellar's cache writes back in a cycle (R146). -/
opaque Config.writtenBack : Nat → Option Nat

/-- Whether the granule that a floating move copies is complete in a cycle (R154), once its bandwidth allows. -/
opaque Config.granuleCopied : Nat → Bool

/-- What a read of a stack line in a cycle finds, the state of the cells being physical (R173, Table 7.2): the remainder by 5 is the number of symbols in
error that the controller's check finds besides a poison mark, 4 for more than 3; the quotient's remainder by 3 the core dies' report, 0 no error, 1 corrected,
2 uncorrectable. -/
opaque Config.stackCheck : Nat → Nat → Nat

/-- Whether a Falcon-1024 signature verifies: public key, 64-B digest, signature (R124, R461, R463, R466, R471). The spec names the algorithm only. -/
opaque Config.falconVerify : List Byte → List Byte → List Byte → Bool

/-- The Falcon-1024 public key that key generation driven by some bytes gives (R468). -/
opaque Config.falconPublic : List Byte → List Byte

/-- A Falcon-1024 signature of a digest by the key that some bytes drive, fresh for each use (R470, R463). -/
opaque Config.falconSign : Nat → List Byte → List Byte → List Byte

/-- AES-256-GCM under a key, with IV, additional data and plaintext: the ciphertext and the 16-B tag (R462). The spec names the algorithm only. -/
opaque Config.gcmSeal : List Byte → List Byte → List Byte → List Byte → List Byte × List Byte

/-- The plaintext that a ciphertext and its tag open to, if they verify (R462). -/
opaque Config.gcmOpen : List Byte → List Byte → List Byte → List Byte → List Byte → Option (List Byte)

/-- The seed that the security unit's PUF and some helper data give (R468): physical to the module. -/
opaque Config.pufSeed : List Byte → List Byte

/-- The digests of the two Aqnas firmware keys in the boot ROM, 0 primary and 1 backup (R465), and the ROM's own self-test (R468). -/
opaque Config.romKey : Nat → List Byte

/-- U and B of R307, which the schedule image fixes and whose place in it no rule gives; by the image's digest. -/
opaque Config.microBatches : List Byte → Nat
opaque Config.microPositions : List Byte → Nat

/-- What a schedule image fixes of a logical room's pantry, whose place in the image no rule gives (R252, R254): where its descriptor stands, the allocation
that is its spill part, and the descriptor's SLOT_BYTES, PLANNED, LOG and LOG_CAP. -/
structure PantryPlan where
  desc : Nat
  spill : Nat
  slotBytes : Nat
  planned : Nat
  log : Nat
  logCap : Nat
  deriving DecidableEq, Repr

/-- The pantry of a logical room, by the image's digest: none where the job gives the room none. -/
opaque Config.pantryPlan : List Byte → Nat → Option PantryPlan

/-- The migrant slot that a target has computed for a row, below 2^32 (R238): the source's module cannot see it. -/
opaque Config.targetSlot (target table row : Nat) : Nat

end Sys2Proof
end

