-- ==== Sys2Proof/Machine/State.lean ====
section
/-!
DEFINITION. The state of the module as plain data, its reset value, and the reasons a step can stop.
Control registers, device memory, register files and per-unit records are sparse lists in canonical form
(Sys2Proof/Machine/Sparse.lean): an unlisted key holds the default.
-/
namespace Sys2Proof.Machine

/-! ### Rooms (chapters 3 and 4) -/

/-- A completion token (R93, R103, R107): its state, the status word of Table 4.11, the beat a of the operation that
armed it, and the beat k in which it completed. -/
inductive TokenState where
  | idle
  | pending
  | complete
  deriving DecidableEq, Repr

structure Token where
  st : TokenState := .idle
  word : Word := 0
  armed : Nat := 0
  doneAt : Nat := 0
  deriving DecidableEq, Repr

/-- One plane of an array's cells (R64, R65, R73): whether it holds a weight tile, in which format, the 64 cells, the
column scales of the ninth load row, when the load completes, when a load may next begin, the mode O accumulators of
the pass in progress, and the plane's last drain cycle. -/
structure Plane where
  valid : Bool := false
  fmt : Nat := 0
  cells : List Lane := []
  scales : List Lane := []
  ready : Nat := 0
  free : Nat := 0
  pass : Option (List Lane) := none
  lastDrain : Nat := 0
  /-- a parity bit of the plane fails (R88): physical damage, which no command causes -/
  parityBad : Bool := false
  deriving DecidableEq, Repr

/-- One logical array (R64 to R74): two planes and which is active, whether the gang entered mode O, the accumulator
file (key 8 × entry + lane), the latest pending write of each entry, of each half, and each half's drain window. -/
structure ArrayUnit where
  p0 : Plane := {}
  p1 : Plane := {}
  active : Nat := 0
  modeO : Bool := false
  acc : List (Nat × Lane) := []
  wr : List (Nat × Nat) := []
  hw0 : Nat := 0
  hw1 : Nat := 0
  dr0 : Nat × Nat := (1, 0)
  dr1 : Nat × Nat := (1, 0)
  chScales : List Lane := []
  /-- entries whose parity fails, and the bits a failed data path turns in every output (R88, R297): physical damage -/
  accBad : List Nat := []
  flip : Lane := 0
  deriving DecidableEq, Repr

/-- A gang (R66), keyed by its base array: log2 of its size (none used yet in the phase: `used = false`), the four status
parts of Table 4.12, the held scale line (offset and bytes, R98), the tags of its ACC entries (R99: bit 0 mode T,
bit 1 INT32), and the last cycle of its running drain. -/
structure Gang where
  used : Bool := false
  gs : Nat := 0
  st0 : Word := 0
  st1 : Word := 0
  st2 : Word := 0
  st3 : Word := 0
  held : Option (Nat × List Byte) := none
  tags : List (Nat × Nat) := []
  drain : Nat := 0
  deriving DecidableEq, Repr

/-- The write ports of R95. `post` marks a post-increment, which uses no port. -/
inductive Port where
  | arith
  | sfu
  | load
  | ctl
  | vecArr
  | addr
  | post
  | none
  deriving DecidableEq, Repr

/-- What happens inside a room in a later cycle (Table 4.10). -/
inductive MicroOp where
  /-- lanes reach a vector register -/
  | v (reg : Nat) (lanes : List (Nat × Lane))
  | x (reg : Nat) (val : Word)
  | a (reg : Nat) (val : Word)
  | tok (t : Nat) (v : Token)
  /-- a room-store write takes its bank cycle -/
  | store (off : Nat) (bs : List Byte)
  /-- one row of a load image is read (R97); row 8 is the scale row -/
  | loadRow (gb g plane fmt row off : Nat)
  /-- a load row that was read reaches the shadow planes four beats later (R96, R97) -/
  | loadPut (gb g plane fmt row : Nat) (bs : List Byte)
  /-- an issued row reads its carry-in and runs its chains (R68 to R70) -/
  | row (f : ArraySlot) (planes : List Nat) (xs : List Nat) (scs : List Nat) (sample : Option Nat)
  /-- a chain end's entry is written -/
  | accPut (arr entry : Nat) (lanes : List Lane)
  /-- the cells of an array meet cases for the first time in a lane of a row (R114): array, tile row and column, and the counts of 0x0401, 0x0402
  and 0x0405 -/
  | cases (gb arr row col inv ovf int : Nat)
  /-- the watch array found a mismatch (R298) -/
  | watchBad (arr modeO row lane trow tcol : Nat) (y : Lane) (z : Nat)
  | orow (f : ArraySlot) (xs dys : List Nat) (scs : List Nat)
  | odrain (f : ArraySlot) (off : Nat)
  /-- the ADRAIN issued in beat `b` reads entry E + i (R99) -/
  | drainRead (f : ArraySlot) (i tp int : Nat) (base sd : Nat) (xv : Word) (b : Nat)
  /-- the ADRAIN issued in beat `b` reads a token-scale line (R99) -/
  | drainScales (gb off n b : Nat)
  | statRead (f : ArraySlot)
  | statClear (gb : Nat)
  /-- ADRAIN over entries whose tags differ raises its fault in array cycle b + 4 (R99) -/
  | fail (code : Nat)
  /-- a vector operation's cases reach the room status: VFLAGS bits and the five counts (R115) -/
  | vcount (flags : Nat) (counts : List Nat)
  deriving DecidableEq, Repr

/-- A pending result or action: its beat, its order within the beat (0 register and status, 1 reads, 2 writes at the beat's end), the
beat its bundle issued, the port it reaches, which scheduled access of that bundle feeds it (0 none; R86), and whether a collision has taken its effect
away (R95), in which case it still holds its place at the port and the register. -/
structure Micro where
  due : Nat
  ord : Nat
  issued : Nat
  port : Port
  op : MicroOp
  src : Nat := 0
  dead : Bool := false
  deriving DecidableEq, Repr

/-- A bank that a scheduled access takes (R86): the beat, the bank, and the access, by its bundle's issue beat and its number in the bundle. -/
structure BankUse where
  beat : Nat
  bank : Nat
  issued : Nat
  src : Nat
  deriving DecidableEq, Repr

/-- The elastic operations of the move engine (Table 4.8), and those that end at once (R104) as success or with a fault. -/
inductive ElasticKind where
  | mload
  | mstore
  | mroom
  | matom
  | mgather
  | mscatter
  | msend
  | mrecv
  | mreduce
  | mfence
  | mpref
  | done (code : Nat) (parts : Nat)
  deriving DecidableEq, Repr

/-- One elastic operation in issue order (R103): its slot fields and the register values it read in its issue cycle. -/
structure Elastic where
  kind : ElasticKind
  f : MoveSlot
  issued : Nat
  src : Nat
  dst : Nat
  len : Nat
  par : Word
  shape : Word
  /-- first fault met so far and the bitmap of failed parts (R107) -/
  fault : Nat := 0
  parts : Nat := 0
  /-- accepted by the unit that serves it, with the number it waits on (rows, transfers, slices, shares) -/
  accepted : Bool := false
  left : Nat := 0
  /-- its last line waits in the staging buffer for a free cycle of its bank (R87) -/
  staged : Bool := false
  deriving DecidableEq, Repr

/-- What a room's sequencer is doing: no program, waiting for its program fill, running, held by a WAIT, past its PEND, halted for the step, stopped. -/
inductive RunState where
  | idle
  | filling
  | running
  | held
  | ended
  | halted
  | stopped
  deriving DecidableEq, Repr

/-- The WAIT that holds a room: its token, issue cycle w, deadline e = a + D, failure policy CF, and bundle address. -/
structure Hold where
  tk : Nat
  w : Nat
  e : Nat
  cf : Nat
  bundle : Nat
  deriving DecidableEq, Repr

/-- The watch array of a room (R78, R296): its role, counters c and p, and the mode O pass it follows. -/
structure WatchArray where
  /-- physical array 32 stands in as a spare for a failed array, so the room has no watch array (R78) -/
  isSpare : Bool := false
  cnt : Nat := 0
  passes : Nat := 0
  /-- the array and plane of the pass it follows, the rows seen, and binary64 sums and sums of magnitudes of its 64 cells -/
  following : Option (Nat × Nat) := none
  rows : Nat := 0
  wide : List (Nat × Nat) := []
  /-- UPD_WATCH_CTL as taken at the phase start -/
  ctl : Word := 0
  deriving DecidableEq, Repr

/-- One logical room. -/
structure Room where
  floor : Nat := 0
  pos : Nat := 0
  run : RunState := .idle
  /-- the beat in which it stopped -/
  stopBeat : Nat := 0
  /-- bundle buffer (R90): 256-bit bundles by address, and the program's length -/
  buffer : List (Nat × BitVec 256) := []
  progLen : Nat := 0
  /-- the next bundle's address, the issued bundle's address, and the beat the next bundle may issue -/
  addr : Nat := 0
  cur : Nat := 0
  resumeAt : Nat := 0
  hold : Option Hold := none
  synced : Bool := false
  /-- the step and phase whose program runs, the beat of its release, and a phase released while the program still runs -/
  step : Nat := 0
  phase : Nat := 0
  phaseStart : Nat := 0
  waiting : Option (Nat × Nat) := none
  /-- the turn in which the room is resident (R138) -/
  turn : Nat := 0
  /-- the phase whose program the running fill copies, the cycle in which it ends, and whether it has ended (R126) -/
  fillPhase : Nat := 0
  fillEnd : Nat := 0
  filled : Bool := false
  lateCycles : Nat := 0
  lateWaits : Nat := 0
  lateMax : Nat := 0
  firstLate : Word := 0
  v : List (Nat × Lane) := []
  a : List (Nat × Word) := []
  x : List (Nat × Word) := []
  toks : List (Nat × Token) := []
  micro : List Micro := []
  /-- banks taken by scheduled accesses, and (cycle, bank) of those that elastic lines took (R86, R87) -/
  banks : List BankUse := []
  ebanks : List (Nat × Nat) := []
  iterBusy : Nat := 0
  sfuBusy : Nat := 0
  /-- VFLAGS and the counts VINVALID, VDIVIDE, VOVERFLOW, VINTRANGE, VCONVERT (Table 4.13) -/
  vflags : Nat := 0
  vcounts : List Nat := [0, 0, 0, 0, 0]
  arrays : List (Nat × ArrayUnit) := []
  gangs : List (Nat × Gang) := []
  /-- token scales that an INT32 drain has read so far, by the drain's issue beat -/
  drainTok : List (Nat × List Byte) := []
  watch : WatchArray := {}
  /-- slices drained to the reduction path and not yet taken by the collective (R74, R100) -/
  slices : List (List Lane) := []
  ops : List Elastic := []
  deriving DecidableEq, Repr

/-! ### Numeric cases (R60, R61) -/

/-- Counts of the cases met: 0x0401, 0x0402, 0x0405, 0x0404 and 0x0403. A case's sticky flag is its count being above 0. -/
structure CaseCounts where
  inv : Nat := 0
  ovf : Nat := 0
  int : Nat := 0
  sat : Nat := 0
  nfe : Nat := 0
  deriving DecidableEq, Repr

/-! ### The event recorder (chapter 17) -/

/-- A record submitted to the event recorder (R437, R438): its type, code and unit, the fabric time and step, and the
items of its body as (value, bytes). -/
structure EvRec where
  ty : Nat
  code : Nat
  unit : Nat
  ftime : Nat
  step : Nat
  body : List (Nat × Nat)
  deriving DecidableEq, Repr

/-- A snapshot being read (R442): its trigger, fabric time of the firing, and the values read so far. -/
structure Snapshot where
  trig : Nat
  ftime : Nat
  vals : List Word
  deriving DecidableEq, Repr

/-- The event recorder: submission queue, ring bytes, records lost since the last LOST record, records written, laps,
and snapshots in progress (R437 to R442). -/
structure Evr where
  queue : List EvRec := []
  ring : List (Nat × Byte) := []
  lost : Nat := 0
  rseq : Nat := 0
  lap : Nat := 0
  snaps : List Snapshot := []
  deriving DecidableEq, Repr

/-- Interrupt controller state beside its registers (R431 to R436): the targets' stacks of (source, priority), the
conditions of Table 17.2 that hold "since last read", the software levels that are high, and the cycle in which each group's hold-off ends. -/
structure Irq where
  served : List (Nat × List (Nat × Nat)) := []
  latched : List Nat := []
  sw : List Nat := []
  hold : List (Nat × Nat) := []
  deriving DecidableEq, Repr

/-- One check-value channel beside its registers (R445): the running value, and of the computation in progress the bytes to read, the cycle of its end
at the earliest, and POLY, INIT, XOR, CFG, FOLD and ADDR as the GO found them. -/
structure CvuCh where
  running : Nat := 0
  todo : Nat := 0
  ends : Nat := 0
  set : List Word := []
  deriving DecidableEq, Repr

/-- The management processor and the freeze unit (R427 to R430, R447 to R449): watchdog counts (the end cycle of a
running count, the count left of one that stands still), fabric times of recent warm
restarts, cores held in reset, the cycle a freeze took effect, and the scan chain selected. -/
structure Mgmt where
  wdog : List (Nat × Nat) := []
  restarts : List Nat := []
  frozen : Option Nat := none
  scanSel : Option Nat := none
  keysZeroed : Bool := false
  /-- the module reported a module failure (R16), by code -/
  failed : Option Nat := none
  /-- the input hot-swap stage is closed (R478); the last start-up stage that ended (Table 18.8); the module stays off; it is in service mode (R467),
  and FREEZE_N is ignored until the next power-on reset (R481) -/
  present : Bool := false
  stage : Nat := 0
  dead : Bool := false
  service : Bool := false
  freezeIgnored : Bool := false
  /-- the main domains were switched off and wait for V54 below 40 V (1) or then above 48 V (2), or do not wait (0) (R454); THERMTRIP_N is low (R482) -/
  lockout : Nat := 0
  trip : Bool := false
  /-- successive 100 µs samples of V54 below 48 V and above 58 V, and of input power above 5,000 W -/
  low : Nat := 0
  high : Nat := 0
  above : Nat := 0
  deriving DecidableEq, Repr

/-! ### The stretch policy (R456, R459) -/

/-- The variables of R459; what was seen since the last commit release (a critical floor, a hot floor or cellar, power over budget, a condition that
is not cool); and the cycle of each floor's last write of PWR_FLOORf.NEXT (R474). -/
structure Policy where
  auto : Nat := 0
  lastK : Nat := 0
  quiet : Nat := 0
  since : Nat := 0
  other : Nat := 0
  crit : Bool := false
  hot : Bool := false
  warm : Bool := false
  nextAt : List (Nat × Nat) := []
  deriving DecidableEq, Repr

/-! ### Schedule sequencing (chapter 5) -/

/-- A phase table entry (Table 5.3). -/
structure PhaseEnt where
  startSync : Nat
  endSync : Nat
  p : Nat
  traffic : Nat
  freeBanks : Nat
  mMax : Nat
  waitLimit : Nat
  gap : Nat
  dir : Nat
  deriving DecidableEq, Repr

/-- A sync table entry (Table 5.4). An empty member list names every logical room in scope. -/
structure SyncEnt where
  id : Nat
  scope : Nat
  policy : Nat
  role : Nat
  floor : Nat
  fanin : Nat
  theta : Nat
  members : List Nat
  deriving DecidableEq, Repr

/-- A program-directory entry (Table 5.2): bundle offset, bundle count, register-initialisation record. -/
structure DirEnt where
  off : Nat
  cnt : Nat
  init : Nat
  deriving DecidableEq, Repr

/-- A group entry of section 8 (Table 12.1). -/
structure GroupEnt where
  n1 : Nat
  n2 : Nat
  base : Nat
  s1 : Nat
  s2 : Nat
  deriving DecidableEq, Repr

/-- A count table of section 8 (R304); its counts are those of R303. -/
structure CountTab where
  id : Nat
  kind : Nat
  group : Nat
  q : Nat
  deriving DecidableEq, Repr

/-- A loaded schedule image (Tables 5.1 to 5.4). -/
structure Image where
  modules : Nat := 0
  lrooms : Nat := 0
  turnsMax : Nat := 1
  switchTime : Nat := 0
  marginE : Nat := 0
  marginP : Nat := 0
  barrierLimit : Nat := 0
  roomMap : List Nat := []
  phases : List PhaseEnt := []
  syncs : List SyncEnt := []
  dirs : List DirEnt := []
  inits : List (List (Nat × Word)) := []
  live : List (Nat × Nat) := []
  streams : List (Nat × Int) := []
  groups : List GroupEnt := []
  counts : List CountTab := []
  programs : List (Nat × BitVec 256) := []
  /-- sections 3 to 6, one after another, as each floor gets a copy (R126) -/
  copy : List Byte := []
  /-- the image's digest (R124), and U and B of R307 -/
  digest : List Byte := []
  microBatches : Nat := 0
  positions : Nat := 0
  deriving DecidableEq, Repr

/-- A migration proposal or plan entry (R235, R236), with the rank that proposed it. -/
structure Proposal where
  table : Nat
  row : Nat
  target : Nat
  source : Nat
  deriving DecidableEq, Repr

/-- What a subtree's arrival at a barrier carries (R122, R137, R228, R229, R236): the largest stretch request and turn
count, the agreed switch pair, the AND of DRAINED, the merged proposals, and the ranks it stands for. -/
structure Arrival where
  req : Nat := 0
  tau : Nat := 1
  sw : Option (Nat × Nat) := none
  drained : Bool := true
  props : List Proposal := []
  ranks : List Nat := []
  /-- the replay bound that a restored step's start barrier compares (R346) -/
  until_ : Nat := 0
  deriving DecidableEq, Repr

/-- A barrier's release notice (R129, R131): the release cycle, absent ranks, and the agreed results. -/
structure Notice where
  sync : Nat
  release : Nat
  absent : List Nat := []
  k : Nat := 0
  tau : Nat := 1
  sw : Option (Nat × Nat) := none
  drained : Bool := false
  plan : List Proposal := []
  deriving DecidableEq, Repr

/-- The barrier in progress: children's arrivals, this module's own arrival cycle, whether its subtree's arrival was
forwarded, the root's completion cycle, and the notice once it is known. -/
structure Barrier where
  children : List (Nat × Arrival) := []
  own : Option Nat := none
  forwarded : Option Arrival := none
  rootAt : Option Nat := none
  notice : Option Notice := none
  /-- released here, while rooms of an absent module still run its phase (R131) -/
  released : Bool := false
  deriving DecidableEq, Repr

/-- An abort (R132): its fault code, the rank it came from, and the stop cycle once named. -/
structure Abort where
  code : Nat
  origin : Nat
  stop : Option Nat := none
  /-- passed on in the commit barrier's tree -/
  sent : Bool := false
  deriving DecidableEq, Repr

/-- A running-maximum stream (R50): latched exponent, the largest magnitude converted in the step, and whether it converts to E5M2. -/
structure Stream where
  x : Int := 0
  m : Lane := 0
  e5 : Bool := false
  deriving DecidableEq, Repr

/-- A room's lateness counters as it reports them (R111): LATE_CYCLES, LATE_WAITS, LATE_MAX, FIRST_LATE. -/
structure LateReport where
  cycles : Nat := 0
  waits : Nat := 0
  max : Nat := 0
  first : Word := 0
  deriving DecidableEq, Repr

/-- The sequence and barrier unit's progress through a step. -/
structure Seq where
  image : Image := {}
  /-- the sync point awaited, its planned release once known, and the phase that follows it -/
  sync : Nat := 0
  tPlan : Option Nat := none
  next : Nat := 0
  /-- index of the phase in progress, whether it has started, the turn resident, the turns done in the phase, and T_start -/
  phase : Nat := 0
  inPhase : Bool := false
  turn : Nat := 0
  turnsDone : Nat := 0
  tStart : Nat := 0
  /-- release of the step's start barrier, the origin of beats (R121) -/
  t0 : Nat := 0
  /-- logical rooms arrived at the sync point awaited, with the last arrival's cycle -/
  arrived : List Nat := []
  lastArrival : Nat := 0
  barrier : Barrier := {}
  /-- barrier transfers acted on by arrival at their barrier, which may come before this module reaches it -/
  early : List Transfer := []
  abort : Option Abort := none
  /-- the step stopped; nothing issues until a load or restore -/
  stopped : Bool := false
  streams : List (Nat × Stream) := []
  /-- fabric time since which the offset has stayed outside ±1.5 ns (R119) -/
  outSince : Option Nat := none
  everLocked : Bool := false
  /-- the module count of the job, as JOB_LOAD names it (R125) -/
  jobModules : Nat := 1
  /-- turn count agreed for the next start barrier (R137) -/
  tauNext : Nat := 1
  /-- active positions that failed, as floor × 256 + position (R136) -/
  failedRooms : List Nat := []
  /-- the lateness counters that rooms have reported at their SYNC (R111) -/
  reports : List (Nat × LateReport) := []
  deriving DecidableEq, Repr

/-! ### Cellars (chapters 6 and 7) -/

/-- A retrain in progress (R179 to R184): its reason (0 periodic, 1 drift, 2 firmware), the cycle it began, and the state
the channel held before. -/
structure Retrain where
  kind : Nat
  start : Nat
  prior : Nat
  deriving DecidableEq, Repr

/-- One channel beside its registers: end of its last training, the retrain in progress, lines poisoned by scrub, and the cycle of
its last scrub read. -/
structure Chan where
  lastTrain : Nat := 0
  retrain : Option Retrain := none
  scrubPoison : Nat := 0
  lastScrub : Nat := 0
  deriving DecidableEq, Repr

/-- A pack descriptor (Table 6.5). -/
structure PackDesc where
  slots : Nat
  blocks : Nat
  scode : Nat
  pool : Nat
  pslots : Nat
  map : Nat
  deriving DecidableEq, Repr

/-- A packed block that its home cellar holds unpacked (R162): its descriptor and index, its 4,096 logical bytes, and whether they
differ from the slot. -/
structure PackBlk where
  desc : PackDesc
  j : Nat
  data : List (Nat × Byte) := []
  dirty : Bool := false
  deriving DecidableEq, Repr

/-- The cellars: the live channels (cellar × 32 + channel) in ascending global key (R171, R172); channels; held lines with the
commit barriers they may still pass (R147); floating moves accepted and not finished (R154); packed blocks held unpacked, by slot
address (R162), and the allocations with the PACK attribute, whose first 64 B are their pack descriptors (R157, log 150); the cycle in which the floating
move's last granule was complete (R154); ranges of device memory that
allocations other than floating ones take, as (address, bytes) (R153); the last sync-point release with the floors that took part, whether a
periodic retrain began since (R179). -/
structure Cellars where
  live : List Nat := []
  chans : List (Nat × Chan) := []
  held : List (Nat × Nat) := []
  moves : List Nat := []
  packs : List (Nat × Option PackBlk) := []
  packed : List Nat := []
  moveAt : Nat := 0
  allocs : List (Nat × Nat) := []
  relAt : Option Nat := none
  relFloors : List Nat := []
  periodicUsed : Bool := false
  deriving DecidableEq, Repr

/-! ### Configuration and security (chapter 18) -/

/-- A repair action that waits for a restore (R423): an array, a room, or a channel; floor × 256 + position, or cellar × 32 + channel. -/
inductive Repair where
  | array (room arr : Nat)
  | room (room : Nat)
  | channel (id : Nat)
  deriving DecidableEq, Repr

/-- The flash, and the configuration and repair parts loaded from it (R460 to R464). -/
structure Sec where
  flash : List (Nat × Byte) := []
  conf : List (Nat × Byte) := []
  rep : List (Nat × Byte) := []
  /-- the seed S in key storage (R468) -/
  seed : Option (List Byte) := none
  /-- repair actions pending (R423), faults that may become one as (code, unit, fabric time), and whether the repair map in memory is newer than flash -/
  pendRep : List Repair := []
  marks : List (Nat × Nat × Nat) := []
  repNew : Bool := false
  deriving DecidableEq, Repr

/-! ### The replay journal (chapter 13) -/

/-- A record read from the replay ring (R346): its type, step and bytes. -/
structure RepRec where
  ty : Nat
  step : Nat
  bs : List Byte
  deriving DecidableEq, Repr

/-- The journal beside its registers: (STEP, SEQ) of the ROW_FAILED and BATCH records written (R341), and the records that the replay in
progress has read. -/
structure Jrnl where
  perRank : List (Nat × Nat) := []
  read : List RepRec := []
  /-- the rank and the largest STEP of the COMMIT records written under it (R345) -/
  lastCommit : Option (Nat × Nat) := none
  deriving DecidableEq, Repr

/-! ### Links and transfers (chapter 14) -/

/-- One Nimfeol link beside its registers: flits sent and acknowledged, the cycle of the last acknowledgement, the flit last replayed and how
often, the credits of the three classes, flits received, a NAK awaiting its replay, and the cycle until which it pauses. -/
structure Link where
  sent : Nat := 0
  acked : Nat := 0
  lastAck : Nat := 0
  replaySeq : Nat := 0
  replays : Nat := 0
  cr0 : Nat := 0
  cr1 : Nat := 0
  cr2 : Nat := 0
  received : Nat := 0
  nakOut : Bool := false
  pause : Nat := 0
  deriving DecidableEq, Repr

/-- A transfer that its source has not seen acknowledged (R358): the link it goes out on, flits still to send, first and last send, sends so
far, the room and token of an MSEND, and whether it waits for an XID. -/
structure Xfer where
  t : Transfer
  link : Nat := 0
  unsent : Nat := 0
  firstSent : Nat := 0
  lastSent : Nat := 0
  tries : Nat := 0
  owner : Option (Nat × Nat) := none
  /-- the link that a barrier transfer is sent on (R365) -/
  via : Option Nat := none
  waiting : Bool := false
  deriving DecidableEq, Repr

/-- What a destination keeps of a completed transfer (R358). -/
structure DoneXfer where
  srank : Nat
  sfloor : Nat
  xid : Nat
  status : Nat
  expiry : Nat
  deriving DecidableEq, Repr

/-- A transfer some of whose flits have arrived (R356): its ends and the flits by index. -/
structure PartXfer where
  srank : Nat
  sfloor : Nat
  dfloor : Nat
  xid : Nat
  flits : List (Nat × List Byte) := []
  deriving DecidableEq, Repr

/-- An armed receive slot (R361): the room and token that armed it, its descriptor, and the cycle it was armed in. -/
structure RecvSlot where
  room : Nat
  tk : Nat
  dev : Bool
  srank : Nat
  dfmt : Nat
  dst : Nat
  len : Nat
  at_ : Nat
  deriving DecidableEq, Repr

/-- Fabric time's transfer (R366 to R368): the last exchange and the last valid one, and successive failures. -/
structure TimeSync where
  lastExchange : Nat := 0
  lastGood : Nat := 0
  fails : Nat := 0
  /-- the count was set from the time link, which happens once -/
  counted : Bool := false
  /-- whether the reference inputs are within tolerance (R479) -/
  refIn : Bool := false
  deriving DecidableEq, Repr

/-- The fabric beside its registers: links; transfers out; XIDs in use by floor × 2^14 + XID with the cycle in which each is free; completed and
partly received transfers; armed slots by floor × 4096 + slot; whether FOREIGN_FRAME was recorded in the step; barrier transfers acted on, as
(SRANK, SUB, SYNC, STEP). -/
structure Fab where
  links : List (Nat × Link) := []
  out : List Xfer := []
  xids : List (Nat × Nat) := []
  done : List DoneXfer := []
  parts : List PartXfer := []
  slots : List (Nat × Option RecvSlot) := []
  foreign : Bool := false
  barriers : List (Nat × Nat × Nat × Nat) := []
  acks : List (Nat × Nat × Nat × Nat) := []
  /-- transfers that have arrived whole and wait for lines of a channel that retrains (R180), oldest first -/
  held : List Transfer := []
  time : TimeSync := {}
  deriving DecidableEq, Repr

/-! ### The attic and the checkpoint engine (chapter 16) -/

/-- An attic record (Table 16.4): its header's fields but for LEN and CHECK, and its payload. -/
structure AttRec where
  ty : Nat
  flags : Nat := 0
  epoch : Nat
  step : Nat
  id : Nat
  rank : Nat
  off : Nat := 0
  base : Nat := 0
  body : List Byte
  deriving DecidableEq, Repr

/-- A chunk of a row shard that the epoch in progress owes (R407): its address and length, its table, and its offset in the shard. -/
structure Owed where
  addr : Nat
  len : Nat
  table : Nat
  off : Nat
  deriving DecidableEq, Repr

/-- An epoch that the attic holds (R413, R420): its number, captured step, rank, whether it is full, the full epoch it builds on, its records,
and whether its replica was consumed. -/
structure Epoch where
  num : Nat
  step : Nat
  rank : Nat
  full : Bool
  base : Nat
  recs : List AttRec
  pos : Nat := 0
  replica : Bool := false
  deriving DecidableEq, Repr

/-- A row pending restore (R421): the table, the row, and the step in which it failed. -/
structure PendRow where
  table : Nat
  row : Nat
  step : Nat
  deriving DecidableEq, Repr

/-- One attic drive beside its registers: an adopted member of the array, the fabric times of recent command timeouts, whether it raised
ATTIC_WEAR. -/
structure Drive where
  member : Bool := false
  lost : Bool := false
  timeouts : List Nat := []
  worn : Bool := false
  serial : Nat := 0
  deriving DecidableEq, Repr

/-- The checkpoint engine beside its registers: chunks of row shards marked dirty, by address (R407); tables owed whole because their CURRENT slot
changed or their last capture failed; chunks that the epoch in progress owes and has not captured, the pre-write forms handed over, by address
(R408); the epoch's records captured so far; whether its shadow and dense copies are done and whether it is full; epochs held, oldest first; rows
pending restore; drives; bytes of the export ring already placed for each record consumed (EPOCH_END records as (end, epoch)). -/
structure Attic where
  dirty : List Nat := []
  whole : List Nat := []
  owed : List Owed := []
  patches : List (Nat × List Byte) := []
  recs : List AttRec := []
  captured : Nat := 0
  full : Bool := false
  shadowDone : Bool := false
  denseDone : Bool := false
  epochs : List Epoch := []
  /-- imported records whose EPOCH_END has not come (R420) -/
  imports : List AttRec := []
  /-- the array address at which the ring's next record goes (R413) -/
  ringHead : Nat := 0
  pend : List PendRow := []
  drives : List (Nat × Drive) := []
  exported : List (Nat × Nat) := []
  /-- entries in each drive's completion queues, by 16 × drive + queue (Table 17.2) -/
  cqs : List (Nat × Nat) := []
  /-- an epoch is in progress; its records placed in the export ring so far; 4 KiB units ever placed there and ever consumed -/
  active : Bool := false
  placed : Nat := 0
  expPlaced : Nat := 0
  expTaken : Nat := 0
  scrubAt : Nat := 0
  deriving DecidableEq, Repr

/-! ### Dense updates (chapter 11) -/

/-- A dense tensor in the step (R281 to R283): collectives that have delivered their last slice, whether its state was opened, completed and written;
the owned elements that received a slice; the gradients held in block buffers, by block × 16,384 + element; the blocks processed. -/
structure DenseTensor where
  colls : Nat := 0
  opened : Bool := false
  complete : Bool := false
  written : Bool := false
  got : List Nat := []
  grads : List (Nat × Lane) := []
  blocks : List Nat := []
  deriving DecidableEq, Repr

/-- A block whose gradient is whole, waiting for the block unit: the tensor, the block, and since when. -/
structure ReadyBlock where
  tensor : Nat
  blk : Nat
  since : Nat
  deriving DecidableEq, Repr

/-- A floor's update engine in the step: its tensors, blocks ready, the cycle in which the block unit was last done, when it became busy, and what
UPD_STAT and UPD_TIME will show. -/
structure DenseUnit where
  tensors : List (Nat × DenseTensor) := []
  ready : List ReadyBlock := []
  /-- blocks of complete tensors that no slice reached and that wait for a block buffer (R283) -/
  unfed : List ReadyBlock := []
  blkFree : Nat := 0
  busyFrom : Option Nat := none
  elements : Nat := 0
  blocks : Nat := 0
  bufWait : Nat := 0
  deriving DecidableEq, Repr

/-- A reduced slice on its way to a floor's update engine (R281): the cycle from which it is there, its tensor and coordinates, its values, whether it
is the last of its collective (numbered `cid`), and since when it waits for a block buffer. -/
structure Delivery where
  cid : Nat
  floor : Nat
  at_ : Nat
  tensor : Nat
  i : Nat
  j : Nat
  lg : Nat
  vals : List Lane
  last : Bool
  waitFrom : Option Nat := none
  deriving DecidableEq, Repr

/-- The update engines: the units, slices on their way, and the parameter blocks as read at the step's start barrier, by address (R280). -/
structure Dense where
  units : List (Nat × DenseUnit) := []
  params : List (Nat × List Byte) := []
  queue : List Delivery := []
  deriving DecidableEq, Repr

/-! ### Collectives (chapter 12) -/

/-- A collective that a room has bound or armed (R316, R317): the room, token and floor; the descriptor's fields; the members and this module's
position; the slices taken from the room's reduction path; the frames received as (round, position, step stamp, exponent, data) and not yet used;
rounds done; and the sums formed so far by slice number. -/
structure Coll where
  room : Nat
  tk : Nat
  floor : Nat
  kind : Nat
  tensor : Nat
  group : Nat
  counts : Nat
  wire : Nat
  dest : Nat
  blk : Nat
  unit : Nat
  src : Nat
  dst : Nat
  nslices : Nat
  close : Nat
  stream : Nat
  foldRanks : Nat
  slices : List (Nat × Nat × Nat)
  members : List Nat
  pos : Nat
  step : Nat
  own : List (List Lane) := []
  frames : List (Nat × Nat × Nat × Int × List Byte) := []
  sent : List Nat := []
  used : List Nat := []
  /-- its close barrier has released (RS_DIRECT) -/
  closed : Bool := false
  deriving DecidableEq, Repr

/-- A partial of an RS_DIRECT at its owner (R318, R323): the collective it belongs to by tensor and group, the position and rank it came from, its
origin step, wire format, exponent and data. -/
structure Partial where
  floor : Nat
  tensor : Nat
  group : Nat
  pos : Nat
  rank : Nat
  origin : Nat
  counts : Nat := 0
  nslices : Nat := 0
  wire : Nat
  exp : Int
  data : List Byte
  deriving DecidableEq, Repr

/-- What a release decided of an RS_DIRECT (R323, R325): the floor, tensor, group and step, the absent ranks, and the ranks of the positions beyond
FOLD_RANKS. -/
structure DirectDecision where
  floor : Nat
  tensor : Nat
  group : Nat
  step : Nat
  absent : List Nat
  beyond : List Nat
  deriving DecidableEq, Repr

/-- The collectives: those in progress; COLLECTIVE transfers that came before their member was bound or armed; partials held at owners; what the last releases
decided of RS_DIRECT partials; and the count of dropped partials (log 153). -/
structure Colls where
  live : List Coll := []
  early : List Transfer := []
  partials : List Partial := []
  decided : List DirectDecision := []
  dropped : Nat := 0
  deriving DecidableEq, Repr

/-! ### The Larders (chapters 8 and 9) -/

/-- How a row of a gather will come: a home row by a read at an address, a row that a prefetch brings, or a remote row under an own context. -/
inductive RowVia where
  | home (addr : Nat)
  | copy
  | remote (rank : Nat)
  deriving DecidableEq, Repr

/-- A row of a gather that is not yet written: its number in the request, unique slot, row index, and whether its read has issued (or its entry
was shipped). -/
structure RowJob where
  i : Nat
  row : Nat
  via : RowVia
  issued : Bool := false
  deriving DecidableEq, Repr

/-- A gather at the Larder, in arrival order (R194, R200): the room and token, the descriptor's fields, the version and slot bound, and the rows
not yet written. -/
structure Gather where
  room : Nat
  tk : Nat
  prep : Nat
  table : Nat
  first : Nat
  count : Nat
  dst : Nat
  mask : Option Nat
  pitch : Nat
  eval : Bool
  version : Nat
  slot : Nat
  rows : List RowJob
  deriving DecidableEq, Repr

/-- What an own context waits for (R199, R243): a row of a gather, or a row of a prefetch. -/
inductive CtxUse where
  | gather (room tk i : Nat)
  | prefetch (list slot : Nat)
  deriving DecidableEq, Repr

/-- A row read for another module's index block (R203). -/
structure ServeRow where
  ctx : Nat
  row : Nat
  addr : Option Nat
  issued : Bool := false
  read : Option (Bool × List Byte) := none
  deriving DecidableEq, Repr

/-- An index block being served: its header's bytes, and its rows in entry order. -/
structure Serve where
  rank : Nat
  floor : Nat
  header : List Byte
  table : Nat
  rows : List ServeRow
  deriving DecidableEq, Repr

/-- A prefetch submission (R241 to R243): the prepared list, its buffer, table and step, and the unique slots not yet taken. -/
structure Prefetch where
  list : Nat
  buf : Nat
  table : Nat
  step : Nat
  homeTodo : List Nat := []
  remoteTodo : List Nat := []
  started : Bool := false
  /-- rows shipped whose reply has not come -/
  flying : Nat := 0
  deriving DecidableEq, Repr

/-- One Larder: preparations as (list, output, cycle submitted), gathers, own contexts, blocks served, prefetches, read slots owed and whose turn it
is, load counters by tracked entry (HOME, REMOTE, SERVED), and the hot-row tracker as (table, row, count, error). -/
structure Larder where
  preps : List (Nat × Nat × Nat) := []
  gathers : List Gather := []
  ctxs : List (Nat × Option CtxUse) := []
  serves : List Serve := []
  prefetches : List Prefetch := []
  owed : Nat := 0
  turn : Nat := 0
  loads : List (Nat × (Nat × Nat × Nat)) := []
  tracker : List (Nat × Nat × Nat × Nat) := []
  deriving DecidableEq, Repr

/-- A migration plan entry as this module applied it (R237): the row, its old and new home, whether it was accepted,
and whether its copy was sent. -/
structure PlanRow where
  table : Nat
  row : Nat
  source : Nat
  target : Nat
  accepted : Bool
  /-- the address of the row here when it leaves, and of its new slot when it comes (0 otherwise) -/
  from_ : Nat := 0
  to_ : Nat := 0
  sent : Bool := false
  deriving DecidableEq, Repr

/-- A row update that takes effect at the commit release (R26, R210): the cellar, table and row, its stored bytes and where they go. -/
structure RowWrite where
  cellar : Nat
  table : Nat
  row : Nat
  addr : Nat
  bs : List Byte
  deriving DecidableEq, Repr

/-- A switch that took effect: the table, and the step whose commit applied it (R231). -/
structure SwitchDone where
  table : Nat
  step : Nat
  deriving DecidableEq, Repr

/-- What the Larders share: Larders by floor; the failed rows of the step as (table, row) and those entered in the restore queue (R211, R215);
the standing switch request (R228); the RETIRING slots at the commit arrival as (table, slot) (R229); the plan in force and the overlay, census and slot
changes staged by it as (address, bytes) (R237); the cycle in which the close barrier released in the step, with the absent ranks (R210, R322); switches that took effect; cellars whose update is done;
row writes staged to the commit; tables whose rows a cellar holds until the commit release, as (cellar, table) (R291); null rows and discards already recorded in the step; update
occurrences by code (R293); the LDR_TRACK registers in force (R233). -/
structure Larders where
  units : List (Nat × Larder) := []
  failed : List (Nat × Nat) := []
  queued : List (Nat × Nat) := []
  switch : Option (Nat × Nat) := none
  retiring : List (Nat × Nat) := []
  plan : List PlanRow := []
  staged : List (Nat × List Byte) := []
  closed : Option Nat := none
  closeAbsent : List Nat := []
  switched : List SwitchDone := []
  /-- the last release that freed version slots, and those slots as (table, slot) (R229, R245) -/
  freedAt : Nat := 0
  freed : List (Nat × Nat) := []
  /-- the ranks absent at the last close releases, by step (R323) -/
  absents : List (Nat × List Nat) := []
  cellarsDone : List Nat := []
  writes : List RowWrite := []
  held : List (Nat × Nat) := []
  nullSeen : List Nat := []
  discardSeen : List Nat := []
  events : List (Nat × (Nat × Nat × Nat) × EvRec) := []
  track : List (Nat × Word) := []
  /-- bits set in the presence filter (R224) -/
  filter : List Nat := []
  deriving DecidableEq, Repr

/-! ### The job (chapters 6 and 15) -/

/-- An entry of the job's allocation table as placed (R400). -/
structure Alloc where
  id : Nat
  flag : Nat
  attr : Nat
  wh : Nat
  len : Nat
  off : Nat
  addr : Nat
  deriving DecidableEq, Repr

/-- The job: whether one is loaded, its allocation table's address and entries, the step a restore makes it start from, the swap slot that holds each
logical room not resident (R138), the copy of sections 3 to 6 on each floor (R126), the granted size of each spill part by allocation (R255), and the
LOG_TOTAL that firmware last read in each room's pantry descriptor (R261). -/
structure Job where
  loaded : Bool := false
  table : Nat := 0
  allocs : List Alloc := []
  first : Nat := 0
  restored : Bool := false
  swaps : List (Nat × Nat) := []
  copies : List (Nat × Nat) := []
  grants : List (Nat × Nat) := []
  dropsRead : List (Nat × Nat) := []
  deriving DecidableEq, Repr

/-! ### The Porch and host sessions (chapters 14 and 15) -/

/-- A RoCE queue pair (Table 14.8, R372): its session slot and port; the open block's path MTU code, ACK timeout exponent, retry count, host QPN,
PSN and GID; its own start PSN; whether it is in the error state; the retries used and the last send of an unacknowledged request; an RNR retry
armed; the rate R, target T, weight α and count c, with the cycle the rate timer last ran; and the cycle of its last CNP sent. -/
structure Qp where
  slot : Nat
  port : Nat
  mtu : Nat
  texp : Nat
  retry : Nat
  hostQpn : Nat
  hostPsn : Nat
  gid : List Byte
  psn : Nat
  err : Bool := false
  tries : Nat := 0
  sentAt : Option Nat := none
  rnr : Bool := false
  rate : Rat := 800000
  target : Rat := 800000
  alpha : Rat := 1
  cnt : Nat := 0
  ccAt : Nat := 0
  cnpAt : Option Nat := none
  deriving DecidableEq, Repr

/-- A registered host region (R380). -/
structure Region where
  host : Nat
  len : Nat
  rkey : Nat
  purpose : Nat
  deriving DecidableEq, Repr

/-- A session slot beside its registers: its QPs in order, regions, notices being written to the host as (NSEQ, first write acknowledged), and the
parts its feeder has had accepted as (staging slot, step). -/
structure Session where
  qps : List Nat := []
  regions : List Region := []
  writes : List (Nat × Bool) := []
  accepted : List (Nat × Nat) := []
  deriving DecidableEq, Repr

/-- A Letterbox queue beside its registers: the command it executes; the re-reads done of a torn slot with the cycle of the last read; the directory
entry at which an accepted BATCH goes on (R388); and whether the queue is freed once its command completes (R381). -/
structure Queue where
  cmd : Option (List Byte) := none
  torn : Option (Nat × Nat) := none
  next : Option Nat := none
  freeing : Bool := false
  deriving DecidableEq, Repr

/-- A Porch port beside its registers: traffic of its PFC priority paused; the MACsec association in use; MACSEC_NO_KEY raised; frames dropped that
no register counts. -/
structure PorchPort where
  paused : Bool := false
  sa : Nat := 0
  noKey : Bool := false
  dropped : Nat := 0
  deriving DecidableEq, Repr

/-- What the ports send. -/
inductive PorchOut where
  | ack (qp : Nat)
  /-- 1 Invalid Request, 2 Remote Access Error -/
  | nak (qp kind : Nat)
  | data (qp : Nat) (bs : List Byte)
  | cnp (qp : Nat)
  | write (qp host : Nat) (bs : List Byte)
  | resend (qp : Nat)
  | service (port : Nat)
  deriving DecidableEq, Repr

/-- A request that a host has sent: an RDMA write or read with its QP, key, address, and the bytes written or how many are read (R382), or a SEND with its
bytes (R392). -/
structure HostReq where
  qp : Nat
  key : Nat
  va : Nat
  n : Nat
  bs : Option (List Byte)
  send : Bool := false
  deriving DecidableEq, Repr

/-- The Porch and the host sessions: QPs by number; sessions; queues; ports; the bytes of the Letterbox by its key's addresses (Table 15.4); frames
sent, oldest first; whether STAGING_LOCKED was recorded in the step; the reply of the last management request; and its challenge. -/
structure Porch where
  qps : List (Nat × Option Qp) := []
  sessions : List (Nat × Session) := []
  queues : List (Nat × Queue) := []
  ports : List (Nat × PorchPort) := []
  lbx : List (Nat × Byte) := []
  out : List PorchOut := []
  lockSeen : Bool := false
  mgmtCmd : List Byte := []
  mgmtReply : List Byte := []
  challenge : List Byte := []
  /-- RDMA requests that wait for memory, oldest first -/
  held : List HostReq := []
  deriving DecidableEq, Repr

/-! ### The state -/

/-- The reasons a step can end in a model fault. There are none: every failure the spec describes (a fault code, a stopped
room, a stopped step, a frozen module) is a change of state, and the step answers it as a next state. -/
inductive Fault where
  deriving DecidableEq, Repr

/-- The reasons a step can be refused. -/
inductive Refusal where
  /-- Raised by an arm of `exec` that has no meaning yet, by mnemonic. Safe: nothing is claimed of it. -/
  | notModelled (mnemonic : String)
  deriving DecidableEq, Repr

/-- Control registers within a cycle (R10): their values when the cycle began, and what the device has written to their fields since then, counts
counted from 0. -/
structure RegCycle where
  old : List (Nat × Word) := []
  new : List (Nat × Word) := []
  /-- records submitted to the event recorder in this cycle (R437) -/
  subs : Nat := 0
  deriving DecidableEq, Repr

/-- The module. -/
structure State where
  /-- commands waiting, first in, first out -/
  pending : List Instr
  /-- fabric time (R117), counted from power-on until the first lock -/
  now : Nat
  /-- beats so far (R120): the cycles in which the rooms advanced -/
  beat : Nat
  /-- the model's own counter of free values (log 3) -/
  freeCount : Nat
  /-- control registers by device address, each 64 bits (R8); an unlisted one holds its reset value -/
  regs : List (Nat × Word)
  /-- what a read that clears, or a write of 1 that clears, must keep of the cycle (R10) -/
  cyc : RegCycle
  /-- device memory by address (Table 1.5): stack memory, pinned cellar cache, room stores, and the core-private region -/
  mem : List Host.Cell
  /-- poisoned 64-B lines, by line number (R167) -/
  poison : List Nat
  /-- 64-bit words that hold an uncorrectable error, by word number (R88, R428) -/
  badWords : List Nat
  /-- 64-bit words that hold an error the code corrects, and the corrected errors counted in each physical room (R88) -/
  weakWords : List Nat
  storeCe : List (Nat × Nat)
  /-- logical rooms -/
  rooms : List (Nat × Room)
  /-- numeric event codes already recorded in this step, and this cycle's candidates with their order keys (R61, R62) -/
  numSeen : List Nat
  numCand : List (Nat × Nat × EvRec)
  /-- the conversion paths' and engines' counts of the cases they met, by UNIT (R61, R439); no register map names a field for them (log 149) -/
  conv : List (Nat × CaseCounts)
  evr : Evr
  irq : Irq
  cvu : List (Nat × CvuCh)
  mgmt : Mgmt
  seq : Seq
  cel : Cellars
  sec : Sec
  jrnl : Jrnl
  fab : Fab
  ldr : Larders
  att : Attic
  den : Dense
  col : Colls
  por : Porch
  job : Job
  pol : Policy
  /-- what the last read of a control register, or the last scan, returned -/
  lastRead : Word
  deriving DecidableEq, Repr

/-- The module right after power-on: every register at its reset value, nothing in memory, no room running (R11, log 1). -/
def State.reset : State :=
  { pending := [], now := 0, beat := 0, freeCount := 0, regs := [], cyc := {}, mem := [], poison := [], badWords := [], weakWords := [], storeCe := [], rooms := [],
    numSeen := [], numCand := [], conv := [], evr := {}, irq := {}, cvu := [], mgmt := {}, seq := {},
    cel := {}, sec := {}, jrnl := {}, fab := {}, ldr := {}, att := {}, den := {}, col := {}, por := {}, job := {}, pol := {}, lastRead := 0 }

end Sys2Proof.Machine
end

