-- ==== Sys2Proof/Machine/Ops.lean ====
section
/-!
DEFINITION. The shared operations on the state: control registers (R8 to R11), device memory (R20 to R25, R141 to R167),
the event recorder's submissions (R437 to R441), fault recording, stopping a room (R89) and stopping the step (R132).
-/
namespace Sys2Proof.Machine

/-- The state that a meaning without faults answers. -/
def nextOr (s : State) : Host.Outcome State Fault Refusal → State
  | .next t => t
  | _ => s

/-! ### Control registers -/

/-- The value a control register holds. -/
def regGet (s : State) (a : Nat) : Word := smGet (regReset a) s.regs a

/-- Store a register. -/
def regStore (s : State) (a : Nat) (v : Word) : State := { s with regs := smSet (regReset a) s.regs a v }

/-- What the device has written to a register in this cycle (R10). -/
def regNew (s : State) (a : Nat) : Word := smGet 0 s.cyc.new a

/-- The device's own update of a register, of which `new` is what it writes in this cycle (R10). -/
def regUpdate (s : State) (a : Nat) (v new : Word) : State :=
  { s with regs := smSet (regReset a) s.regs a v, cyc := { s.cyc with new := smSet 0 s.cyc.new a new } }

/-- The device writes a register. -/
def regSet (s : State) (a : Nat) (v : Word) : State := regUpdate s a v v

/-- Field `[hi:lo]` of a register. -/
def regBits (s : State) (a hi lo : Nat) : Nat := bits (regGet s a) hi lo

/-- The device sets a field of a register. -/
def regPut (s : State) (a hi lo v : Nat) : State := regUpdate s a (setBits (regGet s a) hi lo v) (setBits (regNew s a) hi lo v)

/-- A saturating count field rises by `n`. -/
def regCount (s : State) (a hi lo n : Nat) : State :=
  let sat (w : Word) : Word := setBits w hi lo (satTo (2 ^ (hi + 1 - lo) - 1) (bits w hi lo + n))
  regUpdate s a (sat (regGet s a)) (sat (regNew s a))

/-- A field that holds a peak takes the measurement `v` when it is higher. -/
def regPeak (s : State) (a hi lo v : Nat) : State :=
  let top (w : Word) : Word := setBits w hi lo (max (bits w hi lo) v)
  regUpdate s a (top (regGet s a)) (top (regNew s a))

/-- The same for a field that holds a signed value. -/
def regPeakSigned (s : State) (a hi lo v : Nat) : State :=
  let n := hi + 1 - lo
  let top (w : Word) : Word := if toSigned n (bits w hi lo) < toSigned n v then setBits w hi lo v else w
  regUpdate s a (top (regGet s a)) (top (regNew s a))

/-- Whether an address lies in the control-register region (R8, R20). -/
def inCtl (a : Nat) : Bool := decide (baseCtl ≤ a) && decide (a < endCtl)

/-! ### Identity and time -/

/-- The module's rank in the job (R301). -/
def rank (s : State) : Nat := regBits s rFabJob 47 32

/-- The step in progress. -/
def stepNo (s : State) : Nat := (regGet s rSchStep).toNat

/-- SCH_STATE.STATE (Table 5.7): 0 no image, 1 verifying, 2 loaded, 3 running, 4 stopped, 5 faulted. -/
def schState (s : State) : Nat := regBits s rSchState 2 0

/-- Whether the present cycle is a beat (R121). -/
def isBeat (s : State) : Bool :=
  decide ((16 * (s.now - s.seq.t0)) % (16 + regBits s rSchStretch 4 0) < 16)

/-- The beat that sees something done in this cycle: this one, or the next when this cycle is no beat (R120). -/
def seenBeat (s : State) : Nat := if isBeat s then s.beat else s.beat + 1

/-! ### Interrupt conditions that hold until a register is read (Table 17.2) -/

def latchIrq (s : State) (n : Nat) : State := { s with irq := { s.irq with latched := setInsert n s.irq.latched } }
def unlatchIrq (s : State) (n : Nat) : State := { s with irq := { s.irq with latched := setErase n s.irq.latched } }

/-! ### The event recorder's queue -/

/-- UNIT of R439: the block index and the instance. -/
def unitId (block inst : Nat) : Nat := block * 256 + inst

def unitSch : Nat := unitId 0 0
def unitRoom (floor : Nat) : Nat := unitId 18 floor

/-- A trigger fires (R441): it counts, ONCE and KIND 2 disable it, and it takes a snapshot unless its last is still being read. -/
def fireTrigger (s : State) (t : Nat) : State :=
  let s := regCount s (rEvrTrg t) 55 48 1
  let s := latchIrq s (16 + t)
  let s := if regBits s (rEvrTrg t) 3 3 = 1 ∨ regBits s (rEvrTrg t) 2 1 = 2 then regPut s (rEvrTrg t) 0 0 0 else s
  if s.evr.snaps.any (fun p => p.trig = t) then regCount s rEvrStat 63 48 1
  else { s with evr := { s.evr with snaps := s.evr.snaps ++ [{ trig := t, ftime := s.now, vals := [] }] } }

/-- The KIND 0 triggers that a queued record's code matches fire in ascending number (R441, R450). -/
def fireCodeTriggers (s : State) (code : Nat) : List Nat → State
  | [] => s
  | t :: ts =>
    let w := regGet s (rEvrTrg t)
    let hit := bitOf w 0 && decide (bits w 2 1 = 0) &&
      decide (Nat.land code (bits w 47 32) = Nat.land (bits w 31 16) (bits w 47 32))
    fireCodeTriggers (if hit then fireTrigger s t else s) code ts

/-- Faults that their chapters record in code order among all of their cycle: SHARD_VERSION (R327), JOURNAL_FULL (R348), and those of power, heat and
security (R474). -/
def byCode (r : EvRec) : Bool :=
  decide (r.ty = 1) && (decide (r.code = 0x0540 ∨ r.code = 0x0166 ∨ r.code = 0x0820) || decide (0x0801 ≤ r.code ∧ r.code ≤ 0x0907))

/-- Whether a unit's faults of one cycle are recorded in code order: the Larders' (R216) and the attic's (R425). -/
def unitByCode (unit : Nat) : Bool := decide (unit / 256 = 3 ∨ unit / 256 = 9)

/-- The place of a record among the submissions of its cycle, `all` when the cycle has a fault of `byCode` (R437). -/
def recBefore (all : Bool) (a b : EvRec) : Bool :=
  if all then decide (a.code ≤ b.code)
  else decide (a.unit < b.unit) || (decide (a.unit = b.unit) && (!(unitByCode a.unit) || decide (a.code ≤ b.code)))

/-- Put a record behind those that come before it. -/
def recInsert (all : Bool) (r : EvRec) : List EvRec → List EvRec
  | [] => [r]
  | x :: xs => if recBefore all x r then x :: recInsert all r xs else r :: x :: xs

/-- The submissions of one cycle in the order in which they enter the queue (R437). -/
def cycleOrder (rs : List EvRec) : List EvRec := rs.foldl (fun l r => recInsert (rs.any byCode) r l) []

/-- A record enters the queue among the submissions of its cycle. -/
def queueRec (s : State) (r : EvRec) : State :=
  let n := s.evr.queue.length - s.cyc.subs
  { s with
    evr := { s.evr with queue := s.evr.queue.take n ++ cycleOrder (s.evr.queue.drop n ++ [r]) }
    cyc := { s.cyc with subs := s.cyc.subs + 1 } }

/-- Submit a record (R437): a full queue or a recorder that is off drops it and counts it lost. A freeze takes no further
record (R448). -/
def submitRec (s : State) (r : EvRec) : State :=
  if s.mgmt.frozen.isSome then s
  else if regBits s rEvrCtrl 0 0 = 0 ∨ 64 ≤ s.evr.queue.length then
    let s := regCount s rEvrStat 47 32 1
    { s with evr := { s.evr with lost := s.evr.lost + 1 } }
  else
    let s := queueRec s r
    if r.ty = 1 ∨ r.ty = 2 then fireCodeTriggers s r.code (upTo 8) else s

/-- Items of a body, each a value and its size in bytes (R439). -/
abbrev Items := List (Nat × Nat)

/-- The step a record carries: the step in progress, 0 when no job runs (Table 17.3). -/
def recStep (s : State) : Nat := if schState s = 3 then stepNo s else 0

/-- A FAULT record. -/
def faultRec (s : State) (code unit : Nat) (items : Items) : EvRec :=
  { ty := 1, code := code, unit := unit, ftime := s.now, step := recStep s, body := items }

/-- A fault recorded in the event recorder only. -/
def recordFault (s : State) (code unit : Nat) (items : Items) : State := submitRec s (faultRec s code unit items)

/-- A block's fault register takes the first fault since VALID was last cleared. `vb` is the VALID bit. -/
def latchFault (s : State) (freg vb code : Nat) : State :=
  if regBits s freg vb vb = 0 then regPut (regPut s freg 15 0 code) freg vb vb 1 else s

/-- A fault recorded in a block's fault register and in the event recorder. -/
def raiseFault (s : State) (freg vb code unit : Nat) (items : Items) : State :=
  recordFault (latchFault s freg vb code) code unit items

/-- A numeric case (R61, R62): a candidate for the first occurrence of its code in the step. `key` orders occurrences within a
cycle: logical room, array, tile row, tile column. -/
def numericEvent (s : State) (code key unit : Nat) (items : Items) : State :=
  if code ∈ s.numSeen then s
  else
    let r : EvRec := { ty := 2, code := code, unit := unit, ftime := s.now, step := recStep s, body := items }
    match s.numCand.find? (fun c => c.1 = code) with
    | none => { s with numCand := s.numCand ++ [(code, key, r)] }
    | some c =>
      if key < c.2.1 then { s with numCand := modifyFirst (fun c => c.1 = code) (fun _ => (code, key, r)) s.numCand }
      else s

/-- At the end of a cycle its candidates become the step's first occurrences. -/
def flushNumeric (s : State) : State :=
  let go := s.numCand.foldl (fun s c => if c.1 ∈ s.numSeen then s
    else submitRec { s with numSeen := setInsert c.1 s.numSeen } c.2.2) { s with numCand := [] }
  go

/-! ### Stopping the step (R27, R89, R132) -/

/-- Depth in edges of the barrier tree of `n` ranks with the given fan-in: the edges from the last rank to rank 0 (R129). -/
def treeDepthAux (fanin : Nat) : Nat → Nat → Nat
  | 0, _ => 0
  | k + 1, r => if r = 0 ∨ fanin < 2 then 0 else 1 + treeDepthAux fanin k ((r - 1) / fanin)

def treeDepth (n fanin : Nat) : Nat := treeDepthAux fanin 17 (n - 1)

/-- The parent of a rank in the tree (R129). -/
def treeParent (fanin r : Nat) : Nat := (r - 1) / fanin

/-- The horizon H of a barrier tree (R129); the plan barrier's edges also carry the plan (R236). -/
def horizon (s : State) (y : SyncEnt) : Nat :=
  let im := s.seq.image
  let cap := satTo 4096 (regBits s rLdrMigCtl 44 32)
  let plan := if cap ≠ 0 ∧ regBits s rLdrMigCtl 31 16 = y.id then ceilDiv (16 * cap) 86 else 0
  treeDepth im.modules y.fanin * (900 + im.switchTime + 40 + plan)

/-- The step's commit barrier. -/
def commitSync (s : State) : Option SyncEnt := s.seq.image.syncs.find? (fun y => y.role = 2)

/-- Whether the clocks have stopped (Table 17.5). -/
def clocksStopped (s : State) : Bool :=
  match s.mgmt.frozen with
  | some t => decide (t + 16 ≤ s.now)
  | none => false

/-- Whether the floors' main domains have been brought up (R17). -/
def mainsUp (s : State) : Bool := decide (regBits s rPwrStatus 1 1 = 1)

/-- Whether the units of the main domains do nothing: their clocks have stopped, or they have no power. -/
def mainsIdle (s : State) : Bool := clocksStopped s || !(mainsUp s)

/-- A module that stops with a fault sends an abort up the commit barrier's tree (R132). The root names the stop cycle:
the abort's arrival plus the horizon. Only the first abort of a step counts. -/
def sendAbort (s : State) (code : Nat) : State :=
  if clocksStopped s = false ∧ schState s = 3 ∧ s.seq.abort = none then
    let stop := if rank s = 0 then some (s.now + (match commitSync s with | some y => horizon s y | none => 0)) else none
    { s with seq := { s.seq with abort := some { code := code, origin := rank s, stop := stop } } }
  else s

/-- A fault that stops the step: recorded, and the step aborted. -/
def stopFault (s : State) (freg vb code unit : Nat) (items : Items) : State :=
  sendAbort (raiseFault s freg vb code unit items) code

/-! ### Repair actions (R422, R423) -/

/-- Seven days of core cycles. -/
def sevenDays : Nat := 7 * 86400 * 1300000000

def repByte (s : State) (off : Nat) : Nat := (smGet 0 s.sec.rep off).toNat
/-- Whether a position is active in the repair map (Table 18.5). -/
def posActive (s : State) (f p : Nat) : Bool := (repByte s (0x10 + 17 * f + p / 8)).testBit (p % 8)
/-- The room byte of a position. -/
def roomByteAt (f p : Nat) : Nat := 0xBA + 136 * f + p
def roomByte (s : State) (f p : Nat) : Nat := repByte s (roomByteAt f p)
/-- The room's array 32 stands in for a failed array (R78). -/
def watchStandsIn (s : State) (f p : Nat) : Bool := decide (roomByte s f p % 64 ≠ 0x3F)
/-- A position that may stand in: neither active nor retired. -/
def sparePos (s : State) (f : Nat) : Option Nat := (upTo 136).find? (fun p => !(posActive s f p) && decide (roomByte s f p / 128 = 0))

/-- A repair action is recorded, and waits for the next restore; an active room with no spare left on its floor fails at once for the map of R136. -/
def pendRepair (s : State) (r : Repair) : State :=
  if r ∈ s.sec.pendRep then s
  else
    let s := regPut { s with sec := { s.sec with pendRep := s.sec.pendRep ++ [r] } } rCfgRepair 33 33 1
    match r with
    | .room k =>
      if (sparePos s (k / 256)).isNone then { s with seq := { s.seq with failedRooms := setInsert k s.seq.failedRooms } } else s
    | _ => s

/-- An array retires; where its room's watch array already stands in, the room retires (Table 16.6). -/
def retireArray (s : State) (k arr : Nat) : State :=
  if watchStandsIn s (k / 256) (k % 256) then pendRepair s (.room k) else pendRepair s (.array k arr)

/-- A fault that retires a unit the second time within seven days. -/
def secondMark (s : State) (code unit : Nat) : State × Bool :=
  let seen := s.sec.marks.any (fun m => decide (m.1 = code ∧ m.2.1 = unit ∧ s.now ≤ m.2.2 + sevenDays))
  ({ s with sec := { s.sec with marks := s.sec.marks ++ [(code, unit, s.now)] } }, seen)

/-- What a room's fault makes Travar retire (Table 16.6): `k` is its position, `arr` the array concerned. -/
def noteRoomFault (s : State) (code k arr : Nat) : State :=
  if code = 0x0221 then retireArray s k arr
  else if code = 0x0220 then
    let m := secondMark s code k
    if m.2 then pendRepair m.1 (.room k) else m.1
  else if code = 0x0410 then
    let m := secondMark s code (k * 64 + arr)
    if m.2 then retireArray m.1 k arr else m.1
  else s

/-! ### Rooms -/

def getRoom (s : State) (r : Nat) : Room := smGet {} s.rooms r
def setRoom (s : State) (r : Nat) (q : Room) : State := { s with rooms := smSet {} s.rooms r q }
def modRoom (s : State) (r : Nat) (f : Room → Room) : State := setRoom s r (f (getRoom s r))

/-- Items every room fault carries: logical and physical room, logical array (R89, R439). -/
def roomItems (r : Nat) (q : Room) (arr : Nat) : Items := [(r, 2), (q.floor * 256 + q.pos, 2), (arr, 2)]

/-- A fault that stops the room (R89, R116): the room stops, its fault is recorded, and the step stops. A room that stopped in an
earlier beat raises no more faults (log 96). -/
def stopRoom (s : State) (r code arr : Nat) : State :=
  let q := getRoom s r
  if q.run = .stopped ∧ q.stopBeat ≠ s.beat then s
  else
    let s := modRoom s r (fun q => { q with run := .stopped, stopBeat := s.beat })
    let s := noteRoomFault s code (q.floor * 256 + q.pos) arr
    sendAbort (recordFault (latchIrq s (16 * (q.floor + 3) + 9)) code (unitRoom q.floor) (roomItems r q arr)) code

/-! ### Device memory -/

def stackBase : Nat := 0
def apertureBase : Nat := 0x040000000000
def roomBase : Nat := 0x050000000000
def sramBase : Nat := 0x070001000000
def sramBytes : Nat := 0x800000
def romBase : Nat := 0x070000000000
def romBytes : Nat := 0x40000
def mib : Nat := 0x100000
def gib : Nat := 0x40000000
def granule : Nat := 0x200000

/-- The address of offset `off` in the store of the physical room (R20). -/
def storeAddr (floor pos off : Nat) : Nat := roomBase + 2 ^ 32 * floor + 2 ^ 24 * pos + off

/-- The live stack capacity in bytes (R21). -/
def stackBytes (s : State) : Nat := 3 * gib * regBits s rCelLive 9 0

/-- The pinned part of a cellar's cache in bytes (R142, Table 7.8); values above 12 act as 12. -/
def pinBytes (s : State) (c : Nat) : Nat := 4 * mib * satTo 12 (regBits s (rCelPin c) 3 0)

/-- The parity bank an address goes to (R276): the bank of the step, or the next step's for the update engine's writes. -/
def parityAddr (s : State) (next : Bool) (a : Nat) : Nat :=
  match (upTo 64).find? (fun i =>
    let w := regGet s (rUpdPwin i)
    decide (granule * bits w 19 0 ≤ a) && decide (a < granule * (bits w 19 0 + bits w 55 40))) with
  | none => a
  | some i =>
    let w := regGet s (rUpdPwin i)
    if (stepNo s + b2n next) % 2 = 0 then a else granule * bits w 39 20 + (a - granule * bits w 19 0)

/-- Where a backing of a floating allocation lies (Table 6.4): 1 a near reserve, 2 a pinned range, 0 its home. -/
def backingAddr (back wh target home off : Nat) : Nat :=
  if back = 1 then granule * target + off
  else if back = 2 then apertureBase + 64 * mib * wh + granule * (target % 32) + off
  else home + off

/-- The backing of an address under the floating map (R151, R154). -/
def floatAddr (s : State) (a : Nat) : Nat :=
  match (upTo 256).find? (fun e =>
    let w := regGet s (rCelFloatA e)
    decide (granule * bits w 19 0 ≤ a) && decide (a < granule * (bits w 19 0 + bits w 35 20))) with
  | none => a
  | some e =>
    let w := regGet s (rCelFloatA e)
    let b := regGet s (rCelFloatB e)
    let home := granule * bits w 19 0
    let off := a - home
    if bits w 44 44 = 1 ∧ off / granule < bits w 60 45 then
      backingAddr (bits b 42 40) (bits b 47 43) (bits b 39 20) home off
    else backingAddr (bits w 38 36) (bits w 43 39) (bits b 19 0) home off

/-- The address that backs a device address, as every translating unit finds it. -/
def translate (s : State) (a : Nat) : Nat := floatAddr s (parityAddr s false a)

/-- What backs an address (Table 1.5). -/
inductive Loc where
  | stack
  | pinned
  | store
  | ctl
  | unmapped
  deriving DecidableEq, Repr

/-- The region of a translated address (R20 to R23, R8): the caching part of an aperture, the unbacked part of a room's slot and
everything outside the table are unmapped. -/
def locate (s : State) (a : Nat) : Loc :=
  if a < stackBytes s then .stack
  else if apertureBase ≤ a ∧ a < apertureBase + 20 * (64 * mib) then
    (if a % (64 * mib) < pinBytes s (a % 2 ^ 40 / (64 * mib)) then .pinned else .unmapped)
  else if roomBase ≤ a ∧ a < roomBase + 10 * 2 ^ 32 then
    (if a % 2 ^ 32 / 2 ^ 24 < 136 ∧ a % 2 ^ 24 < 2 * mib then .store else .unmapped)
  else if inCtl a then .ctl
  else .unmapped

def codeUnmapped : Nat := 0x0201
def codeAtomicTarget : Nat := 0x0202
def codePackCorrupt : Nat := 0x0203
def codePoisoned : Nat := 0x0205
def codeStoreEcc : Nat := 0x0220
def codeStackEcc : Nat := 0x0210

/-- The bytes at a physical address. -/
def memBytes (s : State) (a n : Nat) : List Byte := smGetList 0 s.mem a n
def putBytes (s : State) (a : Nat) (bs : List Byte) : State := { s with mem := smSetList 0 s.mem a bs }
def zeros (n : Nat) : List Byte := List.replicate n 0

/-- Whether any 64-bit word of `[a, a + n)` holds an uncorrectable error. -/
def badIn (s : State) (a n : Nat) : Bool := s.badWords.any (fun w => decide (a < 8 * w + 8) && decide (8 * w < a + n))

/-- The words of `[a, a + n)` that hold an error the code corrects. -/
def weakIn (s : State) (a n : Nat) : List Nat := s.weakWords.filter (fun w => decide (a < 8 * w + 8) && decide (8 * w < a + n))

/-- A write of whole words replaces their errors with fresh check bits (R88). -/
def freshWords (s : State) (a n : Nat) : State :=
  let keep (w : Nat) : Bool := !(decide (a ≤ 8 * w) && decide (8 * w + 8 ≤ a + n))
  { s with badWords := s.badWords.filter keep, weakWords := s.weakWords.filter keep }

/-- The physical room of a room-store address, as floor × 256 + position. -/
def physRoom (a : Nat) : Nat := a % 2 ^ 40 / 2 ^ 32 * 256 + a % 2 ^ 32 / 2 ^ 24

/-- A read of `n` bytes of a room store at `a` counts the errors it corrects (R88). -/
def countWeak (s : State) (a n : Nat) : State :=
  match (weakIn s a n).length with
  | 0 => s
  | k => { s with storeCe := smModify 0 s.storeCe (physRoom a) (fun c => c + k) }

/-- The first of two fault codes. -/
def firstCode (a b : Nat) : Nat := if a = 0 then b else a

/-! ### Channels (R171, R172, R181, R178) -/

def unit64 : Nat := 64 * mib
def codeChannelFailed : Nat := 0x0211
def codeOvertemp : Nat := 0x0820

/-- The global share G (R142, Table 7.8): values above 48 act as 48. -/
def zoneG (s : State) : Nat := satTo 48 (regBits s rCelZone 5 0)

/-- The live channels of floor f, in the order of its near list (R172). -/
def nearList (s : State) (f : Nat) : List Nat := s.cel.live.filter (fun id => decide (id / 32 / 2 = f))

/-- The channel and channel-local offset of an address `a` within a zone of list `l`. -/
def chanIn (l : List Nat) (a base : Nat) : Option (Nat × Nat) :=
  match l[(a / 256) % l.length]? with
  | some id => some (id, (a / 256 / l.length) * 256 + a % 256 + base)
  | none => none

/-- The first address of floor f's near zone (R143). -/
def nearZone (s : State) (f : Nat) : Nat :=
  (upTo f).foldl (fun z g => z + unit64 * (48 - zoneG s) * (nearList s g).length) (unit64 * zoneG s * s.cel.live.length)

/-- Bytes of floor f's near zone. -/
def nearBytes (s : State) (f : Nat) : Nat := unit64 * (48 - zoneG s) * (nearList s f).length

/-- The channel (cellar × 32 + channel) and channel-local offset that hold a stack address (R172). -/
def chanOf (s : State) (a : Nat) : Option (Nat × Nat) :=
  if a < unit64 * zoneG s * s.cel.live.length then chanIn s.cel.live a 0
  else
    match (upTo 10).find? (fun f => decide (nearZone s f ≤ a) && decide (a < nearZone s f + nearBytes s f)) with
    | some f => chanIn (nearList s f) (a - nearZone s f) (unit64 * zoneG s)
    | none => none

/-- Whether a stack line is in its cellar's cache: held there (R147), or by the replacement choice that R146 leaves open. -/
def cached (s : State) (line : Nat) : Bool := decide (smGet 0 s.cel.held line ≠ 0) || Config.lineCached s.now line

/-- The fault that a stack access meets at its channel; 0 for none: its cellar is quiesced and the line is not in the cache (R178, R184), or
the channel has failed (R181). -/
def chanCode (s : State) (p : Nat) : Nat :=
  match chanOf s p with
  | none => codeUnmapped
  | some (id, _) =>
    if regBits s (rMemStatus (id / 32)) 1 1 = 1 then (if cached s (p / 64) then 0 else codeOvertemp)
    else if regBits s (rMemChState (id / 32) (id % 32)) 2 0 = 3 then codeChannelFailed
    else 0

/-- Whether an address lies in the granule that the floating move in progress is copying (R154). -/
def copying (s : State) (a : Nat) : Bool :=
  match s.cel.moves.head? with
  | none => false
  | some e =>
    let w := regGet s (rCelFloatA e)
    let x := parityAddr s false a
    let home := granule * bits w 19 0
    decide (bits w 44 44 = 1 ∧ home ≤ x ∧ x < home + granule * bits w 35 20 ∧ (x - home) / granule = bits w 60 45)

/-- Whether an access to `n` bytes from `a` waits: for a channel that retrains (R180), where no cache holds the line, or for the granule that a
floating move copies (R154). -/
def accessWaits (s : State) (a n : Nat) : Bool :=
  (s.cel.chans.any (fun c => c.2.retrain.isSome) || !(s.cel.moves.isEmpty)) &&
    (upTo (ceilDiv (a % 64 + n) 64)).any (fun i =>
      let la := a - a % 64 + 64 * i
      let p := translate s la
      copying s la ||
        (match locate s p, chanOf s p with
        | .stack, some (id, _) =>
          decide (regBits s (rMemChState (id / 32) (id % 32)) 2 0 = 1) && !(cached s (p / 64))
        | _, _ => false))

/-- Symbols in error that the controller's check finds in a stack line, 4 for more than 3; none when the cache holds it (R173). -/
def stackSyms (s : State) (line : Nat) : Nat := if cached s line then 0 else Config.stackCheck s.now line % 5

/-- The core dies' report on the read: 0 no error, 1 corrected, 2 uncorrectable (Table 7.2). -/
def stackDie (s : State) (line : Nat) : Nat := if cached s line then 0 else Config.stackCheck s.now line / 5 % 3

/-- The fault that a stack line's stored bits give a read: the poison mark with at most one other symbol in error, or more errors than the
code corrects (R173, R174). -/
def lineCode (s : State) (line : Nat) : Nat :=
  if line ∈ s.poison then (if stackSyms s line ≤ 1 then codePoisoned else codeStackEcc)
  else if stackSyms s line = 4 then codeStackEcc else 0

/-- The fault that a read of `n` bytes within the 64-B line at the backing address `p` meets; 0 for none (R25, R88, R167, R174). -/
def readCodeAt (s : State) (p n : Nat) : Nat :=
  match locate s p with
  | .stack => firstCode (chanCode s p) (lineCode s (p / 64))
  | .pinned => 0
  | .store => if badIn s p n then codeStoreEcc else 0
  | _ => codeUnmapped

def readCode (s : State) (a n : Nat) : Nat := readCodeAt s (translate s a) n

/-- Read a piece within one line: its bytes (zeros when it fails, R25, Table 6.8) and its fault code. -/
def readPiece (s : State) (a n : Nat) : List Byte × Nat :=
  let c := readCode s a n
  (if c = 0 then memBytes s (translate s a) n else zeros n, c)

/-- The fault that a write of `n` bytes within the line at the backing address `p` meets: one of part of a poisoned line fails (R25, R167). -/
def writeCodeAt (s : State) (p n : Nat) : Nat :=
  match locate s p with
  | .stack => firstCode (chanCode s p) (if p / 64 ∈ s.poison ∧ n ≠ 64 then codePoisoned else 0)
  | .pinned => 0
  | .store => 0
  | _ => codeUnmapped

/-- Write a piece within one line at a backing address (R25, R88, R167). -/
def writeAt (s : State) (p : Nat) (bs : List Byte) : State × Nat :=
  let c := writeCodeAt s p bs.length
  if c ≠ 0 then (s, c)
  else if locate s p = .stack then (putBytes { s with poison := setErase (p / 64) s.poison } p bs, 0)
  else if locate s p = .store then (putBytes (freshWords s p bs.length) p bs, 0)
  else (putBytes s p bs, 0)

def writePiece (s : State) (a : Nat) (bs : List Byte) : State × Nat := writeAt s (translate s a) bs

/-- `n` bytes from `a` cut at the lines' boundaries: each span's address and length. -/
def lineSpans (a n : Nat) : List (Nat × Nat) :=
  (upTo (ceilDiv (a % 64 + n) 64)).map (fun i =>
    let lo := max a (a - a % 64 + 64 * i)
    (lo, min (a + n) (a - a % 64 + 64 * i + 64) - lo))

/-- Read a part of up to 64 B, which may lie across two lines. -/
def readPart (s : State) (a n : Nat) : List Byte × Nat :=
  let k := 64 - a % 64
  if n ≤ k then readPiece s a n
  else
    let x := readPiece s a k
    let y := readPiece s (a + k) (n - k)
    let c := firstCode x.2 y.2
    (if c = 0 then x.1 ++ y.1 else zeros n, c)

/-- Write a part of up to 64 B. -/
def writePart (s : State) (a : Nat) (bs : List Byte) : State × Nat :=
  let k := 64 - a % 64
  if bs.length ≤ k then writePiece s a bs
  else
    let x := writePiece s a (bs.take k)
    let y := writePiece x.1 (a + k) (bs.drop k)
    (y.1, firstCode x.2 y.2)

/-- The result of a request over many 64-B parts: the first fault code and the bitmap of failed parts, parts beyond 31
folded into bit 31 (R107, Table 4.11). -/
structure ReqRes where
  code : Nat := 0
  parts : Nat := 0
  deriving DecidableEq, Repr

def partBit (i : Nat) : Nat := 2 ^ (if i < 31 then i else 31)

/-- Note part `i` failed with `code` (0: it did not fail). -/
def ReqRes.add (r : ReqRes) (i code : Nat) : ReqRes :=
  if code = 0 then r else { code := firstCode r.code code, parts := Nat.lor r.parts (partBit i) }

/-- Read `n` bytes from `a` in `k` parts of 64 B, the last of what is left, the first being part `i`. -/
def readParts (s : State) (a n : Nat) : Nat → Nat → ReqRes → List Byte → List Byte × ReqRes
  | 0, _, r, acc => (acc, r)
  | k + 1, i, r, acc =>
    let x := readPart s a (min 64 n)
    readParts s (a + 64) (n - 64) k (i + 1) (r.add i x.2) (acc ++ x.1)

/-- Write parts of 64 B from `a`, the first being part `i`. -/
def writeParts (s : State) (a : Nat) : List (List Byte) → Nat → ReqRes → State × ReqRes
  | [], _, r => (s, r)
  | bs :: rest, i, r =>
    let x := writePart s a bs
    writeParts x.1 (a + 64) rest (i + 1) (r.add i x.2)

/-- Read `n` bytes, whatever their alignment: the bytes and the first fault. -/
def readBytes (s : State) (a n : Nat) : List Byte × Nat :=
  (lineSpans a n).foldl (fun x q => let y := readPiece s q.1 q.2; (x.1 ++ y.1, firstCode x.2 y.2)) ([], 0)

/-- Write bytes, whatever their number and alignment, line by line. -/
def writeBytes (s : State) (a : Nat) (bs : List Byte) : State × Nat :=
  (lineSpans a bs.length).foldl (fun x q =>
    let y := writePiece x.1 q.1 ((bs.drop (q.1 - a)).take q.2)
    (y.1, firstCode x.2 y.2)) (s, 0)

/-- A little-endian number of `n` bytes in device memory, and its fault code. -/
def readNat (s : State) (a n : Nat) : Nat × Nat := let r := readBytes s a n; (leNat r.1, r.2)

/-- The number at `a` as memory holds it, 0 where it cannot be read. -/
def memNat (s : State) (a n : Nat) : Nat := (readNat s a n).1

/-- Write a little-endian number of `n` bytes. -/
def writeNat (s : State) (a n v : Nat) : State := (writeBytes s a (leBytes n v)).1

/-- Poison the 64-B stack line that backs an address (R167). -/
def poisonLine (s : State) (a : Nat) : State :=
  let p := translate s a
  if locate s p = .stack then { s with poison := setInsert (p / 64) s.poison } else s

/-! ### What an access leaves in the cellars' records (R147, R168, R174, R175, R186) -/

/-- A cellar's fault: its fault register with the channel, the event recorder, and the step stopped when Table 7.9 says so. -/
def cellarFault (s : State) (id code line : Nat) : State :=
  let c := id / 32
  let s := if regBits s (rMemFault c) 21 21 = 0 then
    regPut (regPut (regPut s (rMemFault c) 15 0 code) (rMemFault c) 20 16 (id % 32)) (rMemFault c) 21 21 1 else s
  let s := recordFault s code (unitId 1 c) [(id % 32, 2), (line, 4)]
  if code = codeChannelFailed ∨ code = codeOvertemp then sendAbort s code else s

/-- An uncorrectable read (R174, R175): counted, the line poisoned, the fault raised. -/
def uncorrectable (s : State) (p id off : Nat) : State :=
  let s := { s with poison := setInsert (p / 64) s.poison }
  let s := regCount s (rMemChUe (id / 32) (id % 32)) 15 0 1
  let s := regPut s (rMemChUe (id / 32) (id % 32)) 57 32 (off / 64)
  cellarFault s id codeStackEcc (off / 64)

/-- A stack line is no longer held (R147). -/
def unhold (s : State) (line : Nat) : State :=
  match smGet 0 s.cel.held line with
  | 0 => s
  | _ =>
    let s := match chanOf s (64 * line) with
      | some (id, _) => regPut s (rCelHold (id / 32)) 25 0 (regBits s (rCelHold (id / 32)) 25 0 - 64)
      | none => s
    { s with cel := { s.cel with held := smSet 0 s.cel.held line 0 } }

/-- A fault of an access outside the stacks, recorded with the address; ADDRESS_UNMAPPED is recorded for the management processor
only (R25, R89). -/
def accessFault (s : State) (a code unit : Nat) : State :=
  if code = codeStoreEcc then
    let p := physRoom (translate s a)
    let r := (s.rooms.find? (fun e => decide (e.2.floor * 256 + e.2.pos = p))).elim 0 (fun e => e.1)
    recordFault (noteRoomFault s code p 0) code unit [(r, 2), (p, 2), (0, 2), (a, 8)]
  else if code = 0 ∨ (code = codeUnmapped ∧ unit ≠ unitId 10 0) then s
  else recordFault s code unit [(a, 8)]

/-- What a read within the line at the backing address `p` by `unit` leaves behind: misses and corrections counted, a held line released,
an uncorrectable line poisoned, and its fault recorded with the address `a` (Table 7.2). `code` is the read's fault. -/
def noteReadAt (s : State) (p a code unit : Nat) : State :=
  match locate s p with
  | .stack =>
    (match chanOf s p with
    | none => accessFault s a code unit
    | some (id, off) =>
      let err := rMemChErr (id / 32) (id % 32)
      if code = codeChannelFailed ∨ code = codeOvertemp then cellarFault s id code (off / 64)
      else
        let s := if cached s (p / 64) then s else regCount s (rCelStat (id / 32)) 31 0 1
        if code = codePoisoned then
          recordFault (regCount s (rMemChUe (id / 32) (id % 32)) 31 16 1) code unit [(a, 8)]
        else if code = codeStackEcc then uncorrectable s p id off
        else
          let die := stackDie s (p / 64)
          let syms := stackSyms s (p / 64)
          let s := if die = 1 then regCount s err 43 24 1 else s
          let s := if die = 2 then regCount s err 63 44 1 else s
          let s := if 0 < syms then regCount s err 23 0 1 else s
          unhold s (p / 64))
  | .pinned => s
  | .store => accessFault (countWeak s p (64 - p % 64)) a code unit
  | _ => accessFault s a code unit

/-- The same for a read at device address `a`. -/
def noteRead (s : State) (a code unit : Nat) : State := noteReadAt s (translate s a) a code unit

/-- What a write's fault leaves behind. -/
def noteWriteAt (s : State) (p a code unit : Nat) : State :=
  if code = 0 then s
  else if code = codeChannelFailed ∨ code = codeOvertemp then
    (match chanOf s p with
    | some (id, off) => cellarFault s id code (off / 64)
    | none => s)
  else accessFault s a code unit

def noteWrite (s : State) (a code unit : Nat) : State := noteWriteAt s (translate s a) a code unit

/-- A fetch of `n` bytes by a unit, `tr` giving the address that backs each: the bytes, the first fault, and the state the reads leave. -/
def fetchVia (tr : Nat → Nat) (s : State) (a n unit : Nat) : State × List Byte × Nat :=
  (lineSpans a n).foldl (fun x q =>
    let c := readCodeAt s (tr q.1) q.2
    (noteReadAt x.1 (tr q.1) q.1 c unit, x.2.1 ++ (if c = 0 then memBytes s (tr q.1) q.2 else zeros q.2), firstCode x.2.2 c)) (s, [], 0)

def fetchBytes (s : State) (a n unit : Nat) : State × List Byte × Nat := fetchVia (translate s) s a n unit

/-- What a fetch leaves behind, where its bytes are read as memory holds them. -/
def noteFetch (s : State) (a n unit : Nat) : State := (fetchBytes s a n unit).1

/-- A store of bytes by a unit, line by line; each line that fails is recorded. -/
def sendVia (tr : Nat → Nat) (s : State) (a : Nat) (bs : List Byte) (unit : Nat) : State × Nat :=
  (lineSpans a bs.length).foldl (fun x q =>
    let y := writeAt x.1 (tr q.1) ((bs.drop (q.1 - a)).take q.2)
    (noteWriteAt y.1 (tr q.1) q.1 y.2 unit, firstCode x.2 y.2)) (s, 0)

def sendBytes (s : State) (a : Nat) (bs : List Byte) (unit : Nat) : State × Nat := sendVia (translate s) s a bs unit

end Sys2Proof.Machine
end

