-- ==== Sys2Proof/Machine/Operands.lean ====
section
/-!
DEFINITION. The bundle's layout (Table 4.1) and its four slots' fields (Tables 4.3, 4.5, 4.7, 4.9), the checks of R91, and
the operand forms: gangs and chain ends, element formats, vector operands and masks.
-/
namespace Sys2Proof.Machine

/-! ### Slots from bits -/

/-- The array slot's fields (Table 4.3). -/
def arraySlotOf (w : BitVec 80) : ArraySlot :=
  { gb := w.extractLsb' 8 5, gs := w.extractLsb' 13 3, gp := w.extractLsb' 16 3, tp := w.extractLsb' 19 1,
    aa := w.extractLsb' 20 4, ia := w.extractLsb' 24 4, ab := w.extractLsb' 28 4, ib := w.extractLsb' 32 4,
    asc := w.extractLsb' 36 4, rsvd := w.extractLsb' 40 3, e := w.extractLsb' 43 9, cin := w.extractLsb' 52 1,
    fmt := w.extractLsb' 53 4, blk := w.extractLsb' 57 2, ovf := w.extractLsb' 59 1, rnd := w.extractLsb' 60 1,
    fin := w.extractLsb' 61 1, dst := w.extractLsb' 62 1, ofmt := w.extractLsb' 63 4, xs := w.extractLsb' 67 5,
    cnt := w.extractLsb' 72 8 }

/-- The vector slot's fields (Table 4.5). -/
def vectorSlotOf (w : BitVec 64) : VectorSlot :=
  { vd := w.extractLsb' 8 5, va := w.extractLsb' 13 5, vb := w.extractLsb' 18 5, vc := w.extractLsb' 23 5,
    aa := w.extractLsb' 28 4, ia := w.extractLsb' 32 4, imm := w.extractLsb' 36 16, fmt := w.extractLsb' 52 4,
    ro := w.extractLsb' 56 1, xs := w.extractLsb' 57 5, msk := w.extractLsb' 62 1, bx := w.extractLsb' 63 1 }

/-- The move slot's fields (Table 4.7). -/
def moveSlotOf (w : BitVec 72) : MoveSlot :=
  { tk := w.extractLsb' 8 6, asrc := w.extractLsb' 14 4, adst := w.extractLsb' 18 4, xl := w.extractLsb' 22 5,
    xp := w.extractLsb' 27 5, sfmt := w.extractLsb' 32 4, dfmt := w.extractLsb' 36 4, rnd := w.extractLsb' 40 1,
    ovf := w.extractLsb' 41 1, aop := w.extractLsb' 42 3, sid := w.extractLsb' 45 8, fen := w.extractLsb' 53 1,
    xq := w.extractLsb' 54 5, rsvd := w.extractLsb' 59 13 }

/-- The control slot's fields (Table 4.9). -/
def controlSlotOf (w : BitVec 40) : ControlSlot :=
  { tk := w.extractLsb' 8 6, d24 := w.extractLsb' 14 24, cf := w.extractLsb' 38 2 }

/-- The bundle's slots (Table 4.1). -/
def bundleArray (w : BitVec 256) : BitVec 80 := w.extractLsb' 0 80
def bundleVector (w : BitVec 256) : BitVec 64 := w.extractLsb' 80 64
def bundleMove (w : BitVec 256) : BitVec 72 := w.extractLsb' 144 72
def bundleControl (w : BitVec 256) : BitVec 40 := w.extractLsb' 216 40

/-! ### What a slot may hold (R91) -/

/-- The fields of an array slot with those that the operation uses set to 0: what is left must be 0 (Table 4.4). -/
def arrayUnused (f : ArraySlot) (gp tp mem second scale acc cin fmt ovf drain x fin dst cnt : Bool) : ArraySlot :=
  { f with
    gb := 0, gs := 0
    gp := if gp then 0 else f.gp
    tp := if tp then 0 else f.tp
    aa := if mem then 0 else f.aa
    ia := if mem then 0 else f.ia
    ab := if second then 0 else f.ab
    ib := if second then 0 else f.ib
    asc := if scale then 0 else f.asc
    e := if acc then 0 else f.e
    cin := if cin then 0 else f.cin
    fmt := if fmt then 0 else f.fmt
    blk := if fmt then 0 else f.blk
    ovf := if ovf then 0 else f.ovf
    rnd := if drain then 0 else f.rnd
    ofmt := if drain then 0 else f.ofmt
    xs := if x then 0 else f.xs
    fin := if fin then 0 else f.fin
    dst := if dst then 0 else f.dst
    cnt := if cnt then 0 else f.cnt }

def aloadLegal (f : ArraySlot) : Bool :=
  arrayUnused f true false true false false false false true false false false false false false == {}
def aswapLegal (f : ArraySlot) : Bool :=
  arrayUnused f true false false false false false false false false false false false false false == {}
def arowLegal (f : ArraySlot) : Bool :=
  arrayUnused f true true true false true true true true true false false false false false == {}
def aorowLegal (f : ArraySlot) : Bool :=
  arrayUnused f false true true true true false false true false false false true true false == {}
def adrainLegal (f : ArraySlot) : Bool :=
  arrayUnused f true false true false true true false false false true true false false true == {} &&
    decide (f.ofmt.toNat ≤ 3)
def astatLegal (f : ArraySlot) : Bool :=
  arrayUnused f false false false false false false false false false false true true false true == {} &&
    decide (f.cnt.toNat < 4)
def aclrLegal (f : ArraySlot) : Bool :=
  arrayUnused f false false false false false false false false false false false false false false == {}

/-- VFMA, VSEL and VST must have MSK = 0 (R101). -/
def unmasked (f : VectorSlot) : Bool := f.msk == 0
/-- VLD and VST accept FMT 0x0, 0x1, 0x2, 0x3, 0x6 and 0x8. -/
def vmemLegal (f : VectorSlot) : Bool := decide (f.fmt.toNat ∈ [0, 1, 2, 3, 6, 8])
def vstLegal (f : VectorSlot) : Bool := vmemLegal f && unmasked f
def vsfuLegal (f : VectorSlot) : Bool := decide (f.imm.toNat ≤ 10)
def vsfudLegal (f : VectorSlot) : Bool := decide (4 ≤ f.imm.toNat) && decide (f.imm.toNat ≤ 10)

/-- A move slot's reserved field must be 0. -/
def moveLegal (f : MoveSlot) : Bool := f.rsvd == 0

/-- Unused D24 bits and CF must be 0: the low `d` bits of D24 are used, and CF is at most `cf` (Table 4.9, R110, R115). -/
def controlLegal (d : Nat) (cf : Nat) (f : ControlSlot) : Bool :=
  decide (f.d24.toNat < 2 ^ d) && decide (f.cf.toNat ≤ cf)

def waitLegal (f : ControlSlot) : Bool := controlLegal 24 1 f
def amovLegal (f : ControlSlot) : Bool := controlLegal 10 0 f && decide (nbits f.d24.toNat 4 4 = 0)

/-! ### D24 sub-fields (Table 4.9) -/

def d24d (f : ControlSlot) : Nat := nbits f.d24.toNat 4 0
def d24a (f : ControlSlot) : Nat := nbits f.d24.toNat 9 5
def d24b (f : ControlSlot) : Nat := nbits f.d24.toNat 14 10
def d24imm19 (f : ControlSlot) : Word := BitVec.ofNat 64 (ofSigned 64 (toSigned 19 (nbits f.d24.toNat 23 5)))
def d24imm14 (f : ControlSlot) : Word := BitVec.ofNat 64 (ofSigned 64 (toSigned 14 (nbits f.d24.toNat 23 10)))
def d24target (f : ControlSlot) : Nat := nbits f.d24.toNat 11 0
def d24brA (f : ControlSlot) : Nat := nbits f.d24.toNat 16 12
def d24sync (f : ControlSlot) : Nat := nbits f.d24.toNat 15 0
def d24sel (f : ControlSlot) : Nat := nbits f.d24.toNat 10 5
def d24ad (f : ControlSlot) : Nat := nbits f.d24.toNat 3 0

/-! ### Bundles to commands (R90, R91) -/

/-- The array slot's command: none when the opcode is reserved, its fields illegal, or a no-operation slot not all 0;
`some []` for the no-operation. -/
def arrayCmd (r : Nat) (w : BitVec 80) : Option (List Instr) :=
  let f := arraySlotOf w
  match (w.extractLsb' 0 8).toNat with
  | 0 => if w = 0 then some [] else none
  | 1 => if aloadLegal f then some [.aload r f] else none
  | 2 => if aswapLegal f then some [.aswap r f] else none
  | 3 => if arowLegal f then some [.arow r f] else none
  | 4 => if aorowLegal f then some [.aorow r f] else none
  | 5 => if adrainLegal f then some [.adrain r f] else none
  | 6 => if astatLegal f then some [.astat r f] else none
  | 7 => if aclrLegal f then some [.aclr r f] else none
  | _ => none

/-- The vector slot's command (Table 4.6). -/
def vectorCmd (r : Nat) (w : BitVec 64) : Option (List Instr) :=
  let f := vectorSlotOf w
  match (w.extractLsb' 0 8).toNat with
  | 0x00 => if w = 0 then some [] else none
  | 0x01 => some [.vadd r f]
  | 0x02 => some [.vsub r f]
  | 0x03 => some [.vmul r f]
  | 0x04 => if unmasked f then some [.vfma r f] else none
  | 0x05 => some [.vdiv r f]
  | 0x06 => some [.vsqrt r f]
  | 0x07 => some [.vmin r f]
  | 0x08 => some [.vmax r f]
  | 0x09 => some [.vceq r f]
  | 0x0A => some [.vclt r f]
  | 0x0B => some [.vcle r f]
  | 0x0C => if unmasked f then some [.vsel r f] else none
  | 0x0D => some [.viadd r f]
  | 0x0E => some [.visub r f]
  | 0x0F => some [.vimul r f]
  | 0x10 => some [.vrelu r f]
  | 0x11 => some [.vrelud r f]
  | 0x12 => some [.vcvtf r f]
  | 0x13 => some [.vcvti r f]
  | 0x18 => if vmemLegal f then some [.vld r f] else none
  | 0x19 => if vstLegal f then some [.vst r f] else none
  | 0x1A => some [.vbc r f]
  | 0x1B => some [.vrsum r f]
  | 0x1C => some [.vrmin r f]
  | 0x1D => some [.vrmax r f]
  | 0x1E => some [.vxtr r f]
  | 0x20 => if vsfuLegal f then some [.vsfu r f] else none
  | 0x21 => if vsfudLegal f then some [.vsfud r f] else none
  | _ => none

/-- The move slot's command (Table 4.8). -/
def moveCmd (r : Nat) (w : BitVec 72) : Option (List Instr) :=
  let f := moveSlotOf w
  let op := (w.extractLsb' 0 8).toNat
  if op = 0 then (if w = 0 then some [] else none)
  else if !(moveLegal f) then none
  else match op with
    | 0x01 => some [.mload r f]
    | 0x02 => some [.mstore r f]
    | 0x03 => some [.mroom r f]
    | 0x04 => some [.matom r f]
    | 0x05 => some [.mgather r f]
    | 0x06 => some [.mscatter r f]
    | 0x07 => some [.msend r f]
    | 0x08 => some [.mrecv r f]
    | 0x09 => some [.mreduce r f]
    | 0x0A => some [.mfence r f]
    | 0x0B => some [.mpref r f]
    | _ => none

/-- The control slot's command (Table 4.9). -/
def controlCmd (r : Nat) (w : BitVec 40) : Option (List Instr) :=
  let f := controlSlotOf w
  match (w.extractLsb' 0 8).toNat with
  | 0x00 => if w = 0 then some [] else none
  | 0x01 => if waitLegal f then some [.wait r f] else none
  | 0x02 => if controlLegal 5 0 f then some [.tstat r f] else none
  | 0x03 => if controlLegal 24 0 f then some [.xset r f] else none
  | 0x04 => if controlLegal 15 0 f then some [.xadd r f] else none
  | 0x05 => if controlLegal 15 0 f then some [.xsub r f] else none
  | 0x06 => if controlLegal 15 0 f then some [.xmul r f] else none
  | 0x07 => if controlLegal 15 0 f then some [.xand r f] else none
  | 0x08 => if controlLegal 15 0 f then some [.xor r f] else none
  | 0x09 => if controlLegal 15 0 f then some [.xshl r f] else none
  | 0x0A => if controlLegal 15 0 f then some [.xshr r f] else none
  | 0x0B => if controlLegal 24 0 f then some [.xaddi r f] else none
  | 0x0C => if amovLegal f then some [.amov r f] else none
  | 0x0D => if amovLegal f then some [.aadd r f] else none
  | 0x10 => if controlLegal 17 0 f then some [.loop r f] else none
  | 0x11 => if controlLegal 12 0 f then some [.jmp r f] else none
  | 0x12 => if controlLegal 17 0 f then some [.bnz r f] else none
  | 0x18 => if controlLegal 16 0 f then some [.sync r f] else none
  | 0x19 => if controlLegal 0 0 f then some [.pend r f] else none
  | 0x1A => if controlLegal 0 0 f then some [.halt r f] else none
  | 0x1B => if controlLegal 11 1 f then some [.rstat r f] else none
  | 0x1C => if controlLegal 5 0 f then some [.ftime r f] else none
  | _ => none

/-- The commands of a bundle, in slot order, or none when it is illegal as a whole (R91). -/
def bundleCmds (r : Nat) (w : BitVec 256) : Option (List Instr) :=
  match arrayCmd r (bundleArray w), vectorCmd r (bundleVector w), moveCmd r (bundleMove w), controlCmd r (bundleControl w) with
  | some a, some v, some m, some c => some (a ++ v ++ m ++ c)
  | _, _, _, _ => none

/-! ### Register reads (R92, R93) -/

def xReg (q : Room) (i : Nat) : Word := if i = 0 then 0 else smGet 0 q.x i
def aReg (q : Room) (i : Nat) : Word := smGet 0 q.a i
def vLane (q : Room) (v i : Nat) : Lane := smGet 0 q.v (v * 256 + i)
def vReg (q : Room) (v : Nat) : List Lane := smGetList 0 q.v (v * 256) 256
def token (q : Room) (t : Nat) : Token := smGet {} q.toks t

/-! ### Gangs (R66, R67) -/

/-- Log2 of the reduction-dimension block size (Table 2.3): values per block. -/
def blockSize (blk : Nat) : Nat := 16 * 2 ^ (blk % 4)

/-- Bytes per value of an operand format, in a load image (R97); paired INT4 takes one byte per cell. -/
def cellBytes (fmt : Nat) : Nat := if fmt = 1 then 2 else if fmt = 0 ∨ fmt = 8 then 4 else 1

/-- Chain ends: the arrays with u = p − 1 in mode N, v = q − 1 in mode T (R67). -/
def chainEnds (gb p q tp : Nat) : List Nat :=
  if tp = 0 then (upTo q).map (fun v => gb + (p - 1) * q + v) else (upTo p).map (fun u => gb + u * q + (q - 1))

/-- The arrays of chain `i`, in chain order. -/
def chainArrays (gb p q tp i : Nat) : List Nat :=
  if tp = 0 then (upTo p).map (fun u => gb + u * q + i) else (upTo q).map (fun v => gb + i * q + v)

/-- W(d) of R70. -/
def wDepth (d : Nat) : Nat := 16 + 9 * (d - 1)

/-- The fields' gang: its base, size, p and q; none when the grouping or shape is outside R66. -/
def gangShape (gb gs gp : Nat) : Option (Nat × Nat × Nat) :=
  if 5 < gs ∨ gs < gp ∨ gb % 2 ^ gs ≠ 0 ∨ 32 < gb + 2 ^ gs then none else some (2 ^ gs, 2 ^ gp, 2 ^ (gs - gp))

/-- Whether operand pair (weights, inputs) is accepted in mode N (tp = 0) or T (Table 3.5). Nothing a room holds names the direction that a tile's blocks run
in, which R42 fixes as the tile is written (log 12). -/
def pairOk (tp wf xf : Nat) : Bool :=
  (wf == 1 && xf == 1) ||
    (tp == 0 && ((wf == 6 && xf == 6) || (wf == 7 && xf == 7))) ||
    (decide (xf ∈ [2, 3, 4, 5]) && decide (wf ∈ [2, 3, 4, 5]))

end Sys2Proof.Machine
end

