-- ==== Sys2Proof/Machine/Flags.lean ====
section
/-!
DEFINITION. The numeric cases' reporting: the matmul status record of a gang (R114, Table 4.12), the room status of the
vector unit (R115, Table 4.13), and the first-occurrence events (R61, R62, Table 2.10).
-/
namespace Sys2Proof.Machine

def CaseCounts.add (c : CaseCounts) (f : NumFlags) : CaseCounts :=
  { inv := c.inv + b2n f.invalid, ovf := c.ovf + b2n f.overflow, int := c.int + b2n f.intRange,
    sat := c.sat + b2n f.saturated, nfe := c.nfe + b2n f.nonfinite }

/-- The cases of two counts together. -/
def CaseCounts.plus (c d : CaseCounts) : CaseCounts :=
  { inv := c.inv + d.inv, ovf := c.ovf + d.ovf, int := c.int + d.int, sat := c.sat + d.sat, nfe := c.nfe + d.nfe }

/-! ### Operations that count their cases (R60, R61) -/

/-- A computation that counts the cases its operations meet. -/
abbrev Num (α : Type) : Type := StateM CaseCounts α

/-- An operation's result, its cases counted. -/
def Num.op (r : Lane × NumFlags) : Num Lane := fun c => (r.1, c.add r.2)

def addN (a b : Lane) : Num Lane := Num.op (b32Add a b)
def subN (a b : Lane) : Num Lane := Num.op (b32Sub a b)
def mulN (a b : Lane) : Num Lane := Num.op (b32Mul a b)
def fmaN (a b c : Lane) : Num Lane := Num.op (b32Fma a b c)
def divN (a b : Lane) : Num Lane := Num.op (b32Div a b)
def sqrtN (a : Lane) : Num Lane := Num.op (b32Sqrt a)

/-- Element-wise sums of two vectors. -/
def addsN (xs ys : List Lane) : Num (List Lane) := (xs.zip ys).mapM (fun x => addN x.1 x.2)

/-- A saturating count field of a status part: the part, and whether the count reached its maximum. -/
def addField (w : Word) (hi lo n : Nat) : Word × Bool :=
  let v := satTo (2 ^ (hi + 1 - lo) - 1) (bits w hi lo + n)
  (setBits w hi lo v, decide (n ≠ 0 ∧ v = 2 ^ (hi + 1 - lo) - 1))

def orBit (w : Word) (i : Nat) (b : Bool) : Word := if b then setBits w i i 1 else w

/-- Count the cases into a gang's status record (R114): sticky flags and FULL are in part 0. -/
def Gang.count (g : Gang) (c : CaseCounts) : Gang :=
  let p0 := addField g.st0 47 0 c.inv
  let p1 := addField g.st1 47 0 c.ovf
  let p2 := addField g.st2 47 0 c.int
  let p3 := addField g.st3 31 0 c.sat
  let p4 := addField p3.1 63 32 c.nfe
  let w := orBit (orBit (orBit (orBit (orBit p0.1 48 (c.inv ≠ 0)) 49 (c.ovf ≠ 0)) 50 (c.int ≠ 0)) 51 (c.sat ≠ 0)) 52 (c.nfe ≠ 0)
  { g with st0 := orBit w 53 (p0.2 || p1.2 || p2.2 || p3.2 || p4.2), st1 := p1.1, st2 := p2.1, st3 := p4.1 }

/-- The status part that ASTAT and SCH_ROOM_SEL.PART select. -/
def Gang.part (g : Gang) (i : Nat) : Word :=
  match i with
  | 0 => g.st0
  | 1 => g.st1
  | 2 => g.st2
  | _ => g.st3

/-- Clear the one part that was read (R114). -/
def Gang.clearPart (g : Gang) (i : Nat) : Gang :=
  match i with
  | 0 => { g with st0 := 0 }
  | 1 => { g with st1 := 0 }
  | 2 => { g with st2 := 0 }
  | _ => { g with st3 := 0 }

/-- ACLR: all four parts. -/
def Gang.clearAll (g : Gang) : Gang := { g with st0 := 0, st1 := 0, st2 := 0, st3 := 0 }

/-- Submit the numeric events of a set of counts. `key` orders within a cycle (R62). -/
def caseEvents (s : State) (c : CaseCounts) (key unit : Nat) (items : Items) : State :=
  let go (s : State) (n code : Nat) := if n = 0 then s else numericEvent s code key unit items
  go (go (go (go (go s c.inv 0x0401) c.ovf 0x0402) c.nfe 0x0403) c.sat 0x0404) c.int 0x0405

/-- The cases of a unit without a status record of its own: counted for the unit, and submitted as events (R61). -/
def unitCases (s : State) (c : CaseCounts) (key unit : Nat) (items : Items) : State :=
  caseEvents { s with conv := smModify {} s.conv unit (fun x => x.plus c) } c key unit items

/-- The order key of R62: room, array, tile row, tile column. -/
def numKey (room arr row col : Nat) : Nat := ((room * 64 + arr) * 1024 + row) * 1024 + col

/-- An array's cases: counted in the gang's record and submitted as events (R61). -/
def arrayCases (s : State) (r gb arr row col : Nat) (c : CaseCounts) : State :=
  let q := getRoom s r
  let s := setRoom s r { q with gangs := smModify {} q.gangs gb (fun g => g.count c) }
  caseEvents s c (numKey r arr row col) (unitRoom q.floor) (roomItems r q arr ++ [(row, 2), (col, 2)])

/-- The vector unit's cases of one operation: counts of INVALID, DIVIDE, OVERFLOW, INTEGER RANGE and CONVERT, and the
sticky flags they set (Table 4.13). -/
structure VecCases where
  inv : Nat := 0
  div : Nat := 0
  ovf : Nat := 0
  int : Nat := 0
  cvt : Nat := 0
  flags : Nat := 0
  ev : CaseCounts := {}
  deriving DecidableEq, Repr

/-- One lane's cases of an arithmetic operation. -/
def VecCases.addArith (v : VecCases) (f : NumFlags) : VecCases :=
  { v with
    inv := v.inv + b2n f.invalid
    div := v.div + b2n f.divide
    ovf := v.ovf + b2n f.overflow
    int := v.int + b2n f.intRange
    flags := Nat.lor v.flags (b2n f.invalid + 2 * b2n f.divide + 4 * b2n f.overflow + 8 * b2n f.intRange)
    ev := v.ev.add f }

/-- One lane's cases of a VST conversion (R115): saturations, NaN-to-integer conversions and non-finite FP8 encodings count
in VCONVERT only; a BF16 overflow counts in VOVERFLOW. -/
def VecCases.addStore (v : VecCases) (f : NumFlags) : VecCases :=
  { v with
    ovf := v.ovf + b2n f.overflow
    cvt := v.cvt + b2n (f.intRange || f.saturated || f.nonfinite)
    flags := Nat.lor v.flags (4 * b2n f.overflow + 8 * b2n f.intRange + 16 * b2n f.saturated + 32 * b2n f.nonfinite)
    ev := v.ev.add f }

def vmax48 : Nat := 2 ^ 48 - 1

/-- Add to the vector counts; a count at its maximum sets FULL (bit 6 of VFLAGS). -/
def vecCount (q : Room) (flags : Nat) (ns : List Nat) : Room :=
  let add (i n : Nat) : Nat := satTo vmax48 (q.vcounts.getD i 0 + n)
  let full := (ns.zipIdx).any (fun p => decide (p.1 ≠ 0 ∧ add p.2 p.1 = vmax48))
  { q with vflags := Nat.lor (Nat.lor q.vflags flags) (64 * b2n full), vcounts := (ns.zipIdx).map (fun p => add p.2 p.1) }

/-- The counts in the order of selectors 1 to 5. -/
def VecCases.counts (v : VecCases) : List Nat := [v.inv, v.div, v.ovf, v.int, v.cvt]

/-- The events of a vector operation's cases (R61, R62). -/
def vectorEvents (s : State) (r : Nat) (v : VecCases) : State :=
  let q := getRoom s r
  caseEvents s v.ev (numKey r 63 0 0) (unitRoom q.floor) [(r, 2), (q.floor * 256 + q.pos, 2)]

end Sys2Proof.Machine
end

