-- ==== Sys2Proof/Machine/RoomCore.lean ====
section
/-!
DEFINITION. What every slot of a room shares: when an operation acts, bank and port claims (R85, R86, R94, R95), pending
results (Table 4.10), and the reads and writes of the room store.
-/
namespace Sys2Proof.Machine

/-- Why a slot's operation stops the room: the fault, the logical array, and for BANK_CONFLICT the accesses whose bank it wanted, by their
bundle's issue beat and their number in it. -/
structure SlotFault where
  code : Nat
  arr : Nat := 0
  hits : List (Nat × Nat) := []
  deriving DecidableEq, Repr

/-- A slot's effect: the next state, or the fault that stops the room. -/
abbrev SlotRes := Except SlotFault State

def codeBank : Nat := 0x0140
def codeAccHazard : Nat := 0x0141
def codeArrayFormat : Nat := 0x0142
def codeTileNotReady : Nat := 0x0143
def codeGangShape : Nat := 0x0144
def codeArrayParity : Nat := 0x0221
def codeIllegal : Nat := 0x0150
def codeRoomAddress : Nat := 0x0151
def codeCollision : Nat := 0x0152
def codeTokenBusy : Nat := 0x0153
def codeTokenUnarmed : Nat := 0x0154
def codeWaitTimeout : Nat := 0x0155
def codeSlotBusy : Nat := 0x0156
def codeBounds : Nat := 0x0157
def codeOpFailed : Nat := 0x0158
def codeMoveShape : Nat := 0x0159

/-- A room acts on a slot in a beat in which it runs; the other slots of a bundle in which it stopped or began to wait
still act (R116). -/
def issuing (s : State) (r : Nat) : Bool :=
  let q := getRoom s r
  isBeat s && s.mgmt.frozen.isNone &&
    (match q.run with
     | .running => true
     | .stopped => decide (q.stopBeat = s.beat)
     | .held => (match q.hold with | some h => decide (h.w = s.beat) | none => false)
     | _ => false)

/-- Stop the room for a slot's fault. After BANK_CONFLICT neither access takes place (R86): what the earlier one was still to do is dropped. -/
def slotStop (s : State) (r : Nat) (e : SlotFault) : State :=
  stopRoom (if e.hits.isEmpty then s
    else modRoom s r (fun q => { q with micro := q.micro.filter (fun m => !(decide ((m.issued, m.src) ∈ e.hits))) })) r e.code e.arr

/-- Run a slot's operation: nothing when the room does not act, ILLEGAL_BUNDLE when its fields are illegal (R91), and otherwise
its body. -/
def runSlot (s : State) (r : Nat) (legal : Bool) (body : Room → SlotRes) : State :=
  if !(issuing s r) then s
  else if !legal then stopRoom s r codeIllegal 0
  else match body (getRoom s r) with
    | .ok s' => s'
    | .error e => slotStop s r e

/-! ### Ports and registers (R95) -/

/-- The register a pending result reaches: file and number. -/
def microReg (m : Micro) : Option (Nat × Nat) :=
  match m.op with
  | .v r _ => some (0, r)
  | .x r _ => some (1, r)
  | .a r _ => some (2, r)
  | _ => none

/-- Two results collide when they reach one port, or one register, in one beat. -/
def collide (m n : Micro) : Bool :=
  decide (m.due = n.due) &&
    ((m.port == n.port && m.port != .post && m.port != .none) || ((microReg m).isSome && microReg m == microReg n))

/-- A result will reach its register in beat `due`. On a collision none of the colliding results is written and the room stops (R95), at the issue of the
later result (log 144). -/
def addResultOf (s : State) (r src due : Nat) (port : Port) (op : MicroOp) : State :=
  let q := getRoom s r
  let m : Micro := { due := due, ord := 0, issued := s.beat, port := port, op := op, src := src }
  if q.micro.any (fun n => collide m n) then
    let kill (n : Micro) : Micro := if collide m n then { n with dead := true } else n
    stopRoom (setRoom s r { q with micro := q.micro.map kill ++ [kill m] }) r codeCollision 0
  else setRoom s r { q with micro := q.micro ++ [m] }

/-- A result that no scheduled access feeds. -/
def addResult (s : State) (r due : Nat) (port : Port) (op : MicroOp) : State := addResultOf s r 0 due port op

/-- An action in beat `due`, order `ord` within the beat, of the bundle issued in beat `issued`; access `src` of that bundle feeds it (0 none). -/
def addActionOf (s : State) (r issued src due ord : Nat) (op : MicroOp) : State :=
  modRoom s r (fun q => { q with micro := q.micro ++ [{ due := due, ord := ord, issued := issued, port := .none, op := op, src := src }] })

/-- An action that no scheduled access feeds. -/
def addAction (s : State) (r due ord : Nat) (op : MicroOp) : State := addActionOf s r s.beat 0 due ord op

/-- Post-increment an address register by `n` bytes at the end of the cycle (R92, R94); an increment of 0 is none (log 13). -/
def postInc (s : State) (r reg n : Nat) : State :=
  if n = 0 then s else addResult s r (s.beat + 1) .post (.a reg (aReg (getRoom s r) reg + BitVec.ofNat 64 n))

/-! ### The room store (R85, R86, R94) -/

def storeBytes : Nat := 0x200000

def banksOf (off n : Nat) : List Nat := (upTo (ceilDiv n 64)).map (fun i => (off / 64 + i) % 16)

/-- The numbers of a bundle's scheduled accesses (R86): the array slot's inputs and load rows from 1, its drained rows from 32, its token-scale lines
from 600, and the vector slot's access. -/
def srcInput : Nat := 1
def srcDrain : Nat := 32
def srcScales : Nat := 600
def srcVector : Nat := 700

/-- Claim the banks of a scheduled access of `n` bytes at `off` in beat `beat`, for access `src` of array `arr` (R85, R86, R94). -/
def claim (s : State) (r arr src off n beat : Nat) : SlotRes :=
  if off % 64 ≠ 0 ∨ n % 64 ≠ 0 ∨ storeBytes < off + n ∨ 1024 < n then .error { code := codeRoomAddress, arr := arr }
  else
    let q := getRoom s r
    let bs := banksOf off n
    match q.banks.filter (fun u => decide (u.beat = beat ∧ u.bank ∈ bs)) with
    | [] => .ok (setRoom s r { q with banks := q.banks ++ bs.map (fun b => { beat := beat, bank := b, issued := s.beat, src := src }) })
    | us => .error { code := codeBank, arr := arr, hits := us.map (fun u => (u.issued, u.src)) }

/-- Claim `k` accesses of `n` bytes, `stride` apart, one per beat from `beat` on, numbered from `src`. -/
def claimRows (s : State) (r arr src off stride n beat : Nat) : Nat → SlotRes
  | 0 => .ok s
  | k + 1 => (claim s r arr src off n beat).bind (fun s => claimRows s r arr (src + 1) (off + stride) stride n (beat + 1) k)

/-- The bytes of a room's store. -/
def storeRead (s : State) (r off n : Nat) : List Byte :=
  let q := getRoom s r
  memBytes s (storeAddr q.floor q.pos off) n

/-- Whether a read of the room's store meets an uncorrectable word (R88). -/
def storeBad (s : State) (r off n : Nat) : Bool :=
  let q := getRoom s r
  badIn s (storeAddr q.floor q.pos off) n

/-- Write a room's store: whole words with fresh check bits (R88). -/
def storeWrite (s : State) (r off : Nat) (bs : List Byte) : State :=
  let q := getRoom s r
  let a := storeAddr q.floor q.pos off
  putBytes (freshWords s a bs.length) a bs

/-- A read of the room's store in the present beat: corrected errors are counted, and an uncorrectable word gives no bytes (R88). -/
def storeFetch (s : State) (r off n : Nat) : State × Option (List Byte) :=
  let q := getRoom s r
  (countWeak s (storeAddr q.floor q.pos off) n, if storeBad s r off n then none else some (storeRead s r off n))

/-- A scheduled read in the issue beat: claim, then the bytes; an uncorrectable word stops the room. Values that do not fill a line are read with the line
that holds them (log 145). -/
def readNow (s : State) (r arr src off n beat : Nat) : Except SlotFault (State × List Byte) :=
  (claim s r arr src off (roundUp n 64) beat).bind (fun s =>
    match storeFetch s r off (roundUp n 64) with
    | (s, some bs) => .ok (s, bs)
    | (_, none) => .error { code := codeStoreEcc, arr := arr })

/-- Values of `k` bytes each from bytes. -/
def valuesOf (k : Nat) (bs : List Byte) : List Nat := (chunks k (bs.length + 1) bs).map leNat

end Sys2Proof.Machine
end

