-- ==== Sys2Proof/Machine/Array.lean ====
section
/-!
DEFINITION. The matrix arrays of a room: gangs, planes, loads and swaps (R64 to R66), rows and chains in modes N and T (R67 to
R71), mode O (R73, R74), formats (R75 to R77), drains (R72, R99), status (R114), and the watch array (R78, R79, R296 to R298).
An operation issued in beat b acts at the arrays in beat b + 4 (R96).
-/
namespace Sys2Proof.Machine

def getArr (q : Room) (a : Nat) : ArrayUnit := smGet {} q.arrays a
def setArr (q : Room) (a : Nat) (u : ArrayUnit) : Room := { q with arrays := smSet {} q.arrays a u }
def getGang (q : Room) (gb : Nat) : Gang := smGet {} q.gangs gb
def setGang (q : Room) (gb : Nat) (g : Gang) : Room := { q with gangs := smSet {} q.gangs gb g }
def planeOf (u : ArrayUnit) (p : Nat) : Plane := if p = 0 then u.p0 else u.p1
def setPlane (u : ArrayUnit) (p : Nat) (x : Plane) : ArrayUnit := if p = 0 then { u with p0 := x } else { u with p1 := x }
def arraysOf (gb g : Nat) : List Nat := (upTo g).map (fun i => gb + i)

/-- Apply `f` to every array of a gang. -/
def modArrs (q : Room) (as : List Nat) (f : Nat → ArrayUnit → ArrayUnit) : Room :=
  as.foldl (fun q a => setArr q a (f a (getArr q a))) q

/-- The gang an operation names (R66): its shape must be allowed and it must not overlap another gang in use. Its status record
begins at its first operation in the phase (R114). -/
def useGang (s : State) (r gb gs gp : Nat) : Except SlotFault (State × Nat × Nat × Nat) :=
  match gangShape gb gs gp with
  | none => .error { code := codeGangShape, arr := gb }
  | some (g, p, q) =>
    let rm := getRoom s r
    let gg := getGang rm gb
    if gg.used && decide (gg.gs = gs) then .ok (s, g, p, q)
    else if rm.gangs.any (fun e => e.2.used && decide (e.1 < gb + g) && decide (gb < e.1 + 2 ^ e.2.gs)) then
      .error { code := codeGangShape, arr := gb }
    else .ok (setRoom s r (setGang rm gb { (getGang rm gb).clearAll with used := true, gs := gs }), g, p, q)

/-! ### ALOAD and ASWAP (R64, R97) -/

/-- A ninth row follows the eight cell rows in block-scaled, INT8 and INT4 images. -/
def ninthRow (fmt : Nat) : Bool := decide (fmt ∈ [4, 5, 6, 7])

/-- The bytes of load row `i`: the cell rows, then the scale row. -/
def loadRowBytes (g fmt i : Nat) : Nat :=
  if i < 8 then roundUp (g * 8 * cellBytes fmt) 64 else if fmt = 4 ∨ fmt = 5 then 8 * g else 32 * g

/-- Put row `i` of a load image into the shadow planes. The first row takes the plane: what it held, an unfinished mode O pass too, is gone, and its parity
is fresh (R88). -/
def putLoadRow (s : State) (r gb g plane fmt i : Nat) (bs : List Byte) : State :=
  let es := cellBytes fmt
  modRoom s r (fun q => modArrs q (arraysOf gb g) (fun a u =>
    let pl := (plane / 2 ^ (a - gb)) % 2
    let p := planeOf u pl
    let p := if i = 0 then { p with valid := true, fmt := fmt, scales := [], pass := none, parityBad := false } else p
    if i < 8 then
      let row := (valuesOf es ((bs.drop ((a - gb) * 8 * es)).take (8 * es))).map (BitVec.ofNat 32)
      let cells := if p.cells.length = 64 then p.cells else List.replicate 64 0
      setPlane u pl { p with cells := cells.take (8 * i) ++ row ++ cells.drop (8 * i + 8) }
    else
      let k := if fmt = 4 ∨ fmt = 5 then 1 else 4
      let sc := (valuesOf k ((bs.drop ((a - gb) * 8 * k)).take (8 * k))).map (BitVec.ofNat 32)
      let u := setPlane u pl { p with scales := sc }
      if k = 4 then { u with chScales := sc } else u))

/-- Row `i` of a load image is read in beat b + i and reaches the planes four beats later (R97). -/
def loadRowAct (s : State) (r issued gb g plane fmt i off : Nat) : State :=
  match storeFetch s r off (roundUp (loadRowBytes g fmt i) 64) with
  | (s, some bs) => addActionOf s r issued (srcInput + i) (s.beat + 4) 2 (.loadPut gb g plane fmt i bs)
  | (s, none) => stopRoom s r codeStoreEcc gb

/-- The shadow planes of a gang as bits, array 0 of the gang in bit 0. -/
def shadowBits (q : Room) (gb g : Nat) : Nat :=
  (arraysOf gb g).foldl (fun n a => n + (1 - (getArr q a).active) * 2 ^ (a - gb)) 0

/-- ALOAD (R64, R97): its nine or eight rows are claimed, the first is read, and the load completes in array cycle b + 11 or b + 12. -/
def aloadBody (s : State) (r : Nat) (f : ArraySlot) (q : Room) : SlotRes :=
  let gb := f.gb.toNat
  let fmt := f.fmt.toNat
  let b := s.beat
  (useGang s r gb f.gs.toNat f.gp.toNat).bind fun (s, g, _, _) =>
  let sh := shadowBits q gb g
  let busy := (arraysOf gb g).any (fun a => decide (b + 4 < (planeOf (getArr q a) (1 - (getArr q a).active)).free))
  if busy then .error { code := codeTileNotReady, arr := gb }
  else
    let base := (aReg q f.aa.toNat).toNat
    let st := loadRowBytes g fmt 0
    let done := b + 11 + b2n (ninthRow fmt)
    (claimRows s r gb srcInput base st st b 8).bind fun s =>
    (if ninthRow fmt then claim s r gb (srcInput + 8) (base + 8 * st) (roundUp (loadRowBytes g fmt 8) 64) (b + 8) else .ok s).bind fun s =>
    if storeBad s r base st then .error { code := codeStoreEcc, arr := gb }
    else
      let s := modRoom s r (fun q => modArrs q (arraysOf gb g) (fun _ u =>
        let p := planeOf u (1 - u.active)
        setPlane u (1 - u.active) { p with ready := done }))
      let s := (upTo (7 + b2n (ninthRow fmt))).foldl
        (fun s i => addActionOf s r b (srcInput + (i + 1)) (b + i + 1) 1 (.loadRow gb g sh fmt (i + 1) (base + (i + 1) * st)))
        (loadRowAct s r b gb g sh fmt 0 base)
      .ok (postInc s r f.aa.toNat (64 * f.ia.toNat))

def aswapBody (s : State) (r : Nat) (f : ArraySlot) (q : Room) : SlotRes :=
  let gb := f.gb.toNat
  (useGang s r gb f.gs.toNat f.gp.toNat).bind fun (s, g, _, _) =>
  if (arraysOf gb g).any (fun a => decide (s.beat + 4 ≤ (planeOf (getArr q a) (1 - (getArr q a).active)).ready)) then
    .error { code := codeTileNotReady, arr := gb }
  else .ok (modRoom s r (fun q => modArrs q (arraysOf gb g) (fun _ u => { u with active := 1 - u.active })))

/-! ### Operand values -/

/-- Bytes of `n` values of an operand format in the store; INT4 packs two per byte (R37). -/
def valueBytes (fmt n : Nat) : Nat := if fmt = 7 then n / 2 else n * cellBytes fmt

/-- `n` operand codes from bytes. -/
def operandCodes (fmt : Nat) (bs : List Byte) : List Nat :=
  if fmt = 7 then (bs.map (fun b => [b.toNat % 16, b.toNat / 16])).flatten else valuesOf (cellBytes fmt) bs

/-- The exact value of a floating operand code. -/
def floatCode (fmt c : Nat) : FV :=
  match fmt with
  | 1 => bf16V c
  | 2 => fp8Dec .e4m3 c
  | 4 => fp8Dec .e4m3 c
  | 3 => fp8Dec .e5m2 c
  | 5 => fp8Dec .e5m2 c
  | _ => b32 (BitVec.ofNat 32 c)

/-- One product of a chain (R56): as it enters the accumulator, exact, and the cases it meets. -/
structure Term where
  val : FV
  exact : FV
  cases : NumFlags := noFlags
  deriving DecidableEq, Repr

/-- A product is exact, or scaled by the block scales and rounded once; a scale byte 0xFF decodes to NaN with no flag; a product beyond the binary32 range
becomes an infinity with Overflow (log 14). -/
def productTerm (x w : FV) (sx sw : Nat) : Term :=
  if sx = 0xFF ∨ sw = 0xFF then { val := .nan, exact := .nan }
  else
    let p := fvMul x w
    let k : Int := Int.ofNat sx + Int.ofNat sw - 254
    let z := fvScale p.1 k
    let e := toB32 z
    { val := if k = 0 ∧ e.2 = false then p.1 else b32 e.1, exact := z, cases := { noFlags with invalid := p.2, overflow := e.2 } }

/-- Add one product to a binary32 accumulator by RNE. -/
def accumulate (acc : Lane) (t : Term) : Lane × NumFlags :=
  let a := fvAdd (b32 acc) t.val
  let o := toB32 a.1
  (o.1, t.cases.or { noFlags with invalid := a.2, overflow := o.2 })

/-- A run of products in ascending reduction index (R68): the sum, and the cases of each step. -/
def chainRun (acc : Lane) : List Term → Lane × List NumFlags
  | [] => (acc, [])
  | t :: ts => let x := accumulate acc t; let r := chainRun x.1 ts; (r.1, x.2 :: r.2)

/-- A run of exact integer sums added under the overflow field (R57). -/
def intRun (sat : Bool) (acc : Lane) : List Int → Lane × List NumFlags
  | [] => (acc, [])
  | z :: zs => let x := int32Of sat (int32 acc + z); let r := intRun sat x.1 zs; (r.1, x.2 :: r.2)

/-- The products of lane `j` of one tile: inputs `xs` of the tile with their scales. The ninth load row's byte `j` scales the lane (R77; log 12). -/
def tileFloat (tp : Nat) (xf : Nat) (p : Plane) (j : Nat) (xs : List (Nat × Nat)) : List Term :=
  (xs.zipIdx).map (fun t =>
    let k := t.2
    let w := (p.cells.getD (if tp = 0 then 8 * k + j else 8 * j + k) 0).toNat
    let sw := if p.fmt = 4 ∨ p.fmt = 5 then (p.scales.getD j 127).toNat else 127
    productTerm (floatCode xf t.1.1) (floatCode p.fmt w) t.1.2 sw)

def tileInt (p : Plane) (j : Nat) (xs : List Nat) : List Int :=
  if p.fmt = 7 then
    (upTo 8).map (fun k =>
      let w := (p.cells.getD (8 * k + j) 0).toNat
      toSigned 4 (xs.getD (2 * k) 0) * toSigned 4 (w % 16) + toSigned 4 (xs.getD (2 * k + 1) 0) * toSigned 4 (w / 16 % 16))
  else (upTo 8).map (fun k => toSigned 8 (xs.getD k 0) * toSigned 8 (p.cells.getD (8 * k + j) 0).toNat)

/-! ### The watch array (R78, R79, R296 to R298) -/

def codeWatch : Nat := 0x0410

/-- Add to a binary64 sum, by RNE. -/
def add64 (acc : Nat) (v : FV) : Nat := (fenc fmtB64 (fvAdd (fdec fmtB64 acc) v).1).1

/-- The watch's wide sum and sum of magnitudes over some products. -/
def wideRun (z sm : Nat) : List FV → Nat × Nat
  | [] => (z, sm)
  | t :: ts => wideRun (add64 z t) (add64 sm (fvAbs t)) ts

/-- Whether the array's output y matches the wide result z within the bound of R297, for n products of magnitude sum S. -/
def watchMatch (n : Nat) (y : Lane) (z sm : Nat) : Bool :=
  let vy := b32 y
  let vz := fdec fmtB64 z
  let vs := fdec fmtB64 sm
  let bound := (fvAdd (fvMul (.fin false (2 * n) (-24)) vs).1 (.fin false (2 * n) (-149))).1
  (fvIsNan vy && fvIsNan vz) ||
    (fvIsFin vy && fvIsFin vz && fvIsFin bound && !(fvLt bound (fvAbs (fvAdd vy (fvNeg vz)).1))) ||
    (fvIsInf vy && decide (fvSign vy = fvSign vz) &&
      (fvIsInf vz || (fvIsFin vz && !(fvLt (fvAbs vz) (.fin false (2 ^ 25 - 1) 103)))))

/-- A mismatch (R298): recorded and counted, captured in UPD_WATCH_LAST when that is free, and with STOP = 1 the step stops. `trow` and `tcol` name the
output tile. -/
def watchMismatch (s : State) (r arr modeO row lane trow tcol : Nat) (y : Lane) (z : Nat) : State :=
  let q := getRoom s r
  let f := q.floor
  let items : Items := roomItems r q arr ++ [(trow, 2), (tcol, 2), (row, 2), (lane, 2), (y.toNat, 4), (z, 8)]
  let s := regCount s (rUpdWatchCnt f) 63 48 1
  let s := if regBits s (rUpdWatchLast f) 24 24 = 0 then
    regSet s (rUpdWatchLast f) (BitVec.ofNat 64
      (r % 2 ^ 12 + (arr % 32) * 2 ^ 12 + modeO * 2 ^ 17 + (row % 8) * 2 ^ 18 + (lane % 8) * 2 ^ 21 + 2 ^ 24 + y.toNat * 2 ^ 32)) else s
  let s := raiseFault (noteRoomFault s codeWatch (f * 256 + q.pos) arr) (rUpdFault f) 16 codeWatch (unitId 4 f) items
  if bitOf q.watch.ctl 1 then sendAbort s codeWatch else s

/-- A sample falls due: taken, or counted as unwatched (R296). -/
def watchDue (s : State) (r : Nat) : State × Bool :=
  let q := getRoom s r
  if q.watch.isSpare || q.watch.following.isSome || !(bitOf q.watch.ctl 0) then
    (regCount s (rUpdWatchCnt q.floor) 47 32 1, false)
  else (regCount s (rUpdWatchCnt q.floor) 31 0 1, true)

/-! ### AROW (R67 to R71, R98) -/

/-- The scale bytes of a row, from the line the gang holds, which is fetched when it differs (R98). -/
def rowScales (s : State) (r gb off n : Nat) : Except SlotFault (State × List Nat) :=
  if 64 < off % 64 + n then .error { code := codeRoomAddress, arr := gb }
  else
    let line := off - off % 64
    let g := getGang (getRoom s r) gb
    let have? := match g.held with | some h => decide (h.1 = line) | none => false
    if have? then
      .ok (s, (((match g.held with | some h => h.2 | none => []).drop (off % 64)).take n).map (fun b : Byte => b.toNat))
    else
      (readNow s r gb srcInput line 64 s.beat).bind fun (s, bs) =>
      .ok (modRoom s r (fun q => setGang q gb { getGang q gb with held := some (line, bs) }),
        ((bs.drop (off % 64)).take n).map (fun b : Byte => b.toNat))

def halfWrite (u : ArrayUnit) (h : Nat) : Nat := if h = 0 then u.hw0 else u.hw1
def halfDrain (u : ArrayUnit) (h : Nat) : Nat × Nat := if h = 0 then u.dr0 else u.dr1

def arowBody (s : State) (r : Nat) (f : ArraySlot) (q : Room) : SlotRes :=
  let gb := f.gb.toNat
  let tp := f.tp.toNat
  let fmt := f.fmt.toNat
  let e := f.e.toNat
  let h := e / 256
  (useGang s r gb f.gs.toNat f.gp.toNat).bind fun (s, g, p, qq) =>
  let d := if tp = 0 then p else qq
  let c := s.beat + 4
  let w := c + wDepth d
  let ends := chainEnds gb p qq tp
  let nv := 8 * d
  let nx := nv * (if fmt = 7 then 2 else 1)
  let planes := (arraysOf gb g).map (fun a => (getArr q a).active)
  if ends.any (fun a => let u := getArr q a
      (decide (f.cin = 1) && decide (c ≤ smGet 0 u.wr e)) || (decide ((halfDrain u h).1 ≤ c) && decide (c ≤ (halfDrain u h).2))) then
    .error { code := codeAccHazard, arr := gb }
  else if (arraysOf gb g).any (fun a => let u := getArr q a; !((planeOf u u.active).valid)) then
    .error { code := codeTileNotReady, arr := gb }
  else
    (readNow s r gb srcInput (aReg q f.aa.toNat).toNat (valueBytes fmt nx) s.beat).bind fun (s, bs) =>
    let nsc := if fmt = 4 ∨ fmt = 5 then ceilDiv nv (blockSize f.blk.toNat) else 0
    (if nsc = 0 then .ok (s, []) else rowScales s r gb (aReg q f.asc.toNat).toNat nsc).bind fun (s, scs) =>
    let s := modRoom s r (fun q => modArrs q ends (fun _ u =>
      let u := { u with wr := smSet 0 u.wr e (max (smGet 0 u.wr e) w) }
      if h = 0 then { u with hw0 := max u.hw0 w } else { u with hw1 := max u.hw1 w }))
    let s := modRoom s r (fun q => modArrs q (arraysOf gb g) (fun _ u =>
      let p := planeOf u u.active
      setPlane u u.active { p with free := max p.free (c + 16 + 9 * (d - 1)) }))
    let tag := tp + 2 * b2n (decide (fmt = 6 ∨ fmt = 7))
    let s := modRoom s r (fun q => setGang q gb { getGang q gb with tags := smSet 0 (getGang q gb).tags e tag })
    -- the numeric watch's sampling (R296)
    let wa := (getRoom s r).watch
    let rate := bits wa.ctl 6 2
    let due := decide ((wa.cnt + 1) % 2 ^ rate = 0)
    let sd := if due then watchDue s r else (s, false)
    let s := modRoom sd.1 r (fun q => { q with watch := { q.watch with cnt := q.watch.cnt + 1 } })
    let sample := if sd.2 then some ((wa.cnt / 2 ^ rate) % g) else none
    let s := addActionOf s r s.beat srcInput c 1 (.row f planes (operandCodes fmt bs) scs sample)
    let s := postInc s r f.aa.toNat (64 * f.ia.toNat)
    .ok (postInc s r f.asc.toNat nsc)

/-- One tile of a chain as one lane sees it: its products or integer sums, and the bits a failed data path turns. -/
structure ChainTile where
  float : List Term
  int : List Int
  flip : Lane
  deriving DecidableEq, Repr

/-- One lane's way through a chain: at each tile the partial sum in and out, and the cases of each step. -/
def chainLane (isInt sat : Bool) (acc : Lane) : List ChainTile → List (Lane × Lane × List NumFlags)
  | [] => []
  | t :: rest =>
    let x := if isInt then intRun sat acc t.int else chainRun acc t.float
    let y := x.1 ^^^ t.flip
    (acc, y, x.2) :: chainLane isInt sat y rest

/-- The cases of `b` that `a` lacks. -/
def NumFlags.beyond (a b : NumFlags) : NumFlags :=
  { invalid := b.invalid && !a.invalid, divide := b.divide && !a.divide, overflow := b.overflow && !a.overflow,
    intRange := b.intRange && !a.intRange, saturated := b.saturated && !a.saturated, nonfinite := b.nonfinite && !a.nonfinite }

/-- Where along a chain a lane meets each case for the first time: tile, step, and the cases (R114 counts each once a lane a row). -/
def firstCases (seen : NumFlags) : List (Nat × Nat × NumFlags) → List (Nat × Nat × NumFlags)
  | [] => []
  | (ti, k, f) :: l =>
    let n := seen.beyond f
    if n = noFlags then firstCases seen l else (ti, k, n) :: firstCases (seen.or f) l

/-- The cases of lane `j` reach the gang's record in the array cycle in which the cell that met them adds (R69, R70, R114). -/
def laneCases (s : State) (r gb trow tcol j : Nat) (arrs : List Nat) (run : List (Lane × Lane × List NumFlags)) : State :=
  let steps := ((run.zipIdx).map (fun t => (t.1.2.2.zipIdx).map (fun x => (t.2, x.2, x.1)))).flatten
  (firstCases noFlags steps).foldl (fun s e =>
    addAction s r (s.beat + 1 + e.2.1 + j + 9 * e.1) 1
      (.cases gb (arrs.getD e.1 gb) trow tcol (b2n e.2.2.invalid) (b2n e.2.2.overflow) (b2n e.2.2.intRange))) s

/-- The watch's comparison of one lane of the sampled tile (R79, R297), delivered as the tile's output leaves its last cell. -/
def watchLane (s : State) (r arr j ti trow tcol : Nat) (isInt sat : Bool) (t : ChainTile) (io : Lane × Lane × List NumFlags) : State :=
  let z : Bool × Nat :=
    if isInt then let z := (intRun sat io.1 t.int).1; (io.2.1 == z, z.toNat)
    else
      let w := wideRun (fenc fmtB64 (b32 io.1)).1 (fenc fmtB64 (fvAbs (b32 io.1))).1 (t.float.map (fun x => x.exact))
      (watchMatch 8 io.2.1 w.1 w.2, w.1)
  if z.1 then s else addAction s r (s.beat + 16 + 9 * ti) 0 (.watchBad arr 0 0 j trow tcol io.2.1 z.2)

/-- The row reaches the arrays: parity and formats are checked, every chain runs, and the chain ends' entries are written in
beat c + W(d). A row in mode N or T ends the gang's mode O (log 146). -/
def rowAct (s : State) (r : Nat) (f : ArraySlot) (planes xs scs : List Nat) (sample : Option Nat) : State :=
  let gb := f.gb.toNat
  let tp := f.tp.toNat
  let xf := f.fmt.toNat
  let e := f.e.toNat
  let q := getRoom s r
  let p := 2 ^ f.gp.toNat
  let qq := 2 ^ (f.gs.toNat - f.gp.toNat)
  let g := 2 ^ f.gs.toNat
  let d := if tp = 0 then p else qq
  let pl (a : Nat) : Plane := planeOf (getArr q a) (planes.getD (a - gb) 0)
  let kt := if xf = 7 then 16 else 8
  let isInt := decide (xf = 6 ∨ xf = 7)
  if (arraysOf gb g).any (fun a => !((pl a).valid)) then stopRoom s r codeTileNotReady gb
  else if (arraysOf gb g).any (fun a => !(pairOk tp (pl a).fmt xf)) then stopRoom s r codeArrayFormat gb
  else
  match (arraysOf gb g).find? (fun a => (pl a).parityBad || (f.cin = 1 && decide (e ∈ (getArr q a).accBad))) with
  | some a => stopRoom s r codeArrayParity a
  | none =>
    let chains := if tp = 0 then qq else p
    let s := modRoom s r (fun q => modArrs q (arraysOf gb g) (fun _ u => { u with modeO := false }))
    (upTo chains).foldl (fun s ci =>
      let arrs := chainArrays gb p qq tp ci
      let aend := (chainEnds gb p qq tp).getD ci 0
      let ue := getArr q aend
      let tiles (j : Nat) : List ChainTile := (arrs.zipIdx).map (fun t =>
        let seg := (xs.drop (t.2 * kt)).take kt
        let sg := seg.zipIdx.map (fun x => (x.1, if scs.isEmpty then 127 else scs.getD ((t.2 * kt + x.2) / blockSize f.blk.toNat) 127))
        { float := if isInt then [] else tileFloat tp xf (pl t.1) j sg, int := if isInt then tileInt (pl t.1) j seg else [],
          flip := (getArr q t.1).flip })
      let lanes := (upTo 8).map (fun j =>
        let cin : Lane := if f.cin = 1 then smGet 0 ue.acc (8 * e + j) else 0
        chainLane isInt (decide (f.ovf = 1)) cin (tiles j))
      let s := (lanes.zipIdx).foldl (fun s l => laneCases s r gb (e / 8) ci l.2 arrs l.1) s
      let s := match sample with
        | none => s
        | some off =>
          match arrs.findIdx? (fun a => decide (a = gb + off)) with
          | none => s
          | some ti => (lanes.zipIdx).foldl (fun s l =>
              watchLane s r (gb + off) l.2 ti (e / 8) ci isInt (decide (f.ovf = 1)) ((tiles l.2).getD ti { float := [], int := [], flip := 0 })
                (l.1.getD ti (0, 0, []))) s
      let out := lanes.map (fun l => (l.getLastD (0, 0, [])).2.1)
      addAction s r (s.beat + wDepth d) 2 (.accPut aend e out)) s

def accPutAct (s : State) (r a e : Nat) (lanes : List Lane) : State :=
  modRoom s r (fun q => let u := getArr q a
    setArr q a { u with acc := smSetList 0 u.acc (8 * e) lanes, accBad := setErase e u.accBad })

/-! ### AOROW (R73, R74, R100) -/

def aorowBody (s : State) (r : Nat) (f : ArraySlot) (q : Room) : SlotRes :=
  let gb := f.gb.toNat
  let fmt := f.fmt.toNat
  let pl := f.tp.toNat
  let b := s.beat
  (useGang s r gb f.gs.toNat 0).bind fun (s, g, _, _) =>
  let c := b + 4
  if (arraysOf gb g).any (fun a => decide (c ≤ (planeOf (getArr q a) pl).lastDrain)) then
    .error { code := codeAccHazard, arr := gb }
  else
    (readNow s r gb srcInput (aReg q f.aa.toNat).toNat (valueBytes fmt 8) b).bind fun (s, xb) =>
    (readNow s r gb srcInput (aReg q f.ab.toNat).toNat (valueBytes fmt (8 * g)) b).bind fun (s, yb) =>
    let nsc := if fmt = 4 ∨ fmt = 5 then 1 + g else 0
    (if nsc = 0 then .ok (s, []) else rowScales s r gb (aReg q f.asc.toNat).toNat nsc).bind fun (s, scs) =>
    let s := addActionOf s r b srcInput c 1 (.orow f (operandCodes fmt xb) (operandCodes fmt yb) scs)
    let aa := (aReg q f.aa.toNat + BitVec.ofNat 64 (64 * f.ia.toNat)).toNat
    -- a load into the plane waits for the row's last cell, and for the drain that ends a pass (R64, R74)
    let s := modRoom s r (fun q => modArrs q (arraysOf gb g) (fun _ u =>
      let p := planeOf u pl
      setPlane u pl { p with lastDrain := if f.fin = 1 then c + 23 else p.lastDrain, free := max p.free (if f.fin = 1 then c + 24 else c + 16) }))
    (if f.fin = 1 then
      let s := addAction s r (c + 16) 1 (.odrain f aa)
      if f.dst = 0 then claimRows s r gb srcDrain aa 1024 (roundUp (32 * g) 64) (b + 22) 8 else .ok s
     else .ok s).bind fun s =>
    let s := postInc s r f.aa.toNat (64 * f.ia.toNat)
    let s := postInc s r f.ab.toNat (64 * f.ib.toNat)
    .ok (postInc s r f.asc.toNat nsc)

/-- The first row after the gang's other modes enters mode O, which replaces both planes' contents (R65). -/
def enterO (s : State) (r gb g : Nat) : State :=
  if (arraysOf gb g).all (fun a => (getArr (getRoom s r) a).modeO) then s
  else modRoom s r (fun q => modArrs q (arraysOf gb g) (fun _ u =>
    { u with modeO := true, p0 := { u.p0 with valid := false, pass := none }, p1 := { u.p1 with valid := false, pass := none } }))

/-- The watch's part in the start of a pass (R296): the pass counter and its sampling. -/
def watchPass (s : State) (r gb g pl : Nat) : State :=
  let q := getRoom s r
  let rate := bits q.watch.ctl 11 7
  let p := q.watch.passes
  let sd := if (p + 1) % 2 ^ rate = 0 then watchDue s r else (s, false)
  modRoom sd.1 r (fun q => { q with watch := { q.watch with
    passes := p + 1
    following := if sd.2 then some (gb + (p / 2 ^ rate) % g, pl) else q.watch.following
    rows := if sd.2 then 0 else q.watch.rows
    wide := if sd.2 then List.replicate 64 (0, 0) else q.watch.wide } })

/-- One array's part of a mode O row: every cell adds one product (R73), its cases counting as it adds, and the watch follows a sampled pass (R296). -/
def orowArray (s : State) (r gb pl a : Nat) (term : Nat → Term) : State :=
  let q := getRoom s r
  let u := getArr q a
  let p := planeOf u pl
  let fresh := p.pass.isNone
  if p.parityBad && !fresh then stopRoom s r codeArrayParity a
  else
    let acc := match p.pass with | some l => l | none => List.replicate 64 0
    let res := (acc.zipIdx).map (fun t => accumulate t.1 (term t.2))
    let s := setRoom s r (setArr q a (setPlane u pl { p with
      valid := false, pass := some (res.map (fun x => x.1 ^^^ u.flip)), parityBad := p.parityBad && !fresh }))
    let s := if q.watch.following = some (a, pl) then
        modRoom s r (fun q => { q with watch := { q.watch with
          rows := q.watch.rows + 1
          wide := (q.watch.wide.zipIdx).map (fun t => wideRun t.1.1 t.1.2 [(term t.2).exact]) } })
      else s
    (res.zipIdx).foldl (fun s x =>
      if x.1.2 = noFlags then s
      else addAction s r (s.beat + 1 + x.2 / 8 + x.2 % 8) 1
        (.cases gb a 0 (a - gb) (b2n x.1.2.invalid) (b2n x.1.2.overflow) (b2n x.1.2.intRange))) s

/-- A mode O row at the arrays. -/
def orowAct (s : State) (r : Nat) (f : ArraySlot) (xs dys scs : List Nat) : State :=
  let gb := f.gb.toNat
  let g := 2 ^ f.gs.toNat
  let fmt := f.fmt.toNat
  let pl := f.tp.toNat
  if !(decide (fmt ∈ [1, 2, 3, 4, 5])) then stopRoom s r codeArrayFormat gb
  else
    let s := enterO s r gb g
    let s := if (planeOf (getArr (getRoom s r) gb) pl).pass.isNone then watchPass s r gb g pl else s
    let sx := if scs.isEmpty then 127 else scs.getD 0 127
    (arraysOf gb g).foldl (fun s a =>
      let sd := if scs.isEmpty then 127 else scs.getD (1 + (a - gb)) 127
      orowArray s r gb pl a (fun n =>
        productTerm (floatCode fmt (xs.getD (n / 8) 0)) (floatCode fmt (dys.getD (8 * (a - gb) + n % 8) 0)) sx sd)) s

/-- A pass drains (R74): to the room store in binary32, each row filled with zeros to whole lines (R88; log 147), or to the reduction path that the room's
MREDUCE binds (R100). -/
def odrainAct (s : State) (r issued : Nat) (f : ArraySlot) (off : Nat) : State :=
  let gb := f.gb.toNat
  let g := 2 ^ f.gs.toNat
  let pl := f.tp.toNat
  let q := getRoom s r
  let cell (i a j : Nat) : Lane := (match (planeOf (getArr q a) pl).pass with | some l => l.getD (8 * i + j) 0 | none => 0)
  let rowOf (i : Nat) : List Lane := ((arraysOf gb g).map (fun a => (upTo 8).map (fun j => cell i a j))).flatten
  match (arraysOf gb g).find? (fun a => (planeOf (getArr q a) pl).parityBad) with
  | some a => stopRoom s r codeArrayParity a
  | none =>
    -- the watch compares the pass it followed (R297)
    let s := match q.watch.following with
      | some (a, p) =>
        if p = pl ∧ a ∈ arraysOf gb g then
          let s := (upTo 64).foldl (fun s n =>
            let zs := q.watch.wide.getD n (0, 0)
            let y := cell (n / 8) a (n % 8)
            if watchMatch q.watch.rows y zs.1 zs.2 then s else watchMismatch s r a 1 (n / 8) (n % 8) 0 (a - gb) y zs.1) s
          modRoom s r (fun q => { q with watch := { q.watch with following := none } })
        else s
      | none => s
    let s := modRoom s r (fun q => modArrs q (arraysOf gb g) (fun _ u => setPlane u pl { planeOf u pl with pass := none }))
    if f.dst = 1 then
      if q.ops.any (fun o => o.kind = .mreduce) then
        modRoom s r (fun q => { q with slices := q.slices ++ [((upTo 8).map rowOf).flatten] })
      else stopRoom s r codeTokenUnarmed gb
    else (upTo 8).foldl (fun s i =>
      let bs := ((rowOf i).map (fun l => leBytes 4 l.toNat)).flatten
      addActionOf s r issued (srcDrain + i) (s.beat + 2 + i) 2 (.store (off + 1024 * i) (bs ++ zeros (roundUp bs.length 64 - bs.length)))) s

/-! ### ADRAIN (R72, R99) -/

def outBytes (ofmt : Nat) : Nat := match ofmt with | 0 => 4 | 1 => 2 | _ => 1

/-- A lane converted to the drain's or vector store's output format (R63, R72, R80, R487): code and cases. FP8 and INT8 targets
apply the supplied scale. -/
def narrowLane (fmt : Nat) (scale : Lane) (sr : Bool) (draw : Nat) (v : Lane) : Nat × NumFlags :=
  match fmt with
  | 1 => toBf16 sr draw v
  | 2 => toFp8V .e4m3 sr draw (supplyQuot v scale)
  | 3 => toFp8V .e5m2 sr draw (supplyQuot v scale)
  | 6 => let x := toIntQ 127 sr draw (supplyQuot v scale); (ofSigned 8 x.1, x.2)
  | _ => (v.toNat, noFlags)

/-- The draw key of a room's conversion (Table 13.1). -/
def roomDrawKey (s : State) (r kind stream : Nat) : DrawKey :=
  { seed := regGet s rSchSeed, step := stepNo s, unit := roomUnitWord r kind, stream := roomStreamWord (rank s) stream }

/-- A token-scale line of the ADRAIN issued in beat `b` is read (R99). -/
def drainScalesAct (s : State) (r gb off n b : Nat) : State :=
  match storeFetch s r off n with
  | (s, some bs) => modRoom s r (fun q => { q with drainTok := smModify [] q.drainTok b (fun l => l ++ bs) })
  | (s, none) => stopRoom s r codeStoreEcc gb

def adrainBody (s : State) (r : Nat) (f : ArraySlot) (q : Room) : SlotRes :=
  let gb := f.gb.toNat
  let e := f.e.toNat
  let cnt := f.cnt.toNat
  let h := e / 256
  (useGang s r gb f.gs.toNat f.gp.toNat).bind fun (s, _, p, qq) =>
  let c := s.beat + 4
  let gg := getGang q gb
  if (e + cnt) / 256 ≠ h ∨ c ≤ gg.drain then .error { code := codeAccHazard, arr := gb }
  else
    let tag := smGet 0 gg.tags e
    if (upTo (cnt + 1)).any (fun i => decide (smGet 0 gg.tags (e + i) ≠ tag)) then
      .ok (postInc (addAction s r c 0 (.fail codeArrayFormat)) r f.aa.toNat (64 * f.ia.toNat))
    else
      let tp := tag % 2
      let int := tag / 2
      let ends := chainEnds gb p qq tp
      if ends.any (fun a => decide (c ≤ halfWrite (getArr q a) h)) then .error { code := codeAccHazard, arr := gb }
      else
        let sd := roundUp (8 * ends.length * outBytes f.ofmt.toNat) 64
        let base := (aReg q f.aa.toNat).toNat
        let b := s.beat
        (claimRows s r gb srcDrain base sd sd (b + 6) (cnt + 1)).bind fun s =>
        let asc := (aReg q f.asc.toNat).toNat
        let lines := if int = 1 then ceilDiv (4 * (cnt + 1)) 64 else 0
        ((upTo lines).foldl (fun (o : SlotRes) j => o.bind (fun s => claim s r gb (srcScales + j) (asc + 64 * j) 64 (b + 16 * j))) (.ok s)).bind fun s =>
        let s := if lines = 0 then s else drainScalesAct s r gb asc 64 b
        let s := (upTo (lines - 1)).foldl (fun s j =>
          addActionOf s r b (srcScales + (j + 1)) (b + 16 * (j + 1)) 0 (.drainScales gb (asc + 64 * (j + 1)) 64 b)) s
        let s := modRoom s r (fun q => modArrs (setGang q gb { getGang q gb with drain := c + cnt }) ends (fun _ u =>
          if h = 0 then { u with dr0 := (c, c + cnt) } else { u with dr1 := (c, c + cnt) }))
        let xv := xReg q f.xs.toNat
        let s := (upTo (cnt + 1)).foldl (fun s i => addActionOf s r b (srcDrain + i) (c + i) 1 (.drainRead f i tp int base sd xv b)) s
        .ok (postInc s r f.aa.toNat (64 * f.ia.toNat))

/-- Entry E + i is read and converted, its cases counted at each chain end, and its lanes are written two beats later, filled with zeros to S_d (log 147).
An entry whose token-scale line was not read is not written. -/
def drainReadAct (s : State) (r : Nat) (f : ArraySlot) (i tp int base sd : Nat) (xv : Word) (b : Nat) : State :=
  let gb := f.gb.toNat
  let e := f.e.toNat + i
  let q := getRoom s r
  let p := 2 ^ f.gp.toNat
  let qq := 2 ^ (f.gs.toNat - f.gp.toNat)
  let ends := chainEnds gb p qq tp
  let ofmt := f.ofmt.toNat
  let tok : Lane := BitVec.ofNat 32 (leNat (((smGet [] q.drainTok b).drop (4 * i)).take 4))
  let missing := decide (int = 1) && decide ((smGet [] q.drainTok b).length < 4 * i + 4)
  let per := 8 * ends.length
  match ends.find? (fun a => decide (e ∈ (getArr q a).accBad)) with
  | some a => stopRoom s r codeArrayParity a
  | none =>
    let lanes := (ends.zipIdx).map (fun t => (upTo 8).map (fun j =>
      let u := getArr q t.1
      let v := smGet 0 u.acc (8 * e + j)
      let dq : Lane × NumFlags :=
        if int = 1 then
          let a := b32Mul (b32OfInt32 v) tok
          let b := b32Mul a.1 (u.chScales.getD j b32One)
          (b.1, a.2.or b.2)
        else (v, noFlags)
      let el := bits xv 55 32 + i * per + 8 * t.2 + j
      let dr := if f.rnd = 1 then drawOf (roomDrawKey s r 1 (bits xv 63 56)) el else 0
      let n := narrowLane ofmt (BitVec.ofNat 32 (bits xv 31 0)) (decide (f.rnd = 1)) dr dq.1
      (n.1, dq.2.or n.2)))
    let s := if i = f.cnt.toNat then modRoom s r (fun q => { q with drainTok := smSet [] q.drainTok b [] }) else s
    if missing then s
    else
      let s := ((ends.zip lanes).zipIdx).foldl (fun s t =>
        arrayCases s r gb t.1.1 (e / 8) t.2 (t.1.2.foldl (fun (c : CaseCounts) l => c.add l.2) {})) s
      let bs := (lanes.flatten.map (fun l => leBytes (outBytes ofmt) l.1)).flatten
      addActionOf s r b (srcDrain + i) (s.beat + 2) 2 (.store (base + i * sd) (bs ++ zeros (sd - bs.length)))

/-! ### ASTAT and ACLR (R114) -/

def astatBody (s : State) (r : Nat) (f : ArraySlot) : SlotRes :=
  (useGang s r f.gb.toNat f.gs.toNat 0).bind fun (s, _, _, _) => .ok (addAction s r (s.beat + 4) 0 (.statRead f))

/-- The part is read, and with END = 1 it alone is cleared; X is ready two beats later. -/
def statReadAct (s : State) (r : Nat) (f : ArraySlot) : State :=
  let gb := f.gb.toNat
  let g := getGang (getRoom s r) gb
  let s := if f.fin = 1 then modRoom s r (fun q => setGang q gb (g.clearPart f.cnt.toNat)) else s
  addResult s r (s.beat + 2) .vecArr (.x f.xs.toNat (g.part f.cnt.toNat))

def aclrBody (s : State) (r : Nat) (f : ArraySlot) : SlotRes :=
  (useGang s r f.gb.toNat f.gs.toNat 0).bind fun (s, _, _, _) => .ok (addAction s r (s.beat + 4) 0 (.statClear f.gb.toNat))

/-! ### The array slot's instructions (Table 4.4) -/

/-- ALOAD (R97): the gang's tiles are loaded into its shadow planes. -/
def execAload (room : Nat) (f : ArraySlot) (s : State) : Host.Outcome State Fault Refusal :=
  .next (runSlot s room (aloadLegal f) (aloadBody s room f))

/-- ASWAP (R64): the shadow planes become active. -/
def execAswap (room : Nat) (f : ArraySlot) (s : State) : Host.Outcome State Fault Refusal :=
  .next (runSlot s room (aswapLegal f) (aswapBody s room f))

/-- AROW (R98): one row in mode N or T. -/
def execArow (room : Nat) (f : ArraySlot) (s : State) : Host.Outcome State Fault Refusal :=
  .next (runSlot s room (arowLegal f) (arowBody s room f))

/-- AOROW (R100): one mode O row. -/
def execAorow (room : Nat) (f : ArraySlot) (s : State) : Host.Outcome State Fault Refusal :=
  .next (runSlot s room (aorowLegal f) (aorowBody s room f))

/-- ADRAIN (R99): CNT + 1 entries are converted and written to the room store. -/
def execAdrain (room : Nat) (f : ArraySlot) (s : State) : Host.Outcome State Fault Refusal :=
  .next (runSlot s room (adrainLegal f) (adrainBody s room f))

/-- ASTAT (R114): a part of the gang's status record is read. -/
def execAstat (room : Nat) (f : ArraySlot) (s : State) : Host.Outcome State Fault Refusal :=
  .next (runSlot s room (astatLegal f) (fun _ => astatBody s room f))

/-- ACLR (R114): the gang's status record is cleared. -/
def execAclr (room : Nat) (f : ArraySlot) (s : State) : Host.Outcome State Fault Refusal :=
  .next (runSlot s room (aclrLegal f) (fun _ => aclrBody s room f))

end Sys2Proof.Machine
end

