-- ==== Sys2Proof/Machine/FabricCore.lean ====
section
/-!
DEFINITION. What every sender of transfers shares (R14, R354 to R359): the choice of link, XIDs, credits, and the start of a transfer.
-/
namespace Sys2Proof.Machine

def codeLinkFailed : Nat := 0x0501
def codeLaneSpared : Nat := 0x0502
def codeUnreachable : Nat := 0x0503
def codePeerDenied : Nat := 0x0504
def codeForeign : Nat := 0x0505
def codeUnarmed : Nat := 0x0506
def codeOverrun : Nat := 0x0507
def codeFabricDesc : Nat := 0x0508
def codeGmChange : Nat := 0x0509

/-- A fault of the fabric (R376): FAB_FAULT with the link, and the event recorder. -/
def fabFault (s : State) (code link : Nat) (items : Items) : State :=
  let s := if regBits s rFabFault 22 22 = 0 then
    regPut (regPut (regPut s rFabFault 15 0 code) rFabFault 21 16 link) rFabFault 22 22 1 else s
  recordFault s code (unitId 5 link) items

def getLink (s : State) (l : Nat) : Link := smGet {} s.fab.links l
def setLink (s : State) (l : Nat) (k : Link) : State := { s with fab := { s.fab with links := smSet {} s.fab.links l k } }

/-- FAB_LNK_STATE.STATE: 0 down, 1 training, 2 up, 3 failed. -/
def linkState (s : State) (l : Nat) : Nat := regBits s (rLnkState l) 2 0

/-- Stairwell hops between two floors (R14). -/
def hops (a b : Nat) : Nat :=
  let d (x y : Nat) : Nat := max x y - min x y
  d (a % 5) (b % 5) + d (a / 5) (b / 5)

/-- The links of a floor that are up, ascending. -/
def upLinks (s : State) (f : Nat) : List Nat := ((upTo 5).map (fun i => 5 * f + i)).filter (fun l => decide (linkState s l = 2))

/-- The links a floor sends on: its own, or those of the nearest floor that has one, the lower floor number among equally near (R357). -/
def sendLinks (s : State) (f : Nat) : List Nat :=
  if (upLinks s f).isEmpty then
    (match (upTo 6).find? (fun h => (upTo 10).any (fun g => decide (hops f g = h) && !(upLinks s g).isEmpty)) with
    | some h => (match (upTo 10).find? (fun g => decide (hops f g = h) && !(upLinks s g).isEmpty) with | some g => upLinks s g | none => [])
    | none => [])
  else upLinks s f

/-- The link a transfer goes out on: position XID mod L. -/
def linkFor (s : State) (f xid : Nat) : Option Nat := let l := sendLinks s f; l[xid % l.length]?

/-- Flits of a transfer of n data bytes (R356). -/
def flitsOf (n : Nat) : Nat := ceilDiv (n + 32) 240

/-- Traffic class of a kind (R354). -/
def classOf (kind : Nat) : Nat := if kind = 8 then 0 else if kind = 4 then 2 else 1

def credit (k : Link) (c : Nat) : Nat := if c = 0 then k.cr0 else if c = 1 then k.cr1 else k.cr2
def spend (k : Link) (c n : Nat) : Link :=
  if c = 0 then { k with cr0 := k.cr0 - n } else if c = 1 then { k with cr1 := k.cr1 - n } else { k with cr2 := k.cr2 - n }

/-- Send what the link's credits allow of each transfer, class by class in issue order (R354). -/
def pumpLink (s : State) (l : Nat) : State :=
  if s.now < (getLink s l).pause then s else
  let go := s.fab.out.foldl (fun (acc : Link × List Xfer) x =>
    if x.waiting ∨ x.link ≠ l ∨ x.unsent = 0 then (acc.1, acc.2 ++ [x])
    else
      let n := min x.unsent (credit acc.1 (classOf x.t.kind))
      let k := spend acc.1 (classOf x.t.kind) n
      ({ k with sent := k.sent + n, lastAck := if k.sent = k.acked then s.now else k.lastAck },
       acc.2 ++ [{ x with unsent := x.unsent - n }])) (getLink s l, [])
  setLink { s with fab := { s.fab with out := go.2 } } l go.1

/-- The resend timeout in cycles, and the life of an XID (R358). -/
def e2eTimeout (s : State) : Nat := 256 * max 1 (regBits s rFabE2e 15 0)
def xidLife (s : State) : Nat := (regBits s rFabE2e 18 16 + 1) * e2eTimeout s

/-- Send a transfer whole, now. -/
def putOnLink (s : State) (x : Xfer) : Xfer :=
  { x with link := (x.via.getD ((linkFor s x.t.sfloor x.t.xid).getD 50)), unsent := flitsOf x.t.data.length, lastSent := s.now }

/-- The lowest XID of a floor that is free. -/
def freeXid (s : State) (f : Nat) : Option Nat := (upTo 16384).find? (fun x => decide (smGet 0 s.fab.xids (f * 16384 + x) = 0))

/-- Start a transfer when its floor has a free XID; otherwise it waits (R358). -/
def startXfer (s : State) (x : Xfer) : State × Xfer :=
  match freeXid s x.t.sfloor with
  | none => (s, { x with waiting := true })
  | some n =>
    let x := putOnLink s { x with t := { x.t with xid := n }, firstSent := s.now, tries := 1, waiting := false }
    ({ s with fab := { s.fab with xids := smSet 0 s.fab.xids (x.t.sfloor * 16384 + n) (s.now + xidLife s) } }, x)

/-- Hand a transfer to the fabric. -/
def sendXfer (s : State) (x : Xfer) : State :=
  let r := startXfer s x
  let s := { r.1 with fab := { r.1.fab with out := r.1.fab.out ++ [r.2] } }
  if r.2.waiting then s else pumpLink s r.2.link

/-- A transfer of this module: kind, ends, wire format, exponent, arguments and data (R356). -/
def mkTransfer (s : State) (sfloor drank dfloor kind wire exp : Nat) (args data : List Byte) : Transfer :=
  { srank := rank s, sfloor := sfloor, drank := drank, dfloor := dfloor, xid := 0, kind := kind, wire := wire, exp := exp,
    len := data.length, step := stepNo s, args := args ++ zeros (16 - args.length), data := data }

/-- Send a transfer that no room waits on. -/
def sendKind (s : State) (sfloor drank dfloor kind : Nat) (args data : List Byte) : State :=
  sendXfer s { t := mkTransfer s sfloor drank dfloor kind 0 0 args data }

/-- Whether a transfer of a kind is not yet acknowledged. -/
def awaiting (s : State) (kind : Nat) : Bool := s.fab.out.any (fun x => decide (x.t.kind = kind))

/-! ### Transfers that arrive (R358, R359) -/

def stDone : Nat := 0
def stDenied : Nat := 1
def stUnarmed : Nat := 2
def stOverrun : Nat := 3
def stFormat : Nat := 4

/-- Whether a kind's reserved argument bytes are 0 and its length agrees with its data (R359, Table 14.4). -/
def headerOk (t : Transfer) : Bool :=
  let z (n : Nat) : Bool := (t.args.drop n).all (fun b => decide (b = 0))
  decide (t.len = t.data.length) && decide (t.args.length = 16) && decide (t.wire ≤ 8) &&
    (match t.kind with
    | 1 => z 3
    | 2 => z 9
    | 3 => z 0
    | 4 => z 0
    | 5 => z 0
    | 6 => z 0
    | 7 => true
    | 8 => z 4 && decide (t.args.getD 1 0 = 0)
    | _ => false)

/-- The module acknowledges a transfer: its tuple (SRANK, SFLOOR, XID, STATUS) goes back to the source floor (R358). -/
def sendAck (s : State) (t : Transfer) (st : Nat) : State :=
  { s with fab := { s.fab with acks := s.fab.acks ++ [(t.srank, t.sfloor, t.xid, st)] } }

/-- Deliver a transfer once (R358): a repeated one is acknowledged with its first status, a new one takes the outcome of `body`, which the
destination keeps for the life of the XID. A body that answers no status leaves the transfer unacknowledged. -/
def deliver (s : State) (t : Transfer) (body : State → State × Option Nat) : State :=
  if t.drank ≠ rank s ∨ 10 ≤ t.dfloor then s
  else
    match s.fab.done.find? (fun d => decide (d.srank = t.srank ∧ d.sfloor = t.sfloor ∧ d.xid = t.xid ∧ s.now < d.expiry)) with
    | some d => sendAck (regCount s rFabStat 31 0 1) t d.status
    | none =>
    let r := if headerOk t then body s else (s, some stFormat)
    match r.2 with
    | none => r.1
    | some st =>
      let s := if st = 0 then r.1 else regCount r.1 rFabStat 63 48 1
      let s := sendAck s t st
      { s with fab := { s.fab with
        done := s.fab.done ++ [{ srank := t.srank, sfloor := t.sfloor, xid := t.xid, status := st, expiry := s.now + xidLife s }] } }

/-- A transfer that must wait for memory is held, once, until a later cycle (R180); another is delivered. -/
def deliverUnless (waits : Bool) (s : State) (t : Transfer) (body : State → State × Option Nat) : State :=
  if !waits then deliver s t body
  else if s.fab.held.any (fun h => decide (h.srank = t.srank ∧ h.sfloor = t.sfloor ∧ h.xid = t.xid)) then s
  else { s with fab := { s.fab with held := s.fab.held ++ [t] } }

end Sys2Proof.Machine
end

