-- ==== Sys2Proof/Machine/Heat.lean ====
section
/-!
DEFINITION. The stretch policy (R459), core voltages (R456), and the faults of power, heat, security and configuration
(R475).
-/
namespace Sys2Proof.Machine

def codePowerInput : Nat := 0x0801
def codePowerOverload : Nat := 0x0802
def codeUndervolt : Nat := 0x0803
def codeRailFailed : Nat := 0x0804
def codeFloorOvertemp : Nat := 0x0810
def codeThermalTrip : Nat := 0x0811
def codeFirmwareSig : Nat := 0x0901
def codeBootFailed : Nat := 0x0902
def codeConfigSig : Nat := 0x0903
def codeRepairCheck : Nat := 0x0904
def codeConfigFailed : Nat := 0x0905
def codePufFailed : Nat := 0x0906
def codeMgmtAuth : Nat := 0x0907

def pwrFault (s : State) (code inst : Nat) (items : Items) : State := raiseFault s rPwrFault 16 code (unitId 14 inst) items
def secFault (s : State) (code : Nat) (items : Items) : State := raiseFault s rSecFault 16 code (unitId 16 0) items
def cfgFault (s : State) (code : Nat) (items : Items) : State := raiseFault s rCfgFault 16 code (unitId 17 0) items

/-- A thermal fault of a floor, which THM_FAULT names. -/
def thmFault (s : State) (code f : Nat) : State :=
  let s := if regBits s rThmFault 20 20 = 0 then regPut (regPut (regPut s rThmFault 15 0 code) rThmFault 19 16 f) rThmFault 20 20 1 else s
  recordFault s code (unitId 15 f) [(f, 2)]

/-! ### Thresholds (Table 18.2), in units of 0.0625 °C -/

/-- THROTTLE in force: values outside 80 to 105 act as the nearer bound (Table 18.10). -/
def throttle (s : State) : Int := 16 * Int.ofNat (min 105 (max 80 (regBits s rThmLimits 7 0)))
def floorTemp (s : State) (f : Nat) : Int := toSigned 12 (regBits s (rThmFloor f) 11 0)
def floorHot (s : State) (f : Nat) : Bool := decide (regBits s (rThmFloor f) 17 17 = 1)
def floorCrit (s : State) (f : Nat) : Bool := decide (regBits s (rThmFloor f) 18 18 = 1)
def floorOver (s : State) (f : Nat) : Bool := decide (regBits s (rThmFloor f) 19 19 = 1)
/-- CEL_TEMP.HOT. -/
def cellarHot (s : State) (c : Nat) : Bool := decide (regBits s (rCelTemp c) 17 17 = 1)
def overBudget (s : State) : Bool := decide (regBits s rPwrAlarm 0 0 = 1)
/-- BUDGET in force (R455). -/
def budget (s : State) : Nat := min 4500 (regBits s rPwrLimit 15 0)

/-- A condition that is not cool (R459). -/
def warmNow (s : State) : Bool :=
  (upTo 10).any (fun f => decide (throttle s - 16 * Int.ofNat (regBits s rThmPolicy 25 21) ≤ floorTemp s f)) ||
    (upTo 20).any (cellarHot s) || decide (9 * budget s < 10 * regBits s rPwrInput 47 32)

/-- Add the present conditions to those seen since the last commit release. -/
def noteHeat (s : State) : State :=
  { s with pol := { s.pol with
    crit := s.pol.crit || (upTo 10).any (floorCrit s)
    hot := s.pol.hot || (upTo 10).any (floorHot s) || (upTo 20).any (cellarHot s) || overBudget s
    warm := s.pol.warm || warmNow s } }

/-- SCH_STRETCH.REQ: the largest standing request. -/
def putRequest (s : State) : State := regPut s rSchStretch 12 8 (if regBits s rThmPolicy 0 0 = 1 then max s.pol.auto s.pol.other else s.pol.other)

/-- The request that R459 forms from the code in force. -/
def policyWant (s : State) (p : Policy) (k : Nat) : Nat × Nat :=
  if p.crit then (16, if p.warm then 0 else p.quiet)
  else if p.hot then
    (if p.auto = k ∧ regBits s rThmPolicy 33 26 < p.since then min 16 (k + regBits s rThmPolicy 4 1) else p.auto, if p.warm then 0 else p.quiet)
  else if !p.warm then
    (if regBits s rThmPolicy 20 5 ≤ p.quiet + 1 ∧ p.auto = k ∧ 0 < k then (k - 1, 0) else (p.auto, p.quiet + 1))
  else (p.auto, 0)

/-- At the release of a commit barrier Travar runs R459 while THM_POLICY.AUTO is 1. -/
def stretchPolicy (s : State) : State :=
  let s := noteHeat s
  let k := regBits s rSchStretch 4 0
  let p := s.pol
  let p := if k = p.lastK then { p with since := p.since + 1 } else { p with since := 1, lastK := k }
  let w := policyWant s p k
  let s' := if regBits s rThmPolicy 0 0 = 1 then { s with pol := { p with auto := w.1, quiet := w.2, crit := false, hot := false, warm := false } }
    else { s with pol := { s.pol with crit := false, hot := false, warm := false } }
  noteHeat (if regBits s rThmPolicy 0 0 = 1 then putRequest s' else s')

/-- At job load and at each restore (R459). -/
def resetPolicy (s : State) : State :=
  let k := regBits s rSchStretch 4 0
  { s with pol := { s.pol with auto := k, lastK := k, quiet := 0, since := regBits s rThmPolicy 33 26 + 1 } }

/-! ### Core voltages (R456, R474) -/

/-- The setting that a request acts as: at least VMIN + 40 mV. -/
def coreSetting (s : State) (f : Nat) : Nat := max (regBits s (rPwrFloor f) 25 16) (max 650 (regBits s (rPwrFloor f) 41 32 + 40))

/-- At a start barrier's release each floor's requested setting takes effect, but not one written in that very cycle. -/
def applyVoltages (s : State) : State :=
  (upTo 10).foldl (fun s f =>
    if regBits s (rPwrFloor f) 41 32 = 0 ∨ smGet 0 s.pol.nextAt f = s.now + 1 then s
    else regPut s (rPwrFloor f) 9 0 (coreSetting s f)) s

/-- Travar or a register write requests a setting. -/
def requestVoltage (s : State) (f mv : Nat) : State :=
  { regPut s (rPwrFloor f) 25 16 mv with pol := { s.pol with nextAt := smSet 0 s.pol.nextAt f (s.now + 1) } }

/-! ### Losing power (R454, R458, R478) -/

/-- The first address that the standby domain holds: the core-private region, which the management SRAM backs (Table 1.3, Table 17.1). -/
def standbyMem : Nat := romBase

/-- The main domains go off: what they hold is lost, and what the standby domain of floor 0 holds stays (R16, R17). The attic's drives keep what is on them. -/
def mainsOff (s : State) : State :=
  let s' := { State.reset with
    pending := s.pending, now := s.now, beat := s.beat, freeCount := s.freeCount
    regs := s.regs.filter (fun r => decide (baseMp ≤ r.1))
    mem := s.mem.filter (fun c => decide (standbyMem ≤ c.1))
    badWords := s.badWords.filter (fun w => decide (standbyMem / 8 ≤ w)), weakWords := s.weakWords.filter (fun w => decide (standbyMem / 8 ≤ w))
    evr := s.evr, irq := s.irq, cvu := s.cvu, mgmt := { s.mgmt with lockout := 1 }, sec := s.sec, pol := s.pol, lastRead := s.lastRead
    att := { State.reset.att with epochs := s.att.epochs, drives := s.att.drives }
    por := { State.reset.por with challenge := s.por.challenge } }
  (upTo 31).foldl (fun s i => regPut s rPwrStatus (i + 1) (i + 1) 0) s'

/-- Every domain loses power, standby included. The flash and the attic's drives keep what they hold. -/
def powerLoss (s : State) : State :=
  { State.reset with
    pending := s.pending, freeCount := s.freeCount
    sec := { State.reset.sec with flash := s.sec.flash }
    att := { State.reset.att with epochs := s.att.epochs, drives := s.att.drives }
    mgmt := { State.reset.mgmt with present := s.mgmt.present } }

/-- THERMAL_TRIP (Table 18.2, R482): the hardware switches the main domains off and drives THERMTRIP_N low; the module has failed. -/
def thermalTrip (s : State) (f : Nat) : State :=
  if s.mgmt.trip then s
  else
    let s := mainsOff (sendAbort (thmFault s codeThermalTrip f) codeThermalTrip)
    { s with mgmt := { s.mgmt with trip := true, failed := some codeThermalTrip } }

end Sys2Proof.Machine
end

