-- ==== Sys2Proof/Machine/Digest.lean ====
section
/-!
DEFINITION. SHAKE256 (the digests of R124, R461 to R470) and cyclic check values (R443, R444).
-/
namespace Sys2Proof.Machine

/-! ### The permutation under SHAKE256

A lane is a number below 2^64; the state is five rows of five lanes. The round constants and the lane turns are formed
by the feedback register and the lane walk that define them, and stand in no table. -/

/-- The feedback register, one place on. -/
def tapNext (r : Nat) : Nat := if 2 * r < 256 then 2 * r else Nat.xor (2 * r) 0x171

/-- The word one round puts on its first lane, and the feedback register after the seven taps it takes. -/
def roundWord (r : Nat) : Nat × Nat :=
  [0, 1, 3, 7, 15, 31, 63].foldl (fun p bit => (p.1 + p.2 % 2 * 2 ^ bit, tapNext p.2)) (0, r)

/-- A lane turned left. -/
def turnLane (k w : Nat) : Nat := w * 2 ^ k % 2 ^ 64 + w / 2 ^ (64 - k)

/-- Each column's parity put on its two neighbours. -/
def mixColumns (rows : List (List Nat)) : List (List Nat) :=
  let par := rows.foldl (List.zipWith Nat.xor) [0, 0, 0, 0, 0]
  let put := List.zipWith Nat.xor (par.rotateLeft 4) ((par.rotateLeft 1).map (turnLane 1))
  rows.map (List.zipWith Nat.xor put)

/-- The walk over the lanes but the first: the lane at column `x` of row `y`, turned by the walk's `t`-th triangular number,
goes to the walk's next place. -/
def walkLanes (a : List Nat) : Nat → Nat → Nat → Nat → List Nat → List Nat
  | 0, _, _, _, out => out
  | n + 1, t, x, y, out =>
    let row := (2 * x + 3 * y) % 5
    walkLanes a n (t + 1) y row (out.set (5 * row + y) (turnLane (t * (t + 1) / 2 % 64) (a.getD (5 * y + x) 0)))

/-- Five rows of a list of lanes. -/
def laneRows : Nat → List Nat → List (List Nat)
  | 0, _ => []
  | n + 1, l => l.take 5 :: laneRows n (l.drop 5)

/-- Within a row, each lane changed by the two after it. -/
def mixRow (row : List Nat) : List Nat :=
  List.zipWith Nat.xor row
    (List.zipWith (fun p q => Nat.land (2 ^ 64 - 1 - p) q) (row.rotateLeft 1) (row.rotateLeft 2))

/-- `n` rounds, with the feedback register running on through them. -/
def permuteRounds : Nat → Nat → List Nat → List Nat
  | 0, _, lanes => lanes
  | n + 1, r, lanes =>
    let flat := (mixColumns (laneRows 5 lanes)).flatten
    let moved := walkLanes flat 24 1 1 0 flat
    let rows := ((laneRows 5 moved).map mixRow).flatten
    let rc := roundWord r
    permuteRounds n rc.2 (rows.modifyHead (Nat.xor rc.1))

def permuteState (lanes : List Nat) : List Nat := permuteRounds 24 1 lanes

/-! ### SHAKE256 -/

/-- Bytes absorbed, and bytes given, for each use of the permutation. -/
def spongeRate : Nat := 136

/-- One block of the message laid on the first lanes, and the permutation. -/
def absorbBlock (lanes : List Nat) (blk : List Byte) : List Nat :=
  let words := (chunks 8 17 blk).map leNat
  permuteState (List.zipWith Nat.xor lanes (words ++ List.replicate (25 - words.length) 0))

/-- The message with its closing bits: 11111 after its last byte, zeros, and a one in the block's last bit. -/
def closeMessage (m : List Byte) : List Byte :=
  let gap := (spongeRate - (m.length + 1) % spongeRate) % spongeRate
  let open_ := m ++ 0x1F#8 :: List.replicate gap 0
  open_.dropLast ++ [open_.getLastD 0 ||| 0x80#8]

def giveBytes : Nat → List Nat → List Byte
  | 0, _ => []
  | n + 1, lanes => ((lanes.take 17).map (leBytes 8)).flatten ++ giveBytes n (permuteState lanes)

/-- `n` bytes of SHAKE256 of a message. -/
def shake256 (m : List Byte) (n : Nat) : List Byte :=
  let closed := closeMessage m
  let blocks := chunks spongeRate (closed.length / spongeRate) closed
  (giveBytes (n / spongeRate + 1) (blocks.foldl absorbBlock (List.replicate 25 0))).take n

/-- The 64-B digest used throughout. -/
def digest64 (m : List Byte) : List Byte := shake256 m 64

/-! ### Check values (R443, R444) -/

/-- Reverse the low `w` bits of a number. -/
def reflectBits : Nat → Nat → Nat
  | 0, _ => 0
  | w + 1, x => (x % 2) * 2 ^ w + reflectBits w (x / 2)

/-- One bit of a reflected division: polynomial already reflected. -/
def crcBitR (poly v : Nat) : Nat := if v % 2 = 1 then Nat.xor (v / 2) poly else v / 2

def crcByteR (poly v : Nat) (b : Byte) : Nat :=
  let x := Nat.xor v b.toNat
  crcBitR poly (crcBitR poly (crcBitR poly (crcBitR poly (crcBitR poly (crcBitR poly (crcBitR poly (crcBitR poly x)))))))

/-- CRC-32C of some bytes (R444): polynomial 0x1EDC6F41, reflected, started and ended with all ones. -/
def crc32c (m : List Byte) : Nat := Nat.xor (m.foldl (crcByteR 0x82F63B78) 0xFFFFFFFF) 0xFFFFFFFF

/-- CRC-32C with a fold value processed as 8 leading bytes (R444). -/
def crcFold (fold : Nat) (m : List Byte) : Nat := crc32c (leBytes 8 fold ++ m)

/-- The settings of a check value (R443). -/
structure CheckCfg where
  width : Nat
  poly : Nat
  init : Nat
  xor : Nat
  reflect : Bool
  deriving DecidableEq, Repr

def checkBit (c : CheckCfg) (r : Nat) : Nat :=
  if r.testBit (c.width - 1) then Nat.xor (2 * r) c.poly % 2 ^ c.width else 2 * r % 2 ^ c.width

/-- One byte of a check value. -/
def checkByte (c : CheckCfg) (r : Nat) (b : Byte) : Nat :=
  let b := if c.reflect then reflectBits 8 b.toNat else b.toNat
  let r := Nat.xor r (b <<< (c.width - 8))
  checkBit c (checkBit c (checkBit c (checkBit c (checkBit c (checkBit c (checkBit c (checkBit c r)))))))

/-- The running value finalised. -/
def checkFinal (c : CheckCfg) (r : Nat) : Nat := Nat.xor (if c.reflect then reflectBits c.width r else r) c.xor

/-- CRC-64 (ECMA-182) of some bytes (Table 17.4). -/
def crc64Cfg : CheckCfg := { width := 64, poly := 0x42F0E1EBA9EA3693, init := 0, xor := 0, reflect := false }
def crc64 (m : List Byte) : Nat := checkFinal crc64Cfg (m.foldl (checkByte crc64Cfg) crc64Cfg.init)

end Sys2Proof.Machine
end

