-- ==== Sys2Proof/Machine/Pack.lean ====
section
/-!
DEFINITION. Cellar-pack (R157 to R162, Tables 6.5 to 6.7): packing and unpacking a block of 4,096 B, its slot, overflow slot and check,
and the unpacked copy that the block's home cellar holds.
-/
namespace Sys2Proof.Machine

def packBytes : Nat := 4096

/-- A pack descriptor in device memory (Table 6.5). -/
def packDescAt (s : State) (a : Nat) : PackDesc :=
  { slots := memNat s a 8, blocks := memNat s (a + 8) 4, scode := memNat s (a + 0xC) 1, pool := memNat s (a + 0x10) 8,
    pslots := memNat s (a + 0x18) 4, map := memNat s (a + 0x20) 8 }

/-- Slot size S by SCODE. -/
def slotBytes (scode : Nat) : Nat := if scode = 0 then 1024 else if scode = 1 then 2048 else 4160

/-- Address of slot j. -/
def slotAddr (d : PackDesc) (j : Nat) : Nat := d.slots + j * slotBytes d.scode

/-- Data sectors that a slot holds. -/
def slotSectors (d : PackDesc) : Nat := slotBytes d.scode / 64 - 1

/-! ### Line codes (Table 6.7) -/

/-- The 16 words of a line. -/
def lineWords (l : List Byte) : List Nat := (chunks 4 17 l).map leNat

/-- The differences d_1 to d_15. -/
def lineDeltas (ws : List Nat) : List Int := (ws.drop 1).map (fun w => toSigned 32 (w + 2 ^ 32 - ws.headD 0))

def deltasFit (ds : List Int) (n : Nat) : Bool := ds.all (fun d => decide (-(2 ^ (n - 1) : Int) ≤ d) && decide (d < (2 ^ (n - 1) : Int)))

/-- The first code that represents a line, and its payload. -/
def packLine (l : List Byte) : Nat × List Byte :=
  let ws := lineWords l
  let ds := lineDeltas ws
  let w0 := leBytes 4 (ws.headD 0)
  if l.all (fun b => decide (b = 0)) then (0, [])
  else if ds.all (fun d => decide (d = 0)) then (1, w0)
  else if deltasFit ds 4 then
    (2, w0 ++ (chunks 2 9 (ds.map (ofSigned 4))).map (fun p => BitVec.ofNat 8 (p.headD 0 + 16 * p.getD 1 0)))
  else if deltasFit ds 8 then (3, w0 ++ ds.map (fun d => BitVec.ofNat 8 (ofSigned 8 d)))
  else if deltasFit ds 16 then (4, w0 ++ (ds.map (fun d => leBytes 2 (ofSigned 16 d))).flatten)
  else (5, l)

/-- Payload bytes of a line code; none for a reserved code. -/
def payloadBytes (c : Nat) : Option Nat := [0, 4, 12, 19, 34, 64][c]?

/-- A line from w0 and its differences. -/
def lineOfDeltas (w0 : Nat) (n : Nat) (ds : List Nat) : List Byte :=
  leBytes 4 w0 ++ (ds.map (fun d => leBytes 4 (ofSigned 32 (Int.ofNat w0 + toSigned n d)))).flatten

/-- Decode one line of code `c`. -/
def unpackLine (c : Nat) (p : List Byte) : List Byte :=
  let w0 := leNat (p.take 4)
  let t := p.drop 4
  match c with
  | 0 => zeros 64
  | 1 => lineOfDeltas w0 4 (List.replicate 15 0)
  | 2 => lineOfDeltas w0 4 (((t.map (fun b => [b.toNat % 16, b.toNat / 16])).flatten).take 15)
  | 3 => lineOfDeltas w0 8 (t.map (fun b => b.toNat))
  | 4 => lineOfDeltas w0 16 ((chunks 2 16 t).map leNat)
  | _ => p

/-- A packed block: N, RAW, the 32 header bytes, and its data sectors (R159). -/
def packBlock (bs : List Byte) : Nat × Nat × List Byte × List Byte :=
  let ls := (chunks 64 65 bs).map packLine
  let p := (ls.map (fun l => l.2)).flatten
  let n := ceilDiv p.length 64
  if 64 ≤ n then (64, 1, zeros 32, bs)
  else (n, 0, (chunks 2 33 (ls.map (fun l => l.1))).map (fun c => BitVec.ofNat 8 (c.headD 0 + 16 * c.getD 1 0)),
        p ++ zeros (64 * n - p.length))

/-- Decode the lines in turn; none when the payloads run out. -/
def unpackLines : List Nat → List Byte → Option (List Byte × List Byte)
  | [], p => some ([], p)
  | c :: cs, p =>
    match payloadBytes c with
    | none => none
    | some n => if p.length < n then none else (unpackLines cs (p.drop n)).map (fun r => (unpackLine c (p.take n) ++ r.1, r.2))

/-- The fold value of block j (R161). -/
def packFold (d : PackDesc) (j : Nat) : Nat := d.slots + packBytes * j

/-- The logical bytes of a sector 0 and its data sectors; none when the block's structure fails (R161): N exceeds 64, a reserved line code appears, or the
payload lengths do not fill exactly P bytes. -/
def unpackData (s0 data : List Byte) : Option (List Byte) :=
  let w := leNat (s0.take 8)
  let n := nbits w 6 0
  let codes := (((s0.drop 8).take 32).map (fun b => [b.toNat % 16, b.toNat / 16])).flatten
  let p := ((codes.map payloadBytes).map (fun o => o.getD 0)).foldl (fun a b => a + b) 0
  if 64 < n then none
  else if nbits w 7 7 = 1 then (if n = 64 then some data else none)
  else if n ≠ ceilDiv p 64 then none else (unpackLines codes data).map (fun x => x.1)

/-- Unpack a block from its sector 0 and its data sectors (R161); none when its structure or its check fails. -/
def unpackBlock (d : PackDesc) (j : Nat) (s0 data : List Byte) : Option (List Byte) :=
  let w := leNat (s0.take 8)
  if nbits w 8 8 ≠ b2n (decide (slotSectors d < nbits w 6 0)) then none
  else
    match unpackData s0 data with
    | none => none
    | some bs => if crcFold (packFold d j) bs = leNat ((s0.drop 40).take 4) then some bs else none

/-- The bytes at a backing address as stored, with the fault of reading them. -/
def storedAt (s : State) (p n : Nat) : List Byte × Nat :=
  (lineSpans p n).foldl (fun x q =>
    let c := readCodeAt s q.1 q.2
    (x.1 ++ (if c = 0 then memBytes s q.1 q.2 else zeros q.2), firstCode x.2 c)) ([], 0)

/-- Where the N data sectors of a block lie: those of its slot, and the rest in its overflow slot (R158), each as an address and a length. -/
def sectorRanges (d : PackDesc) (j n oidx : Nat) : List (Nat × Nat) :=
  let k := min n (slotSectors d)
  (slotAddr d j + 64, 64 * k) :: (if n ≤ k then [] else [(d.pool + oidx * packBytes, 64 * (n - k))])

/-- The ranges that hold a stored block: sector 0, and, where N and OVF agree with each other and with S (R161), its data sectors. -/
def blockRanges (s : State) (d : PackDesc) (j : Nat) : List (Nat × Nat) :=
  let w := leNat (storedAt s (slotAddr d j) 8).1
  let n := nbits w 6 0
  (slotAddr d j, 64) :: (if 64 < n ∨ nbits w 8 8 ≠ b2n (decide (slotSectors d < n)) then [] else sectorRanges d j n (nbits w 63 32))

/-- The logical bytes of a stored block, or the fault of reading or unpacking it (R161). -/
def unpackStored (s : State) (d : PackDesc) (j : Nat) : List Byte × Nat :=
  let x := (blockRanges s d j).foldl (fun x q => let y := storedAt s q.1 q.2; (x.1 ++ y.1, firstCode x.2 y.2)) ([], 0)
  if x.2 ≠ 0 then (zeros packBytes, x.2)
  else
    match unpackBlock d j (x.1.take 64) (x.1.drop 64) with
    | some bs => (bs, 0)
    | none => (zeros packBytes, codePackCorrupt)

/-- The block's logical bytes as its home cellar holds them, or as they are stored; and the fault of reading them. -/
def packPeek (s : State) (d : PackDesc) (j : Nat) : List Byte × Nat :=
  match smGet none s.cel.packs (slotAddr d j) with
  | some b => (smGetList 0 b.data 0 packBytes, 0)
  | none => unpackStored s d j

/-- The block's home cellar brings it in unpacked on the first access (R162); a fault of the read is recorded (R168). -/
def packRead (s : State) (d : PackDesc) (j unit : Nat) : State × Nat :=
  match smGet none s.cel.packs (slotAddr d j) with
  | some _ => (s, 0)
  | none =>
    let x := unpackStored s d j
    let t := (blockRanges s d j).foldl (fun t q => (fetchVia (fun a => a) t q.1 q.2 unit).1) s
    if x.2 = 0 then
      let b : PackBlk := { desc := d, j := j, data := smSetList 0 [] 0 x.1 }
      ({ t with cel := { t.cel with packs := smSet none t.cel.packs (slotAddr d j) (some b) } }, 0)
    else (if x.2 = codePackCorrupt then recordFault t x.2 unit [(slotAddr d j, 8)] else t, x.2)

/-- Write logical bytes of a block that its home cellar holds. -/
def packWrite (s : State) (d : PackDesc) (j off : Nat) (bs : List Byte) : State :=
  match smGet none s.cel.packs (slotAddr d j) with
  | some b =>
    let b' := { b with data := smSetList 0 b.data off bs, dirty := true }
    { s with cel := { s.cel with packs := smSet none s.cel.packs (slotAddr d j) (some b') } }
  | none => s

/-! ### Writing a block back (R160, R162) -/

def codePackPool : Nat := 0x0204

/-- The byte of the pool bitmap that holds overflow slot i's bit. -/
def poolByte (s : State) (d : PackDesc) (i : Nat) : Nat := leNat (storedAt s (d.map + i / 8) 1).1

/-- Whether overflow slot i is in use. -/
def poolBit (s : State) (d : PackDesc) (i : Nat) : Bool := (poolByte s d i).testBit (i % 8)

def setPoolBit (s : State) (d : PackDesc) (i : Nat) (v : Bool) : State :=
  let b := poolByte s d i
  let b' := if v then Nat.lor b (2 ^ (i % 8)) else b - (if b.testBit (i % 8) then 2 ^ (i % 8) else 0)
  (sendVia (fun a => a) s (d.map + i / 8) (leBytes 1 b') (unitId 2 0)).1

/-- The cellar whose sub-pool a block uses: the one that its sector 0 lies in. -/
def packCellar (s : State) (d : PackDesc) (j : Nat) : Nat :=
  match chanOf s (slotAddr d j) with | some (id, _) => id / 32 | none => 0

/-- The overflow slot that the stored block holds. -/
def heldOverflow (s : State) (d : PackDesc) (j : Nat) : Option Nat :=
  let w := leNat (storedAt s (slotAddr d j) 8).1
  if nbits w 8 8 = 1 then some (nbits w 63 32) else none

/-- The overflow slot a block takes when it needs one. -/
def takeOverflow (s : State) (d : PackDesc) (j : Nat) : Option Nat :=
  match heldOverflow s d j with
  | some i => some i
  | none => let c := packCellar s d j; ((upTo d.pslots).map (fun i => c * d.pslots + i)).find? (fun i => !(poolBit s d i))

/-- Sector 0 of a packed block (Table 6.6), for overflow slot `o`. -/
def sectorZero (fold : Nat) (bs : List Byte) (p : Nat × Nat × List Byte × List Byte) (o : Option Nat) : List Byte :=
  let w := p.1 + p.2.1 * 2 ^ 7 + b2n o.isSome * 2 ^ 8 + o.getD (2 ^ 32 - 1) * 2 ^ 32
  leBytes 8 w ++ p.2.2.1 ++ leBytes 4 (crcFold fold bs) ++ zeros 20

/-- Store a block packed, in its slot and, past it, in overflow slot `o`. -/
def storePacked (s : State) (d : PackDesc) (j : Nat) (bs : List Byte) (o : Option Nat) (unit : Nat) : State :=
  let p := packBlock bs
  let k := 64 * slotSectors d
  let s := (sendVia (fun a => a) s (slotAddr d j) (sectorZero (packFold d j) bs p o ++ p.2.2.2.take k) unit).1
  match o with
  | some i => (sendVia (fun a => a) s (d.pool + i * packBytes) (p.2.2.2.drop k) unit).1
  | none => s

/-- Write back the block that its home cellar holds at a slot; a full sub-pool stops the step and leaves it held. -/
def packWriteback (s : State) (b : PackBlk) : State :=
  let d := b.desc
  let drop (s : State) : State := { s with cel := { s.cel with packs := smSet none s.cel.packs (slotAddr d b.j) none } }
  if !b.dirty then drop s
  else
    let bs := smGetList 0 b.data 0 packBytes
    let unit := unitId 2 (packCellar s d b.j)
    let held := heldOverflow s d b.j
    if slotSectors d < (packBlock bs).1 then
      match takeOverflow s d b.j with
      | none => sendAbort (recordFault s codePackPool unit [(slotAddr d b.j, 8)]) codePackPool
      | some i => drop (storePacked (setPoolBit s d i true) d b.j bs (some i) unit)
    else
      let s := match held with | some i => setPoolBit s d i false | none => s
      drop (storePacked s d b.j bs none unit)

/-! ### Access by the units that interpret packed regions (R157) -/

/-- The pack descriptors in force: one at the start of each allocation with the PACK attribute (log 150); a reserved SCODE describes no region. -/
def packDescs (s : State) : List PackDesc := (s.cel.packed.map (packDescAt s)).filter (fun d => decide (d.scode ≤ 2))

/-- The packed block that a logical stack address lies in, and the offset there (R157, R161). -/
def packAt (s : State) (p : Nat) : Option (PackDesc × Nat × Nat) :=
  ((packDescs s).find? (fun d => decide (d.slots ≤ p) && decide (p < d.slots + packBytes * d.blocks))).map
    (fun d => (d, (p - d.slots) / packBytes, (p - d.slots) % packBytes))

/-- What an interpreting unit reads at a backing address, packed blocks as their logical bytes; and the fault. -/
def viewAt (s : State) (p n : Nat) : List Byte × Nat :=
  (lineSpans p n).foldl (fun x q =>
    let y := match packAt s q.1 with
      | some (d, j, o) => let b := packPeek s d j; ((b.1.drop o).take q.2, b.2)
      | none => storedAt s q.1 q.2
    (x.1 ++ y.1, firstCode x.2 y.2)) ([], 0)

/-- What that read leaves behind, one read a line: a packed block is brought in, and faults are recorded. -/
def noteView (s : State) (p n unit : Nat) : State :=
  (lineSpans p n).foldl (fun t q =>
    match packAt s q.1 with
    | some (d, j, _) => (packRead t d j unit).1
    | none => noteReadAt t q.1 q.1 (readCodeAt s q.1 q.2) unit) s

/-- A write by an interpreting unit at a backing address: into the unpacked copy of a packed block, else to memory. -/
def viewPut (s : State) (p : Nat) (bs : List Byte) (unit : Nat) : State × Nat :=
  (lineSpans p bs.length).foldl (fun x q =>
    let b := (bs.drop (q.1 - p)).take q.2
    let y := match packAt s q.1 with
      | some (d, j, o) => let r := packRead x.1 d j unit; (if r.2 = 0 then packWrite r.1 d j o b else r.1, r.2)
      | none => let w := writeAt x.1 q.1 b; (noteWriteAt w.1 q.1 q.1 w.2 unit, w.2)
    (y.1, firstCode x.2 y.2)) (s, 0)

/-- A fetch by an interpreting unit from a device address. -/
def fetchView (s : State) (a n unit : Nat) : State × List Byte × Nat := (noteView s (translate s a) n unit, viewAt s (translate s a) n)

/-! ### Packed blocks in the attic (R162) -/

/-- The bytes of whole blocks from logical address `p` as the attic holds them: each block's sector 0 and its N data sectors, no overflow slot named. -/
def atticBlocks (p : Nat) (bs : List Byte) : List Byte :=
  (((chunks packBytes (bs.length + 1) bs).zipIdx).map (fun c =>
    let k := packBlock c.1
    sectorZero (p + packBytes * c.2) c.1 k none ++ k.2.2.2)).flatten

/-- The logical bytes of a run of such blocks, which `tail` bytes for each block may follow; none where one is malformed. The record's own CHECK covers them,
and each block gets a new one where it is stored (log 150). -/
def openBlocks (tail : Nat) : Nat → Nat → List Byte → Option (List Byte)
  | _, 0, _ => some []
  | done, k + 1, b =>
    if b.length = tail * done then some []
    else
      let n := nbits (leNat (b.take 8)) 6 0
      match unpackData (b.take 64) ((b.drop 64).take (64 * n)) with
      | none => none
      | some bs => (openBlocks tail (done + 1) k (b.drop (64 + 64 * n))).map (fun r => bs ++ r)

/-- Store whole logical blocks at a logical address of a packed region, as its cellars' engines write them back. -/
def putPacked (s : State) (p : Nat) (bs : List Byte) : State :=
  ((chunks packBytes (bs.length + 1) bs).zipIdx).foldl (fun s c =>
    match packAt s (p + packBytes * c.2) with
    | some (d, j, _) => packWriteback s { desc := d, j := j, data := smSetList 0 [] 0 c.1, dirty := true }
    | none => putBytes s (p + packBytes * c.2) c.1) s

end Sys2Proof.Machine
end

