-- ==== Sys2Proof/Machine/Cellars.lean ====
section
/-!
DEFINITION. The cellars' own commands (chapters 6 and 7): patrol scrub (R176), retrains (R179 to R181, R184), map-out (R182), die temperature
(R177, R178), floating moves (R153 to R155) and write-back of packed blocks (R162).
-/
namespace Sys2Proof.Machine

/-! ### Channels -/

/-- Lines of a channel. -/
def chanLines : Nat := 50331648

/-- Channel states of Table 7.4. -/
def chState (s : State) (id : Nat) : Nat := regBits s (rMemChState (id / 32) (id % 32)) 2 0
def setChState (s : State) (id v : Nat) : State := regPut s (rMemChState (id / 32) (id % 32)) 2 0 v

def getChan (s : State) (id : Nat) : Chan := smGet {} s.cel.chans id
def setChan (s : State) (id : Nat) (c : Chan) : State := { s with cel := { s.cel with chans := smSet {} s.cel.chans id c } }

def quiesced (s : State) (c : Nat) : Bool := decide (regBits s (rMemStatus c) 1 1 = 1)

/-- The channels of a cellar that are retraining, lowest first. -/
def retrainingOf (s : State) (c : Nat) : List Nat := (upTo 32).filter (fun ch => decide (chState s (c * 32 + ch) = 1))

/-- The channels in PENDING_OUT or FAILED, those that failed at bring-up among them (R182, R185). -/
def leavingChans (s : State) : List Nat := (upTo 640).filter (fun id => decide (chState s id = 2 ∨ chState s id = 3))

/-- MEM_STATUS.RETRAINING and ANY of a cellar follow its channels' states. -/
def retrainSums (s : State) (c : Nat) : State :=
  let l := retrainingOf s c
  regPut (regPut s (rMemStatus c) 12 8 (l.headD 0)) (rMemStatus c) 13 13 (b2n (!(l.isEmpty)))

/-- CEL_LIVE.LEAVING follows them too. -/
def channelSums (s : State) (c : Nat) : State :=
  let s := retrainSums s c
  regPut s rCelLive 31 22 (leavingChans s).length

/-- The live channel list (R171, R172): its order, CEL_LIVE, CEL_LAST and the cellars' counts. -/
def setLive (s : State) (ids : List Nat) : State :=
  let key (id : Nat) : Nat := id % 32 * 20 + id / 32
  let l := ids.mergeSort (fun a b => decide (key a ≤ key b))
  let s := { s with cel := { s.cel with live := l } }
  let s := regPut (regPut s rCelLive 9 0 l.length) rCelLive 21 10 (3 * l.length)
  let s := regSet s rCelLast (BitVec.ofNat 64 (3 * gib * l.length - 1))
  let s := (upTo 20).foldl (fun s c => retrainSums (regPut s (rMemStatus c) 7 2 (l.filter (fun id => decide (id / 32 = c))).length) c) s
  regPut s rCelLive 31 22 (leavingChans s).length

/-- The stack address of a channel-local offset: the inverse of R172. -/
def chanAddr (s : State) (id off : Nat) : Nat :=
  let inZone (l : List Nat) (o base : Nat) : Nat := (o / 256 * l.length + l.idxOf id) * 256 + o % 256 + base
  let g := unit64 * zoneG s
  if off < g then inZone s.cel.live off 0 else inZone (nearList s (id / 64)) (off - g) (nearZone s (id / 64))

/-- A channel enters FAILED (R181, R182): the step stops. -/
def failChannel (s : State) (id line : Nat) : State :=
  let s := setChan s id { getChan s id with retrain := none }
  let s := setChState (regPut s (rMemChState (id / 32) (id % 32)) 4 4 0) id 3
  cellarFault (channelSums s (id / 32)) id codeChannelFailed line

/-! ### Scrub (R176) -/

/-- What a scrub read of a line leaves (Table 7.2, R175, R182): it reads the stored bits, whatever the cache holds clean. -/
def scrubLine (s : State) (id line : Nat) : State :=
  let p := chanAddr s id (64 * line) / 64
  let err := rMemChErr (id / 32) (id % 32)
  let ue := rMemChUe (id / 32) (id % 32)
  let x := Config.stackCheck s.now p
  let syms := x % 5
  let bad := decide (p ∈ s.poison)
  if cached s p && Config.lineDirty s.now p then s
  else if syms = 4 ∨ (bad = true ∧ 2 ≤ syms) then
    let s := uncorrectable s (64 * p) id (64 * line)
    if bad then s
    else
      let n := (getChan s id).scrubPoison + 1
      let s := setChan (regCount s ue 63 58 1) id { getChan s id with scrubPoison := n }
      if 64 < n then failChannel s id line else s
  else if bad then regCount s ue 31 16 1
  else
    let s := if x / 5 % 3 = 1 then regCount s err 43 24 1 else s
    let s := if x / 5 % 3 = 2 then regCount s err 63 44 1 else s
    if 0 < syms then regCount s err 23 0 1 else s

/-- SCRUB_READ (R176): the next line of a live channel is read, one per 2,048 cycles. -/
def execScrubRead (cellar ch : Nat) (s : State) : Host.Outcome State Fault Refusal :=
  let id := cellar * 32 + ch
  let c := getChan s id
  if cellar < 20 ∧ ch < 32 ∧ id ∈ s.cel.live ∧ (chState s id = 0 ∨ chState s id = 2) ∧ regBits s (rMemCtrl cellar) 6 6 = 1 ∧
      !(quiesced s cellar) ∧ (c.lastScrub = 0 ∨ c.lastScrub + 2048 ≤ s.now) then
    let line := regBits s (rMemChState cellar ch) 63 32
    let s := regPut (setChan s id { c with lastScrub := s.now }) (rMemChState cellar ch) 63 32 ((line + 1) % chanLines)
    .next (scrubLine s id line)
  else .next s

/-! ### Retrains -/

/-- A retrain starts (R179): kind 0 periodic, 1 drift, 2 firmware. -/
def startRetrain (s : State) (id kind : Nat) : State :=
  let c := getChan s id
  let s := setChan s id { c with retrain := some { kind := kind, start := s.now, prior := chState s id } }
  let s := setChState s id 1
  channelSums (regPut s (rMemChRetrain (id / 32) (id % 32)) 49 48 0) (id / 32)

/-- Periodic retrain interval of a cellar: values below 28 act as 28. -/
def retrainPeriod (s : State) (c : Nat) : Nat := 2 ^ (max 28 (regBits s (rMemCtrl c) 5 0))

/-- Whether a channel is due for a periodic retrain. -/
def retrainDue (s : State) (id : Nat) : Bool :=
  decide (chState s id = 0 ∨ chState s id = 2) && !(quiesced s (id / 32)) &&
    decide ((getChan s id).lastTrain + retrainPeriod s (id / 32) ≤ s.now)

/-- Whether a periodic retrain of the channel may start in this cycle (R179). -/
def periodicMay (s : State) (id : Nat) : Bool :=
  if schState s = 3 then
    decide (s.cel.relAt.map (fun t => t + 1) = some s.now) && decide (id / 64 ∈ s.cel.relFloors) && !(s.cel.periodicUsed)
  else true

/-- Whether a periodic retrain runs. -/
def periodicRuns (s : State) : Bool := s.cel.chans.any (fun c => match c.2.retrain with | some r => decide (r.kind = 0) | none => false)

/-- PERIODIC_RETRAIN_START (R179): the lowest due channel that may start begins its retrain, one at a time. -/
def execPeriodicRetrainStart (s : State) : Host.Outcome State Fault Refusal :=
  if periodicRuns s then .next s
  else
    match (s.cel.live.filter (fun id => retrainDue s id && periodicMay s id)).min? with
    | some id => .next (startRetrain { s with cel := { s.cel with periodicUsed := true } } id 0)
    | none => .next s

/-- DRIFT_RETRAIN_START (R179, R184): 16 more corrected interface errors within 2^20 cycles; merged when the channel retrains. -/
def execDriftRetrainStart (cellar ch : Nat) (s : State) : Host.Outcome State Fault Refusal :=
  let id := cellar * 32 + ch
  if cellar < 20 ∧ ch < 32 ∧ id ∈ s.cel.live ∧ (chState s id = 0 ∨ chState s id = 2) ∧ !(quiesced s cellar) then .next (startRetrain s id 1)
  else .next s

/-- FIRMWARE_RETRAIN (R179, R184): MEM_CH_STATE.RETRAIN is written; the request is started, merged or refused, and the bit clears. -/
def execFirmwareRetrain (cellar ch : Nat) (s : State) : Host.Outcome State Fault Refusal :=
  let id := cellar * 32 + ch
  if cellar < 20 ∧ ch < 32 ∧ id ∈ s.cel.live ∧ (chState s id = 0 ∨ chState s id = 2) ∧ !(quiesced s cellar) then .next (startRetrain s id 2)
  else .next s

/-- Thresholds of R185, step 5. -/
def marginsMeet (rdT wrT rdV wrV : Nat) : Bool := decide (20 ≤ rdT) && decide (20 ≤ wrT) && decide (24 ≤ rdV) && decide (24 ≤ wrV)

/-- The smallest margins of a channel's lanes, as measured. -/
def recordMargins (s : State) (id rdT wrT rdV wrV : Nat) : State :=
  let m := rMemChMargin (id / 32) (id % 32)
  regPut (regPut (regPut (regPut s m 7 0 rdT) m 15 8 wrT) m 23 16 rdV) m 31 24 wrV

/-- What ends a retrain leaves in MEM_CH_RETRAIN. -/
def recordRetrain (s : State) (id len : Nat) : State :=
  let r := rMemChRetrain (id / 32) (id % 32)
  let s := regCount (regPut s r 15 0 (satTo 0xFFFF len)) r 31 16 1
  if 2600 < len then regCount s r 47 32 1 else s

/-- RETRAIN_COMPLETE (R181, R184): an attempt ends with the margins it measured. A failed one is repeated twice; the third fails the channel. -/
def execRetrainComplete (cellar ch rdT wrT rdV wrV : Nat) (s : State) : Host.Outcome State Fault Refusal :=
  let id := cellar * 32 + ch
  let c := getChan s id
  match c.retrain with
  | none => .next s
  | some r =>
    let st := rMemChState cellar ch
    let s := recordMargins s id rdT wrT rdV wrV
    if marginsMeet rdT wrT rdV wrV then
      let s := recordRetrain (setChan s id { c with lastTrain := s.now, retrain := none }) id (s.now - r.start)
      let s := setChState s id (if regBits s st 4 4 = 1 then 2 else r.prior)
      .next (channelSums (regPut s st 4 4 0) cellar)
    else
      let s := regCount s (rMemChRetrain cellar ch) 49 48 1
      if regBits s (rMemChRetrain cellar ch) 49 48 < 3 then .next s
      else .next (failChannel (recordRetrain s id (s.now - r.start)) id 0)

/-- CHANNEL_MAPOUT (R182, R184): MEM_CH_STATE.MAPOUT is written: a LIVE channel is PENDING_OUT at once, a RETRAINING one when its retrain
ends, and on any other the write has no effect. -/
def execChannelMapout (cellar ch : Nat) (s : State) : Host.Outcome State Fault Refusal :=
  let id := cellar * 32 + ch
  if 20 ≤ cellar ∨ 32 ≤ ch ∨ id ∉ s.cel.live then .next s
  else if chState s id = 0 then .next (channelSums (setChState s id 2) cellar)
  else if chState s id = 1 then
    .next (regPut s (rMemChState cellar ch) 4 4 1)
  else .next s

/-! ### Heat (R177, R178) -/

/-- A retrain abandoned by a quiesce: the channel returns to the state it held before, and a MAPOUT that waited for the retrain's end clears with the
change of state (R184, log 151). -/
def abandonRetrain (s : State) (id : Nat) : State :=
  let c := getChan s id
  match c.retrain with
  | none => s
  | some r =>
    let s := setChState (setChan s id { c with retrain := none }) id r.prior
    regPut s (rMemChState (id / 32) (id % 32)) 4 4 0

/-- The cellar quiesces (R178). -/
def quiesce (s : State) (c : Nat) : State :=
  let s := regPut (regPut s (rMemStatus c) 1 1 1) (rCelTemp c) 18 18 1
  let s := (upTo 32).foldl (fun s ch => abandonRetrain s (c * 32 + ch)) s
  cellarFault (channelSums s c) (c * 32) codeOvertemp 0

/-- A die temperature in units of 0.0625 °C. -/
def degrees (c : Int) : Int := 16 * c

/-- CELLAR_TEMP_READING (R178): the highest of the die readings, its die, and what Table 7.3 makes of it. -/
def execCellarTempReading (cellar temp die : Nat) (s : State) : Host.Outcome State Fault Refusal :=
  if 20 ≤ cellar then .next s
  else
    let t := toSigned 12 temp
    let a := rCelTemp cellar
    let s := regPut (regPut s a 11 0 temp) a 15 12 die
    let s := regPeakSigned s a 43 32 temp
    let s := if degrees 85 < t then regPut s a 16 16 1 else if t ≤ degrees 82 then regPut s a 16 16 0 else s
    let s := if degrees 95 ≤ t then regPut s a 17 17 1 else if t < degrees 92 then regPut s a 17 17 0 else s
    let s := noteHeat s
    if degrees 125 ≤ t then .next (thermalTrip s (cellar / 2))
    else .next (if degrees 105 < t ∧ quiesced s cellar = false ∧ clocksStopped s = false then quiesce s cellar else s)

/-! ### Floating moves (R153 to R155) -/

def codeFloatPlacement : Nat := 0x0206

def floatHome (s : State) (e : Nat) : Nat := granule * regBits s (rCelFloatA e) 19 0
def floatUnits (s : State) (e : Nat) : Nat := regBits s (rCelFloatA e) 35 20
def floatBytes (s : State) (e : Nat) : Nat := granule * floatUnits s e

/-- Where a backing of entry e starts. -/
def floatStart (s : State) (e back wh target : Nat) : Nat := backingAddr back wh target (floatHome s e) 0

/-- Where the current backing of entry e starts, and where the requested one would. -/
def floatNow (s : State) (e : Nat) : Nat :=
  floatStart s e (regBits s (rCelFloatA e) 38 36) (regBits s (rCelFloatA e) 43 39) (regBits s (rCelFloatB e) 19 0)
def floatNext (s : State) (e : Nat) : Nat :=
  floatStart s e (regBits s (rCelFloatB e) 42 40) (regBits s (rCelFloatB e) 47 43) (regBits s (rCelFloatB e) 39 20)

def overlaps (a n b m : Nat) : Bool := decide (a < b + m) && decide (b < a + n)

/-- Whether the requested backing of entry e passes the checks of R153. -/
def floatFits (s : State) (e : Nat) : Bool :=
  let back := regBits s (rCelFloatB e) 42 40
  let wh := regBits s (rCelFloatB e) 47 43
  let a := floatNext s e
  let n := floatBytes s e
  let place := if back = 0 then true
    else if back = 1 then decide (wh < 10) && decide (nearZone s wh ≤ a) && decide (a + n ≤ nearZone s wh + nearBytes s wh)
    else if back = 2 then decide (wh < 20) && decide (a + n ≤ apertureBase + 64 * mib * wh + pinBytes s wh)
    else false
  place && (upTo 256).all (fun x => decide (x = e) ||
      (!(overlaps a n (floatNow s x) (floatBytes s x)) &&
        !(decide (regBits s (rCelFloatB x) 48 48 = 1) && overlaps a n (floatNext s x) (floatBytes s x)))) &&
    s.cel.allocs.all (fun r => !(overlaps a n r.1 r.2))

/-- Whether the requested backing is the current one. -/
def floatSame (s : State) (e : Nat) : Bool :=
  decide (regBits s (rCelFloatA e) 38 36 = regBits s (rCelFloatB e) 42 40) &&
    (decide (regBits s (rCelFloatB e) 42 40 = 0) ||
      (decide (regBits s (rCelFloatA e) 43 39 = regBits s (rCelFloatB e) 47 43) &&
        decide (regBits s (rCelFloatB e) 19 0 = regBits s (rCelFloatB e) 39 20)))

/-- The module's arrival at a commit barrier samples the requests (R153); the accepted entries, ascending, move from the release. -/
def sampleFloats (s : State) : State :=
  (upTo 256).foldl (fun s e =>
    if regBits s (rCelFloatB e) 48 48 = 0 then s
    else if floatSame s e then regPut s (rCelFloatB e) 48 48 0
    else if floatFits s e then { s with cel := { s.cel with moves := s.cel.moves ++ [e] } }
    else recordFault (regPut s (rCelFloatB e) 48 48 0) codeFloatPlacement (unitId 2 0) [(floatNext s e, 8)]) s

/-- The commit release starts the accepted moves (R154). -/
def startFloats (s : State) : State :=
  { s with cel := { s.cel with moveAt := s.now } } |> fun s => s.cel.moves.foldl (fun s e => regPut (regPut s (rCelFloatA e) 60 45 0) (rCelFloatA e) 44 44 1) s

/-- Copy the bytes behind a floating allocation; a poisoned source line poisons its destination in a stack (log 25). -/
def copyBacking (s : State) (src dst n : Nat) : State :=
  let keep := s.poison.filter (fun l => !(decide (dst ≤ 64 * l) && decide (64 * l < dst + n)))
  let moved := if locate s dst = .stack then
      (s.poison.filter (fun l => decide (src ≤ 64 * l) && decide (64 * l < src + n))).map (fun l => l - src / 64 + dst / 64) else []
  { s with mem := smCopy s.mem src dst n, poison := moved.foldl (fun l x => setInsert x l) keep }

/-- Copy granules `k` to `k + n` of entry e from its backing to the requested one. -/
def copyGranules (s : State) (e k n : Nat) : State :=
  copyBacking s (floatNow s e + granule * k) (floatNext s e + granule * k) (granule * n)

/-- Whether the granule being copied waits for a channel that retrains (R180). -/
def moveWaits (s : State) (e k : Nat) : Bool :=
  let wait (a : Nat) : Bool := (upTo (granule / 256)).any (fun i =>
    match locate s a, chanOf s (a + 256 * i) with
    | .stack, some (id, _) => decide (chState s id = 1)
    | _, _ => false)
  s.cel.chans.any (fun c => c.2.retrain.isSome) && (wait (floatNow s e + granule * k) || wait (floatNext s e + granule * k))

/-- Cycles that a granule takes at one eighth of a floor's stack bandwidth (R154). -/
def granuleCycles : Nat := 3550

/-- In a cycle of a move, the granule being copied may become complete (R154): DONE counts it, and its accesses go to the new backing. The last granule's
completion is FLOAT_MOVE_COMPLETE. -/
def moveGranule (s : State) : State :=
  match s.cel.moves.head? with
  | none => s
  | some e =>
    let k := regBits s (rCelFloatA e) 60 45
    if regBits s (rCelFloatA e) 44 44 = 1 ∧ k + 1 < floatUnits s e ∧ s.cel.moveAt + granuleCycles ≤ s.now ∧ Config.granuleCopied s.now = true ∧
        moveWaits s e k = false then
      regPut { copyGranules s e k 1 with cel := { s.cel with moveAt := s.now } } (rCelFloatA e) 60 45 (k + 1)
    else s

/-- FLOAT_MOVE_COMPLETE (R154): the entry whose move is in progress, the lowest accepted, has its last granule copied and takes its new
backing. -/
def execFloatMoveComplete (entry : Nat) (s : State) : Host.Outcome State Fault Refusal :=
  let k := regBits s (rCelFloatA entry) 60 45
  if s.cel.moves.head? = some entry ∧ regBits s (rCelFloatA entry) 44 44 = 1 ∧ moveWaits s entry k = false then
    let s := copyGranules s entry k (floatUnits s entry - k)
    let a := rCelFloatA entry
    let b := rCelFloatB entry
    let s := regPut (regPut (regPut s a 38 36 (regBits s b 42 40)) a 43 39 (regBits s b 47 43)) b 19 0 (regBits s b 39 20)
    let s := regPut (regPut (regPut s a 60 45 (floatUnits s entry)) a 44 44 0) b 48 48 0
    .next { s with cel := { s.cel with moves := s.cel.moves.drop 1, moveAt := s.now } }
  else .next s

/-! ### Write-back of dirty lines (R146, R166) -/

/-- A dirty cached line whose write-back fails at its channel or its quiesced cellar: the stack line is poisoned, and the fault is recorded against the
cellar (Table 6.8). -/
def writeBackFails (s : State) : State :=
  if s.cel.live.any (fun id => decide (chState s id = 3) || quiesced s (id / 32)) then
    match Config.writtenBack s.now with
    | none => s
    | some line =>
      let p := 64 * line
      let code := if smGet 0 s.cel.held line ≠ 0 then 0 else if locate s p ≠ .stack then 0
        else match chanOf s p with
          | none => 0
          | some (id, _) => if quiesced s (id / 32) then codeOvertemp else if chState s id = 3 then codeChannelFailed else 0
      if code = 0 ∨ line ∈ s.poison then s
      else
        match chanOf s p with
        | none => s
        | some (id, off) => cellarFault { s with poison := setInsert line s.poison } id code (off / 64)
  else s

/-- The cellars in a cycle. -/
def cellarTick (s : State) : State := writeBackFails (moveGranule s)

/-! ### Packed blocks (R162) -/

/-- PACKED_BLOCK_WRITEBACK (R162): the packed block held unpacked for a slot is evicted: packed and written to its slot when it is dirty. -/
def execPackedBlockWriteback (slot : Nat) (s : State) : Host.Outcome State Fault Refusal :=
  match smGet none s.cel.packs slot with
  | some b => if (blockRanges s b.desc b.j).any (fun q => accessWaits s q.1 q.2) then .next s else .next (packWriteback s b)
  | none => .next s

/-! ### Held lines (R147) -/

/-- At a commit release every held line has one barrier fewer to pass; a line that passed two is no longer held. -/
def ageHeld (s : State) : State :=
  s.cel.held.foldl (fun s e =>
    if e.2 ≤ 1 then unhold s e.1 else { s with cel := { s.cel with held := smSet 0 s.cel.held e.1 (e.2 - 1) } }) s

/-- The release of a sync point that some floors take part in (R179). -/
def noteRelease (s : State) (floors : List Nat) : State := { s with cel := { s.cel with relAt := some s.now, relFloors := floors } }

end Sys2Proof.Machine
end

