-- ==== Sys2Proof/Machine/Journal.lean ====
section
/-!
DEFINITION. The replay journal and the replay ring (R338 to R348, Tables 13.4 to 13.7).
-/
namespace Sys2Proof.Machine

def codeJournalFull : Nat := 0x0166
def codeJournalCorrupt : Nat := 0x0167
def codeReplayDiverged : Nat := 0x0168

/-- TYPE, STEP and SEQ of the record that a fault concerns. -/
def recItems (ty step seq : Nat) : Items := [(ty, 2), (step, 8), (seq, 8)]

/-- A journal fault (R349): recorded in SCH_FAULT and the event recorder, with the record concerned where there is one; the step stops. -/
def journalFault (s : State) (code : Nat) (items : Items) : State := stopFault s rSchFault 16 code unitSch items

/-- Whether replay is active (R344). -/
def replaying (s : State) : Bool := decide (regBits s rReplay 1 1 = 1)

/-- The record types that a replay takes from the ring and does not write (Table 13.4). -/
def replayTypes : List Nat := [1, 2, 3, 4, 5, 6]

/-- The bytes of a record (R339, Table 13.5): `units` of 16 B, with its check. -/
def journalBytes (ty units rank flags seq step : Nat) (body : List Byte) : List Byte :=
  let a := leBytes 2 ty ++ leBytes 2 units ++ leBytes 2 rank ++ leBytes 1 flags ++ zeros 1 ++ leBytes 8 seq ++ leBytes 8 step
  let z := (zeros 4 ++ body ++ zeros (16 * units - 32 - body.length))
  let c := crcFold seq (a ++ zeros 4 ++ z)
  (a ++ leBytes 4 c ++ z).take (16 * units)

/-- Write a record at unit `at` of the ring and take its SEQ. -/
def journalStore (s : State) (pos ty units flags step : Nat) (body : List Byte) : State :=
  let seq := (regGet s rJrnlSeq).toNat
  let bs := journalBytes ty units (rank s) flags seq step body
  let s := (sendBytes s (regBits s rJrnlBase 63 12 * 4096 + 16 * pos) bs unitSch).1
  regSet s rJrnlSeq (BitVec.ofNat 64 (seq + 1))

/-- The largest STEP of the COMMIT records of this rank, 0 where there is none. -/
def lastCommitted (s : State) : Nat := match s.jrnl.lastCommit with | some (r, n) => if r = rank s then n else 0 | none => 0

/-- Append a record whole (R338, R342): after a PAD when it would pass the end. HEAD = TAIL is an empty ring, so one unit stays free (log 26). -/
def journalAppend (s : State) (ty obs step : Nat) (body : List Byte) : State :=
  if replaying s ∧ ty ∈ replayTypes then s
  else
    let cap := 256 * regBits s rJrnlCtl 23 0
    let units := 2 + ceilDiv body.length 16
    let head := regBits s rJrnlPtr 31 0 % cap
    let tail := regBits s rJrnlPtr 63 32 % cap
    let pad := if cap < head + units then cap - head else 0
    let free := (tail + cap - head - 1) % cap
    let rep := 2 * b2n (replaying s)
    if cap = 0 ∨ free < pad + units then
      (if obs = 1 then regCount s rJrnlCtl 47 32 1 else journalFault (regPut s rJrnlCtl 24 24 1) codeJournalFull (recItems ty step (regGet s rJrnlSeq).toNat))
    else
      let s := if pad = 0 then s else journalStore s head 0 pad (1 + rep) 0 []
      let at_ := if pad = 0 then head else 0
      let seq := (regGet s rJrnlSeq).toNat
      let s := journalStore s at_ ty units (obs + rep) step body
      let s := regPut s rJrnlPtr 31 0 ((at_ + units) % cap)
      if ty = 5 ∨ ty = 6 then { s with jrnl := { s.jrnl with perRank := s.jrnl.perRank ++ [(step, seq)] } }
      else if ty = 3 then { s with jrnl := { s.jrnl with lastCommit := some (rank s, max step (lastCommitted s)) } } else s

/-- Whether SAFE exceeds the SEQ of every per-rank record of steps up to `n` (R341). -/
def journalSafe (s : State) (n : Nat) : Bool :=
  s.jrnl.perRank.all (fun p => decide (n < p.1) || decide (p.2 < (regGet s rJrnlSafe).toNat))

/-! ### Records of the sequence unit (Tables 13.6 and 13.7) -/

/-- ROW_FAILED: the restore-queue entry of 16 B. -/
def journalRowFailed (s : State) (entry : List Byte) : State := journalAppend s 5 0 (stepNo s) entry

/-- ABORT. -/
def journalAbort (s : State) (code origin stop : Nat) : State :=
  journalAppend s 8 1 (stepNo s) (leBytes 2 code ++ leBytes 2 origin ++ zeros 4 ++ leBytes 8 stop)

/-- RELEASE of a job-scope barrier. -/
def journalRelease (s : State) (y : SyncEnt) (plan release : Nat) (absent : List Nat) : State :=
  let late := satTo (2 ^ 32 - 1) (release - plan)
  journalAppend s 2 0 (stepNo s)
    (leBytes 2 y.id ++ leBytes 1 y.role ++ leBytes 1 y.policy ++ leBytes 4 absent.length ++ leBytes 8 plan ++ leBytes 8 release ++
      leBytes 4 late ++ zeros 4 ++ (absent.map (leBytes 2)).flatten)

/-- COMMIT. -/
def journalCommit (s : State) (step k tau : Nat) (sw : Option (Nat × Nat)) (drained : Bool) (release : Nat) : State :=
  let v := sw.getD (0, 0)
  journalAppend s 3 0 step
    (leBytes 1 k ++ leBytes 1 tau ++ leBytes 1 (b2n sw.isSome + 2 * b2n drained) ++ zeros 1 ++ leBytes 2 v.1 ++ zeros 2 ++
      leBytes 8 v.2 ++ leBytes 8 release ++ zeros 8)

/-- PLAN, with each entry's outcome. -/
def journalPlan (s : State) (sync : Nat) (plan : List PlanRow) : State :=
  journalAppend s 4 0 (stepNo s)
    (leBytes 2 sync ++ zeros 2 ++ leBytes 4 plan.length ++ zeros 8 ++
      (plan.map (fun p => leBytes 8 (p.row + p.table * 2 ^ 40) ++ leBytes 2 p.target ++ leBytes 2 p.source ++
        leBytes 4 (b2n p.accepted))).flatten)

/-! ### The replay ring (R344 to R347) -/

/-- Whether a record of `units` may have a type's LEN (R340): the counts of its own body fix those of RELEASE, PLAN and DROPS. -/
def recLenOk (ty units : Nat) (bs : List Byte) : Bool :=
  let n (o k : Nat) : Nat := leNat ((bs.drop o).take k)
  match ty with
  | 0 => decide (1 ≤ units)
  | 1 => decide (units = 7)
  | 2 => decide (units = 4 + ceilDiv (2 * n 0x24 4) 16)
  | 3 => decide (units = 4)
  | 4 => decide (units = 3 + n 0x24 4)
  | 5 => decide (units = 3)
  | 6 => decide (units = 3)
  | 7 => decide (units = 3 + ceilDiv (8 * n 0x22 2) 16)
  | 8 => decide (units = 3)
  | 9 => decide (units = 3)
  | 10 => decide (units = 4)
  | _ => false

/-- Whether a record's check holds. -/
def recCheckOk (bs : List Byte) : Bool :=
  decide (crcFold (leNat ((bs.drop 8).take 8)) (bs.take 24 ++ zeros 4 ++ bs.drop 28) = leNat ((bs.drop 24).take 4))

def replayCap (s : State) : Nat := 256 * regBits s rRplyCtl 23 0

/-- The record at TAIL: none when the ring holds none whole; its units, its bytes, and whether it could be read and lies whole before the end of
the ring (R338). A PAD of one unit carries no header past its first 16 B. -/
def replayHead (s : State) : Option (Nat × List Byte × Bool) :=
  let cap := replayCap s
  let t := regBits s rRplyPtr 63 32 % cap
  let avail := (regBits s rRplyPtr 31 0 % cap + cap - t) % cap
  if cap = 0 ∨ avail = 0 then none
  else
    let a := regBits s rRplyBase 63 12 * 4096 + 16 * t
    let u := leNat (((readBytes s a 16).1.drop 2).take 2)
    let x := readBytes s a (16 * u)
    if t + u ≤ cap ∧ avail < u then none else some (u, x.1, decide (t + u ≤ cap ∧ x.2 = 0))

def replayDrop (s : State) (u : Nat) : State := regPut s rRplyPtr 63 32 ((regBits s rRplyPtr 63 32 + u) % replayCap s)

/-- Read the records with STEP at most `m` (R346), at most `fuel` of them; a record that fails its check or structure stops the step. -/
def replayRead (m : Nat) : Nat → State → State
  | 0, s => s
  | fuel + 1, s =>
    match replayHead s with
    | none => s
    | some (u, bs, whole) =>
      let s := noteFetch s (regBits s rRplyBase 63 12 * 4096 + 16 * (regBits s rRplyPtr 63 32 % replayCap s)) (16 * u) unitSch
      let ty := leNat (bs.take 2)
      let step := leNat ((bs.drop 16).take 8)
      if ty = 0 ∧ u = 1 ∧ whole then replayRead m fuel (replayDrop s u)
      else if !whole ∨ u < 2 ∨ !(recLenOk ty u bs) ∨ !(recCheckOk bs) ∨
          (ty ≠ 0 ∧ s.jrnl.read.getLast?.any (fun r => decide (step < r.step)) = true) then
        journalFault s codeJournalCorrupt (recItems ty step (leNat ((bs.drop 8).take 8)))
      else if ty = 0 then replayRead m fuel (replayDrop s u)
      else if m < step then s
      else
        replayRead m fuel (replayDrop { s with jrnl := { s.jrnl with read := s.jrnl.read ++ [{ ty := ty, step := step, bs := bs }] } } u)

def replayFuel (s : State) : Nat := replayCap s + 1

/-- Whether the records of a step that every run of it writes have been read: its COMMIT, the RELEASE of each barrier, the PLAN where a plan barrier
takes proposals, and the BATCH of each staging session (log 27). -/
def stepRead (s : State) (n : Nat) : Bool :=
  let has (ty : Nat) (p : List Byte → Bool) : Bool := s.jrnl.read.any (fun r => decide (r.ty = ty ∧ r.step = n) && p r.bs)
  has 3 (fun _ => true) &&
    (s.seq.image.syncs.filter (fun y => decide (y.scope = 2))).all (fun y => has 2 (fun b => decide (leNat ((b.drop 0x20).take 2) = y.id))) &&
    (decide (regBits s rLdrMigCtl 44 32 = 0) || has 4 (fun _ => true)) &&
    ((upTo 64).filter (fun k => decide (regBits s (rWinStageCtl k) 28 24 ≠ 0))).all (fun k => has 6 (fun b => decide (leNat ((b.drop 0x20).take 1) = k)))

/-- Whether the ring holds every record of step `m` (R346): a later record is loaded, or those of the last replayed step have been read. -/
def replayReady (s : State) (m : Nat) : Bool :=
  if replaying s then
    let until_ := (regGet s rReplayUntil).toNat
    let s := replayRead m (replayFuel s) s
    (replayHead s).isSome || stepRead s until_
  else true

/-- The recorded record of a type for a step whose bytes satisfy `p`. -/
def replayRec (s : State) (ty step : Nat) (p : List Byte → Bool) : Option (List Byte) :=
  (s.jrnl.read.find? (fun r => decide (r.ty = ty) && decide (r.step = step) && p r.bs)).map (fun r => r.bs)

/-- TYPE, STEP and SEQ of the record of a type for a step; nothing where the journal holds none. -/
def replayItems (s : State) (ty step : Nat) (p : List Byte → Bool) : Items :=
  match replayRec s ty step p with
  | some b => recItems ty step (leNat ((b.drop 8).take 8))
  | none => []

/-- The recorded absent ranks and LATE of a tolerant release. -/
def replayAbsent (s : State) (sync : Nat) : Option (List Nat × Nat) :=
  (replayRec s 2 (stepNo s) (fun b => decide (leNat ((b.drop 0x20).take 2) = sync))).map (fun b =>
    (((chunks 2 (leNat ((b.drop 0x24).take 4) + 1) ((b.drop 0x40).take (2 * leNat ((b.drop 0x24).take 4)))).map leNat),
      leNat ((b.drop 0x38).take 4)))

/-- The recorded switch of a commit. -/
def replaySwitch (s : State) (step : Nat) : Option (Option (Nat × Nat)) :=
  (replayRec s 3 step (fun _ => true)).map (fun b =>
    if leNat ((b.drop 0x22).take 1) % 2 = 1 then some (leNat ((b.drop 0x24).take 2), leNat ((b.drop 0x28).take 8)) else none)

/-- The recorded plan: (table, row, target, source, accepted). -/
def replayPlan (s : State) : Option (List PlanRow) :=
  (replayRec s 4 (stepNo s) (fun _ => true)).map (fun b =>
    ((chunks 16 (leNat ((b.drop 0x24).take 4) + 1) ((b.drop 0x30).take (16 * leNat ((b.drop 0x24).take 4)))).map (fun e =>
      let w := leNat (e.take 8)
      { table := nbits w 55 40, row := nbits w 39 0, target := leNat ((e.drop 8).take 2), source := leNat ((e.drop 10).take 2),
        accepted := decide (leNat ((e.drop 12).take 1) % 2 = 1) })))

/-- The rows that the journal says failed in the step in progress, as (table, row). -/
def replayFailed (s : State) : List (Nat × Nat) :=
  (s.jrnl.read.filter (fun r => decide (r.ty = 5) && decide (r.step = stepNo s))).map (fun r =>
    let w := leNat ((r.bs.drop 0x20).take 8)
    (nbits w 55 40, nbits w 39 0))

/-- The recorded digest of a session's batch for a step, by session. -/
def replayBatch (s : State) (step sess : Nat) : Option Nat :=
  (replayRec s 6 step (fun b => decide (leNat ((b.drop 0x20).take 1) = sess))).map (fun b => leNat ((b.drop 0x28).take 8))

/-- JOURNAL_PUT (R338): the firmware record at an address is appended, with RANK, SEQ and CHECK filled in by the unit. One that cannot be read or
is shorter than its header is not appended (log 28). -/
def execJournalPut (addr : Nat) (s : State) : Host.Outcome State Fault Refusal :=
  let a := addr / 16 * 16
  let h := readBytes s a 32
  let u := leNat ((h.1.drop 2).take 2)
  let b := readBytes s a (16 * u)
  let s := noteFetch s a (max 32 (16 * u)) unitSch
  if h.2 ≠ 0 ∨ u < 2 ∨ b.2 ≠ 0 then .next s
  else .next (journalAppend s (leNat (h.1.take 2)) (leNat ((h.1.drop 6).take 1) % 2) (leNat ((h.1.drop 16).take 8)) (b.1.drop 32))

/-- REPLAY_RING_LOAD (R346): firmware advances SCH_RPLY_PTR.HEAD over records it has loaded; a start barrier that waits for its step's records may
then release. -/
def execReplayRingLoad (head : Nat) (s : State) : Host.Outcome State Fault Refusal := .next (regPut s rRplyPtr 31 0 head)

end Sys2Proof.Machine
end

