-- ==== Sys2Proof/Machine/Rows.lean ====
section
/-!
DEFINITION. Tables, stored rows, placement, versions and failed rows (R187 to R189, R201, R214, R215, R218 to R226, R246).
-/
namespace Sys2Proof.Machine

def codeTableInvalid : Nat := 0x0301
def codeIndexRange : Nat := 0x0302
def codeRowFailed : Nat := 0x0303
def codeDescriptorFormat : Nat := 0x0304
def codeListFormat : Nat := 0x0305
def codeListStep : Nat := 0x0306
def codeRemoteVersion : Nat := 0x0307
def codeQueueFull : Nat := 0x0308
def codeDiscarded : Nat := 0x0309
def codeRestoreFull : Nat := 0x030A
def codePrepOverrun : Nat := 0x030B
def codeVersion : Nat := 0x030C
def codeMigration : Nat := 0x030D
def codeStale : Nat := 0x030E
def codePrefetch : Nat := 0x030F

def unitLdr (f : Nat) : Nat := unitId 3 f

def getLarder (s : State) (f : Nat) : Larder := smGet {} s.ldr.units f
def setLarder (s : State) (f : Nat) (l : Larder) : State := { s with ldr := { s.ldr with units := smSet {} s.ldr.units f l } }
def modLarder (s : State) (f : Nat) (g : Larder → Larder) : State := setLarder s f (g (getLarder s f))

/-- A Larder's fault (R217, R246): LDR_FAULT of the floor and the event recorder, with the table, the row or version where one applies, and the
requesting room where one applies. -/
def ldrFault (s : State) (f code table : Nat) (row room : Option Nat := none) : State :=
  raiseFault s (rLdrFault f) 16 code (unitLdr f) ((table, 2) :: (row.toList.map (fun x => (x, 8)) ++ room.toList.map (fun x => (x, 2))))

/-- A Larder's fault that stops the step. -/
def ldrStop (s : State) (f code table : Nat) (row room : Option Nat := none) : State := sendAbort (ldrFault s f code table row room) code

/-! ### Table descriptors (Table 8.1) -/

structure TableDesc where
  id : Nat
  sr : Bool
  code : Nat
  dim : Nat
  stride : Nat
  rows : Nat
  tailOff : Nat
  tailBytes : Nat
  gradFmt : Nat
  rule : Nat
  scat : Nat
  versions : Nat
  rowmap : Nat
  params : Nat
  srStream : Nat
  ok : Bool
  deriving DecidableEq, Repr

/-- V: bytes of a row's values (R188). -/
def rowValueBytes (code d : Nat) : Nat := if code = 0 then 2 * d else if code = 4 then d / 2 else d
/-- M: bytes of its metadata. -/
def rowMetaBytes (code : Nat) : Nat := if code = 0 then 0 else if code = 3 then 4 else 2
/-- Bytes of the wire form. -/
def wireBytes (code d : Nat) : Nat := rowValueBytes code d + rowMetaBytes code

/-- FLAGS of a parameter block (Table 11.3). -/
def paramEma (s : State) (a : Nat) : Bool := decide (memNat s (a + 0x19) 1 / 2 % 2 = 1)

/-- The least TAIL_BYTES of a rule (R289, Table 11.5); the EMA form is V + M bytes. -/
def tailNeed (rule code d : Nat) (ema : Bool) : Nat :=
  let e := if ema then wireBytes code d else 0
  if rule = 0x11 then 8 + e else if rule = 0x12 then roundUp (8 + 2 * d) 8 + e else roundUp e 8

def tableAddr (s : State) (t : Nat) : Nat := regBits s rLdrTdir 63 6 * 64 + 64 * t

/-- The descriptor of table `t`, and whether R188, R273, R289 and R334 admit it; its reserved fields are ignored (R6). -/
def tableDesc (s : State) (t : Nat) : TableDesc :=
  let b := (readBytes s (tableAddr s t) 64).1
  let n (o k : Nat) : Nat := leNat ((b.drop o).take k)
  let code := n 3 1 % 8
  let d := n 4 2
  let stride := n 6 2
  let off := n 0x10 2
  let tail := n 0x12 2
  let rule := n 0x15 1
  let ok := decide (n 0 2 = t) && decide (n 2 1 % 2 = 1) && decide (code ≤ 4) &&
    decide (d % 8 = 0 ∧ 8 ≤ d ∧ d ≤ 4096) && decide (stride = 1 ∨ stride = 2 ∨ (stride % 4 = 0 ∧ stride ≠ 0)) &&
    decide (off % 8 = 0 ∧ roundUp (wireBytes code d) 8 ≤ off ∧ off + tail ≤ 64 * stride) && decide (n 0x14 1 ≤ 3) &&
    decide (rule ∈ [0, 0x10, 0x11, 0x12]) && decide (tailNeed rule code d (paramEma s (n 0x28 8)) ≤ tail) &&
    decide (0x100 ≤ n 0x30 2 ∧ n 0x30 2 ≤ 0xFFFC)
  { id := t, sr := decide (n 2 1 / 2 % 2 = 1), code := code, dim := d, stride := stride, rows := n 8 5, tailOff := off, tailBytes := tail,
    gradFmt := n 0x14 1, rule := rule, scat := n 0x16 2, versions := n 0x18 8, rowmap := n 0x20 8, params := n 0x28 8,
    srStream := n 0x30 2, ok := ok }

def strideBytes (d : TableDesc) : Nat := 64 * d.stride
def tableWire (d : TableDesc) : Nat := wireBytes d.code d.dim

/-- Row reads a row costs (R189). -/
def rowReads (d : TableDesc) : Nat := ceilDiv (strideBytes d) 256

/-! ### Row maps and base placement (R218 to R220) -/

structure RowMap where
  mode : Nat
  ovLog : Nat
  rank0 : Nat
  ranks : Nat
  cap : Nat
  ok : Bool
  deriving DecidableEq, Repr

def rowMapOf (s : State) (d : TableDesc) : RowMap :=
  let b := (readBytes s d.rowmap 64).1
  let n (o k : Nat) : Nat := leNat ((b.drop o).take k)
  { mode := n 2 1, ovLog := n 3 1, rank0 := n 4 2, ranks := n 8 4, cap := n 12 4,
    ok := decide (n 0 2 = d.id) && decide (n 2 1 ≤ 1) && decide (4 ≤ n 3 1 ∧ n 3 1 ≤ 24) && decide (1 ≤ n 8 4 ∧ n 8 4 ≤ 65536) &&
      decide (n 4 2 + n 8 4 ≤ 65536) && decide (n 12 4 ≤ 2 ^ 24) && decide (n 6 2 = 0) && decide (n 16 48 = 0) }

/-- The base home of row x, counted from RANK0, and its base slot (R219). -/
def baseHome (m : RowMap) (rows x : Nat) : Nat × Nat :=
  if m.mode = 0 then (x % m.ranks, x / m.ranks)
  else
    let q := rows / m.ranks
    let e := rows % m.ranks
    if x < e * (q + 1) then (x / (q + 1), x % (q + 1)) else (e + (x - e * (q + 1)) / q, (x - e * (q + 1)) % q)

/-- The rows whose base home is the i-th rank. -/
def baseCount (m : RowMap) (rows i : Nat) : Nat :=
  if m.mode = 0 then (if i < rows then ceilDiv (rows - i) m.ranks else 0)
  else rows / m.ranks + (if i < rows % m.ranks then 1 else 0)

/-! ### Version records (Table 9.3) -/

def verAddr (d : TableDesc) (v : Nat) : Nat := d.versions + 0x40 + 64 * v
def verNumber (s : State) (d : TableDesc) (v : Nat) : Nat := memNat s (verAddr d v) 8
/-- 0 FREE, 1 LOADING, 2 LOADED, 3 CURRENT, 4 RETIRING. -/
def verState (s : State) (d : TableDesc) (v : Nat) : Nat := memNat s (verAddr d v + 8) 1
def verRefs (s : State) (d : TableDesc) (v : Nat) : Nat := memNat s (verAddr d v + 12) 4
def verShard (s : State) (d : TableDesc) (v : Nat) : Nat := memNat s (verAddr d v + 0x10) 8
def verOverlay (s : State) (d : TableDesc) (v : Nat) : Nat := memNat s (verAddr d v + 0x18) 8
def verCensus (s : State) (d : TableDesc) (v : Nat) : Nat := memNat s (verAddr d v + 0x20) 8
def curSlot (s : State) (d : TableDesc) : Nat := memNat s (d.versions + 8) 1 % 4
def curVersion (s : State) (d : TableDesc) : Nat := memNat s d.versions 8

/-- The slot that holds a version number in one of the given states. -/
def slotOf (s : State) (d : TableDesc) (version : Nat) (states : List Nat) : Option Nat :=
  (upTo 4).find? (fun v => decide (verNumber s d v = version) && decide (verState s d v ∈ states))

/-! ### The overlay (R221 to R224) -/

/-- The first bucket probed for a row. -/
def bucketOf (m : RowMap) (x : Nat) : Nat := ((x * 0x9E3779B97F4A7C15) % 2 ^ 64) >>> (64 - m.ovLog)

/-- The addresses of the 32 entries that a look-up passes over, in order. -/
def probeAddrs (m : RowMap) (ov x : Nat) : List Nat :=
  ((upTo 8).map (fun b => (upTo 4).map (fun e => ov + 64 * ((bucketOf m x + b) % 2 ^ m.ovLog) + 16 * e))).flatten

/-- The presence-filter bit of a row. -/
def filterBit (t x : Nat) : Nat := ((Nat.xor x (t <<< 40) * 0xC2B2AE3D27D4EB4F) % 2 ^ 64) >>> 43

/-- What the overlay holds at an address: staged changes apply from the commit (R237). -/
def ovWord (s : State) (st : List (Nat × List Byte)) (a : Nat) : Nat :=
  match st.reverse.find? (fun p => decide (p.1 = a)) with
  | some p => leNat (p.2.take 8)
  | none => memNat s a 8
def ovSlotWord (s : State) (st : List (Nat × List Byte)) (a : Nat) : Nat :=
  match st.reverse.find? (fun p => decide (p.1 = a)) with
  | some p => leNat ((p.2.drop 8).take 4)
  | none => memNat s (a + 8) 4

/-- The look-up of row x: the address of its valid entry, if any, and the entries examined. -/
def ovFind (s : State) (st : List (Nat × List Byte)) (x : Nat) : List Nat → Option Nat × Nat
  | [] => (none, 0)
  | a :: as =>
    let w := ovWord s st a
    if nbits w 57 56 = 1 ∧ nbits w 39 0 = x then (some a, 1)
    else if nbits w 57 56 = 0 then (none, 1)
    else let r := ovFind s st x as; (r.1, r.2 + 1)

/-- The first entry that an insertion may take. -/
def ovPlace (s : State) (st : List (Nat × List Byte)) (as : List Nat) : Option Nat :=
  as.find? (fun a => decide (nbits (ovWord s st a) 57 56 = 0) || decide (nbits (ovWord s st a) 57 56 = 2))

/-- An entry's bytes. -/
def ovEntry (row home state slot : Nat) : List Byte := leBytes 8 (row + home * 2 ^ 40 + state * 2 ^ 56) ++ leBytes 4 slot ++ zeros 4

/-- Where a row lives (R223): the home rank, whether its slot is a migrant slot, the slot, and the overlay entry. -/
structure Place where
  home : Nat
  migrant : Bool
  slot : Nat
  entry : Option Nat
  deriving DecidableEq, Repr

/-- Resolve row x of a table under version slot v, with `st` changes staged on its overlay. -/
def resolveWith (s : State) (st : List (Nat × List Byte)) (filter : Bool) (d : TableDesc) (m : RowMap) (v x : Nat) : Place × Nat :=
  let b := baseHome m d.rows x
  let base : Place := { home := m.rank0 + b.1, migrant := false, slot := b.2, entry := none }
  if !filter then (base, 0)
  else
    let r := ovFind s st x (probeAddrs m (verOverlay s d v) x)
    match r.1 with
    | some a => ({ home := nbits (ovWord s st a) 55 40, migrant := true, slot := ovSlotWord s st a, entry := some a }, ceilDiv r.2 4)
    | none => (base, ceilDiv r.2 4)

/-- Resolve a row for the Larder of floor f, which counts the buckets it reads (R224). -/
def resolve (s : State) (d : TableDesc) (m : RowMap) (v x : Nat) : Place :=
  (resolveWith s [] (decide (filterBit d.id x ∈ s.ldr.filter)) d m v x).1

/-- LDR_PROBE after a resolution by the Larder of floor f; each bucket probed costs it a read slot (R224). -/
def countProbe (s : State) (f : Nat) (d : TableDesc) (m : RowMap) (v x : Nat) : State :=
  let r := resolveWith s [] (decide (filterBit d.id x ∈ s.ldr.filter)) d m v x
  let s := if r.2 = 0 then s else regCount (modLarder s f (fun l => { l with owed := l.owed + r.2 })) (rLdrProbe f) 31 0 r.2
  if r.1.entry.isSome then regCount s (rLdrProbe f) 63 32 1 else s

/-- The address of a slot of this module's shard (R220). -/
def slotAddrOf (s : State) (d : TableDesc) (m : RowMap) (v : Nat) (migrant : Bool) (slot : Nat) : Nat :=
  verShard s d v + (if migrant then baseCount m d.rows (rank s - m.rank0) + slot else slot) * strideBytes d

/-- The address of a row whose home is this module. -/
def placeAddr (s : State) (d : TableDesc) (m : RowMap) (v : Nat) (p : Place) : Nat := slotAddrOf s d m v p.migrant p.slot

/-- The cellar that holds a row's first byte (R189). -/
def rowCellar (s : State) (a : Nat) : Nat := (homeCellarOf s a).getD 0
where
  homeCellarOf (s : State) (a : Nat) : Option Nat :=
    let p := translate s a
    match locate s p with
    | .stack => (chanOf s p).map (fun x => x.1 / 32)
    | .pinned => some (p % 2 ^ 40 / (64 * mib))
    | _ => none

/-! ### Failed rows (R201, R211, R214, R215) -/

/-- Whether a row is pending restore, so that it is in its home's failed set whatever its reads do (R421). -/
def pendingRow (s : State) (t row : Nat) : Bool := s.att.pend.any (fun p => decide (p.table = t ∧ p.row = row))

/-- Whether a row is in the home's failed set of the step (R211, R421). -/
def inFailedSet (s : State) (t row : Nat) : Bool := decide ((t, row) ∈ s.ldr.failed) || pendingRow s t row

/-- Ring entries of the restore queue. -/
def restoreSize (s : State) : Nat := max 2 (satTo (2 ^ 24) (regBits s rLdrRqCtl 24 0))

/-- Enter a row in the restore queue, once per step and not while it is pending restore; an entry that would fill the ring stops the step. -/
def enterRestore (s : State) (f table row : Nat) : State :=
  if (table, row) ∈ s.ldr.queued ∨ pendingRow s table row then s
  else
    let s := { s with ldr := { s.ldr with queued := s.ldr.queued ++ [(table, row)] } }
    let head := regBits s rLdrRqPtr 31 0
    let next := (head + 1) % restoreSize s
    if next = regBits s rLdrRqPtr 63 32 % restoreSize s then ldrStop s f codeRestoreFull table (some row)
    else
      let e := leBytes 8 (row + table * 2 ^ 40) ++ leBytes 8 (stepNo s)
      let s := (sendBytes s (regBits s rLdrRqBase 63 4 * 16 + 16 * head) e (unitLdr f)).1
      let s := { s with att := { s.att with pend := s.att.pend ++ [{ table := table, row := row, step := stepNo s }] } }
      journalRowFailed (regPut s rLdrRqPtr 31 0 next) e

/-- Whether the journal of the replay in progress forces the row to fail in this step (Table 13.4). -/
def forcedFail (s : State) (table row : Nat) : Bool := replaying s && decide ((table, row) ∈ replayFailed s)

/-- A row fails at this home (R201, R211): it is in the failed set and the restore queue. In a replay, one that the journal does not record stops
the step. -/
def failHome (s : State) (f table row : Nat) : State :=
  let was := pendingRow s table row
  let s := if (table, row) ∈ s.ldr.failed then s else { s with ldr := { s.ldr with failed := s.ldr.failed ++ [(table, row)] } }
  let s := enterRestore s f table row
  if replaying s ∧ (table, row) ∉ replayFailed s ∧ !was then journalFault s codeReplayDiverged [] else s

/-- A requester's failed row (R201): counted and recorded. -/
def failRow (s : State) (f table row : Nat) (room : Option Nat) : State := ldrFault (regCount s (rLdrStatFail f) 23 0 1) f codeRowFailed table (some row) room

/-- What a read of a home row comes to: its bytes, or its failure at this home. -/
def rowRead (x : State × List Byte × Nat) (f : Nat) (d : TableDesc) (n row : Nat) : State × List Byte × Bool :=
  let s := x.1
  if x.2.2 = 0 ∧ !(forcedFail s d.id row) ∧ !(pendingRow s d.id row) then (x.1, x.2.1, true)
  else (failHome x.1 f d.id row, zeros n, false)

/-- Read the wire form of a home row, as it is stored. -/
def readRow (s : State) (f : Nat) (d : TableDesc) (a n row : Nat) : State × List Byte × Bool := rowRead (fetchBytes s a n (unitLdr f)) f d n row

/-- Read a row as the cellar update engine does, which interprets packed regions (R157, R201). -/
def engineRow (s : State) (f : Nat) (d : TableDesc) (a n row : Nat) : State × List Byte × Bool := rowRead (fetchView s a n (unitLdr f)) f d n row

end Sys2Proof.Machine
end

