-- ==== Sys2Proof/Machine/AtticCore.lean ====
section
/-!
DEFINITION. What every writer of a row shard and the checkpoint engine share (R404, R407, R408, R421): shards and their chunks, the dirty map, and
the hand-over of a row's pre-write form.
-/
namespace Sys2Proof.Machine

def codeDriveFailed : Nat := 0x0701
def codeMediaError : Nat := 0x0702
def codeWear : Nat := 0x0703
def codeAtticFull : Nat := 0x0704
def codeAtticUnavailable : Nat := 0x0705
def codeCaptureFailed : Nat := 0x0706
def codeEpochCorrupt : Nat := 0x0707
def codeRestoreFailed : Nat := 0x0708

/-- A fault of the checkpoint engine or the attic (R426): ATT_FAULT with the drive (7 none), and the event recorder. -/
def attFault (s : State) (code drive : Nat) : State :=
  let s := if regBits s rAttFault 19 19 = 0 then regPut (regPut (regPut s rAttFault 15 0 code) rAttFault 18 16 drive) rAttFault 19 19 1 else s
  recordFault s code (unitId 9 0) [(drive, 1), (regBits s rAttEpoch 31 0, 4)]

/-- The module reports a module failure (R16). -/
def moduleFailure (s : State) (code : Nat) : State := regPut { s with mgmt := { s.mgmt with failed := some code } } rSchState 2 0 5

/-! ### The array (R412, Table 16.3) -/

def getDrive (s : State) (d : Nat) : Drive := smGet {} s.att.drives d
def setDrive (s : State) (d : Nat) (v : Drive) : State := { s with att := { s.att with drives := smSet {} s.att.drives d v } }
/-- 0 ABSENT, 1 ONLINE, 2 REBUILDING, 3 FAILED, 4 READ_ONLY. -/
def drvState (s : State) (d : Nat) : Nat := regBits s (rDrvState d) 2 0
def setDrvState (s : State) (d v : Nat) : State := regPut s (rDrvState d) 2 0 v

/-- The D drives of the array, ascending (R412). -/
def members (s : State) : List Nat := (upTo 4).filter (fun d => (getDrive s d).member)

/-- Members whose units a read can use: those online or read-only. -/
def readable (s : State) : List Nat := (members s).filter (fun d => decide (drvState s d = 1 ∨ drvState s d = 4))

/-- Whether the array still holds every unit, with what Table 16.3 survives. -/
def survives (s : State) : Bool := decide ((members s).length ≤ (readable s).length + (if 1 < (members s).length then 1 else 0))

/-- A unit of a stripe, and data units per stripe on D drives. -/
def unitBytes : Nat := 0x20000
def dataUnits (d : Nat) : Nat := if d ≤ 2 then 1 else d - 1

/-- The array position of stripe s's parity unit. -/
def parityPos (d s : Nat) : Nat := d - 1 - s % d

/-- The array position of data unit j of stripe s: the others in ascending order; a lone drive holds no parity. -/
def dataPos (d s j : Nat) : Nat := if d = 1 then 0 else if j < parityPos d s then j else j + 1

/-- The drive and its byte offset that hold an array address: stripes follow the superblocks, one unit per drive at the same offset (R412, R413). -/
def unitPlace (ds : List Nat) (a : Nat) : Nat × Nat :=
  let u := a / unitBytes
  let n := dataUnits ds.length
  (ds.getD (dataPos ds.length (u / n) (u % n)) 0, 256 * 4096 + u / n * unitBytes + a % unitBytes)

/-- Whether an array address can be read: on its own drive, or by XOR of the stripe's other units (R417). -/
def addrReadable (s : State) (a : Nat) : Bool :=
  let ds := members s
  let d := (unitPlace ds a).1
  ds.isEmpty || decide (d ∈ readable s) || (decide (1 < ds.length) && ds.all (fun e => decide (e = d) || decide (e ∈ readable s)))

/-! ### Tables and shards -/

/-- The valid tables of the module, ascending: entries of the table directory that memory holds and R188 admits. -/
def validTables (s : State) : List Nat :=
  let b := translate s (regBits s rLdrTdir 63 6 * 64)
  let ts := (s.mem.filter (fun c => decide (b ≤ c.1) && decide (c.1 < b + 64 * 65536))).map (fun c => (c.1 - b) / 64)
  (ts.foldl (fun l t => if l.getLast? = some t then l else l ++ [t]) []).filter (fun t => (tableDesc s t).ok && (rowMapOf s (tableDesc s t)).ok)

/-- The base rows of this module's shard: none for a module outside RANK0 to RANK0 + RANKS − 1 (R219, R220). -/
def ownBase (s : State) (d : TableDesc) (m : RowMap) : Nat :=
  if m.rank0 ≤ rank s ∧ rank s < m.rank0 + m.ranks then baseCount m d.rows (rank s - m.rank0) else 0

/-- Bytes of this module's shard of one version (R220). -/
def shardBytes (s : State) (d : TableDesc) (m : RowMap) : Nat := (ownBase s d m + m.cap) * strideBytes d

def chunkBytes : Nat := 0x10000

/-- The chunks of a shard that `n` bytes from `a` touch, by address (R407). -/
def chunksOf (shard a n : Nat) : List Nat :=
  let i := (a - shard) / chunkBytes
  (upTo ((a - shard + n - 1) / chunkBytes + 1 - i)).map (fun k => shard + (i + k) * chunkBytes)

/-- All chunks of a table's CURRENT shard. -/
def shardChunks (s : State) (t : Nat) : List Owed :=
  let d := tableDesc s t
  let n := shardBytes s d (rowMapOf s d)
  let base := verShard s d (curSlot s d)
  (upTo (ceilDiv n chunkBytes)).map (fun i =>
    { addr := base + i * chunkBytes, len := min chunkBytes (n - i * chunkBytes), table := t, off := i * chunkBytes })

/-! ### Captures of ranges -/

/-- A range as the checkpoint engine reads it, line by line: the bytes, packed blocks unpacked (R157), zeros where a line cannot be read; and which lines
those are: poisoned, uncorrectable (which R175 makes poisoned), or of a corrupt packed block (R425). -/
def captureLines (s : State) (a n : Nat) : List (List Byte × Bool) :=
  (upTo (ceilDiv n 64)).map (fun i => let x := viewAt s (translate s (a + 64 * i)) 64; (x.1, decide (x.2 ≠ 0)))

def poisonMap (s : State) (a n : Nat) : List Bool := (captureLines s a n).map (fun x => x.2)

/-- What the engine's reads leave behind (R174, R175). -/
def noteCapture (s : State) (a n : Nat) : State :=
  (upTo (ceilDiv n 64)).foldl (fun t i => noteView t (translate s (a + 64 * i)) 64 (unitId 9 0)) s

/-- Whether a range lies in a packed region, block by block (R157). -/
def inPacked (s : State) (a : Nat) : Bool := match packAt s (translate s a) with | some (_, _, o) => decide (o = 0) | none => false

/-- A bitmap's bytes. -/
def bitmapBytes (bs : List Bool) : List Byte :=
  (chunks 8 (bs.length + 1) bs).map (fun c => BitVec.ofNat 8 (c.zipIdx.foldl (fun n p => n + b2n p.1 * 2 ^ p.2) 0))

def captureBytes (s : State) (a n : Nat) : List Byte := (((captureLines s a n).map (fun x => x.1)).flatten).take n

/-- Lay a patch over a captured range. -/
def overlay (a : Nat) (bs : List Byte) (p : Nat × List Byte) : List Byte :=
  (bs.zipIdx).map (fun x => if p.1 ≤ a + x.2 ∧ a + x.2 < p.1 + p.2.length then p.2.getD (a + x.2 - p.1) 0 else x.1)

/-- A record of the epoch in progress. -/
def attRec (s : State) (ty id off flags : Nat) (body : List Byte) : AttRec :=
  { ty := ty, flags := flags, epoch := regBits s rAttEpoch 31 0, step := s.att.captured, id := id, rank := rank s, off := off, body := body }

/-- Capture one owed chunk (R407, R408, R425): the chunk as read, with its patches laid over it, a packed region's as its packed blocks (R162); a poisoned
line is zeroed and mapped. -/
def captureChunk (s : State) (o : Owed) : State :=
  let ps := s.att.patches.filter (fun p => decide (o.addr < p.1 + p.2.length) && decide (p.1 < o.addr + o.len))
  let bad := ((poisonMap s o.addr o.len).zipIdx).map (fun b =>
    b.1 && !(ps.any (fun p => decide (p.1 ≤ o.addr + 64 * b.2) && decide (o.addr + 64 * b.2 + 64 ≤ p.1 + p.2.length))))
  let body := ps.foldl (overlay o.addr) (captureBytes s o.addr o.len)
  let any := bad.any (fun b => b)
  let pk := inPacked s o.addr
  let data := if pk then atticBlocks (translate s o.addr) body else body
  let r := attRec s 4 o.table o.off (b2n pk + 2 * b2n any) (if any then data ++ bitmapBytes bad else data)
  let s := noteCapture s o.addr o.len
  let rest := s.att.owed.filter (fun x => decide (x.addr ≠ o.addr))
  let keep := s.att.patches.filter (fun p => rest.any (fun x => decide (x.addr < p.1 + p.2.length) && decide (p.1 < x.addr + x.len)))
  { s with att := { s.att with owed := rest, patches := keep, recs := s.att.recs ++ [r] } }

/-! ### The dirty map and hand-over -/

/-- P of R403: 0 where epochs are not enabled. -/
def epochPeriod (s : State) : Nat := if regBits s rAttCtrl 0 0 = 1 then regBits s rAttCtrl 20 1 else 0

/-- A writer that is no update engine, migration or row restore wrote `n` bytes: the chunks of the CURRENT shards they lie in are dirty (R407, log 161). -/
def noteWritten (s : State) (a n : Nat) : State :=
  if epochPeriod s = 0 then s
  else
    let hit := ((validTables s).map (fun t =>
      (shardChunks s t).filter (fun (o : Owed) => decide (o.addr < a + n) && decide (a < o.addr + o.len)))).flatten
    { s with att := { s.att with dirty := hit.foldl (fun l o => setInsert o.addr l) s.att.dirty } }

/-- Bytes of the shadow region in use: the copies made there and the patches. -/
def shadowUsed (s : State) : Nat :=
  (s.att.recs.filter (fun r => decide (r.ty ≠ 4))).foldl (fun n r => n + r.body.length) 0 + s.att.patches.foldl (fun n p => n + p.2.length) 0

/-- Wait for patch space: the engine captures owed chunks in ascending order until `n` bytes fit or nothing is owed. -/
def makeSpace (n : Nat) : Nat → State → State
  | 0, s => s
  | k + 1, s =>
    if shadowUsed s + n ≤ regBits s rAttShadowLen 31 0 * chunkBytes then s
    else match s.att.owed with
      | [] => s
      | o :: _ => makeSpace n k (captureChunk s o)

/-- Whether the epoch in progress owes a chunk that a row touches. -/
def owes (s : State) (a n : Nat) : Bool := s.att.owed.any (fun o => decide (o.addr < a + n) && decide (a < o.addr + o.len))

/-- Hand over the pre-write form of a row (R408), once per epoch. -/
def handOver (s : State) (a n : Nat) : State :=
  if !(owes s a n) ∨ s.att.patches.any (fun p => decide (p.1 = a)) then s
  else
    let full := decide (regBits s rAttShadowLen 31 0 * chunkBytes < shadowUsed s + n)
    let s := if full then makeSpace n (s.att.owed.length + 1) (regCount s rAttStat 47 32 1) else s
    if !(owes s a n) then s else { s with att := { s.att with patches := s.att.patches ++ [(a, captureBytes s a n)] } }

/-- A write to a row of a shard: handed over first, then its chunks are dirty (R407). -/
def beforeRowWrite (s : State) (shard a n : Nat) : State :=
  let s := handOver s a n
  { s with att := { s.att with dirty := (chunksOf shard a n).foldl (fun l c => setInsert c l) s.att.dirty } }

/-- Write the stored form of a row of a table's slot `v`. -/
def writeRow (s : State) (f : Nat) (d : TableDesc) (v a : Nat) (bs : List Byte) : State :=
  let s := beforeRowWrite s (verShard s d v) a bs.length
  (viewPut s (translate s a) bs (unitLdr f)).1

end Sys2Proof.Machine
end

