-- ==== Sys2Proof/Machine/RowCodec.lean ====
section
/-!
DEFINITION. Row storage codes (R43 to R47, Tables 2.4 to 2.6), gradient formats (R206) and running-maximum streams (R50).
-/
namespace Sys2Proof.Machine

/-! ### Rows -/

/-- The metadata of a row's wire form. -/
def rowMeta (code d : Nat) (w : List Byte) : Nat := leNat (w.drop (if code = 0 then 2 * d else if code = 4 then d / 2 else d))

/-- The exact values of a row's wire form: scale × element (Table 2.4). -/
def rowVals (code d : Nat) (w : List Byte) : List FV :=
  let m := rowMeta code d w
  let s := bf16V m
  let scaled (v : FV) : FV := (fvMul s v).1
  match code with
  | 0 => ((chunks 2 (d + 1) (w.take (2 * d))).map (fun b => bf16V (leNat b)))
  | 1 => ((w.take d).map (fun b => scaled (fp8Dec .e4m3 b.toNat)))
  | 2 => ((w.take d).map (fun b => scaled (fp8Dec .e5m2 b.toNat)))
  | 3 => ((w.take d).map (fun b => scaled (fvOfInt (Int.ofNat b.toNat - Int.ofNat (nbits m 23 16)))))
  | _ => (((w.take (d / 2)).map (fun b => [b.toNat % 16, b.toNat / 16])).flatten.map (fun c => scaled (bg4Dec c)))

/-- A row delivered to a room: its values rounded once to BF16 (R45). -/
def rowBf16 (code d : Nat) (w : List Byte) : List Byte := ((rowVals code d w).map (fun v => leBytes 2 (toBf16V v))).flatten

/-- A row as the cellar update engine decodes it: exact binary32 values (R288). -/
def rowLanes (code d : Nat) (w : List Byte) : List Lane := (rowVals code d w).map (fun v => (toB32 v).1)

/-- Cases of an element that no row code but BF16 can hold (Table 2.9). -/
def rowNonfinite (v : FV) : NumFlags := { noFlags with nonfinite := !(fvIsFin v) }

/-- Round a quotient to an integer, by RNE or stochastically. -/
def roundInt (sr : Bool) (draw : Nat) : FV → Int
  | .fin s m e =>
    let up (lo : Nat) : Bool :=
      if 0 ≤ e then false
      else if sr then decide (65536 ≤ (65536 * (m % 2 ^ (-e).toNat)) / 2 ^ (-e).toNat + draw)
      else decide (2 ^ (-e).toNat < 2 * (m % 2 ^ (-e).toNat)) ||
        (decide (2 ^ (-e).toNat = 2 * (m % 2 ^ (-e).toNat)) && decide (lo % 2 = 1))
    let lo := fvFloorMag m e
    let n := if up lo then lo + 1 else lo
    if s then -Int.ofNat n else Int.ofNat n
  | _ => 0

/-- The range of a row's finite values, with 0 (Table 2.5, code 3). -/
def rowRange (vs : List FV) : FV × FV :=
  vs.foldl (fun r v => if fvIsFin v then (if fvLt v r.1 then v else r.1, if fvLt r.2 v then v else r.2) else r) (.fin false 0 0, .fin false 0 0)

/-- RU32 of a value: binary32, rounded toward +∞, for a non-negative value. -/
def ruV (v : FV) : Lane := match v with | .fin _ m e => ru32 m e | .inf _ => 0x7F800000#32 | .nan => b32Nan

/-- Encode a row under code 3. -/
def encodeInt8Row (sr : Bool) (draw : Nat → Nat) (xs : List Lane) : List Byte × CaseCounts :=
  let vs := xs.map b32
  let r := rowRange vs
  let diff := ruV (fvAdd r.2 (fvNeg r.1)).1
  let s := if fvEq r.1 r.2 then 0x3F80 else ruBf16 (ruDivNat (b32 diff) 255)
  let sl := bf16ToLane s
  let z := roundInt false 0 (b32 (b32Div (toB32 (fvNeg r.1)).1 sl).1)
  let zero := if z < 0 then 0 else if 255 < z then 255 else z
  let one (x : Lane) (i : Nat) : Int × Bool :=
    match b32 x with
    | .nan => (zero, false)
    | .inf sg => (if sg then 0 else 255, false)
    | _ => let c := roundInt sr (draw i) (b32 (b32Div x sl).1) + zero; (if c < 0 then 0 else if 255 < c then 255 else c, decide (c < 0 ∨ 255 < c))
  let cs := (xs.zipIdx).map (fun p => one p.1 p.2)
  let nf := vs.any (fun v => !(fvIsFin v))
  let m := s + zero.toNat * 2 ^ 16 + b2n (cs.any (fun c => c.2)) * 2 ^ 24 + b2n nf * 2 ^ 25
  (cs.map (fun c => BitVec.ofNat 8 c.1.toNat) ++ leBytes 4 m, vs.foldl (fun c v => c.add (rowNonfinite v)) {})

/-- Encode a row of binary32 values (R46, Table 2.5): its wire form and the cases met. -/
def encodeRow (code : Nat) (sr : Bool) (draw : Nat → Nat) (xs : List Lane) : List Byte × CaseCounts :=
  let vs := xs.map b32
  let a := maxMag vs
  let nf : CaseCounts := vs.foldl (fun c v => c.add (rowNonfinite v)) {}
  let fp8 (t : Fp8) : List Byte × CaseCounts :=
    let s := if fvIsZero a then 0x3F80 else ruBf16 (ruDivNat a (fp8Max t))
    ((xs.zipIdx).map (fun p => BitVec.ofNat 8 (toFp8V t sr (draw p.2) (b32 (b32Div p.1 (bf16ToLane s)).1)).1) ++ leBytes 2 s, nf)
  match code with
  | 0 =>
    let cs := (xs.zipIdx).map (fun p => toBf16 sr (draw p.2) p.1)
    ((cs.map (fun c => leBytes 2 c.1)).flatten, cs.foldl (fun (c : CaseCounts) x => c.add x.2) {})
  | 1 => fp8 .e4m3
  | 2 => fp8 .e5m2
  | 3 => encodeInt8Row sr draw xs
  | _ =>
    let s := if fvIsZero a then 0x3F80 else ruBf16 (ruV a)
    let cs := (xs.zipIdx).map (fun p => (encodeBg4 p.1 s sr (draw p.2)).1)
    ((chunks 2 (cs.length + 1) cs).map (fun p => BitVec.ofNat 8 (p.headD 0 + 16 * p.getD 1 0)) ++ leBytes 2 s, nf)

/-! ### Running-maximum streams (R50) -/

def getStream (s : State) (id : Nat) : Stream := smGet {} s.seq.streams id

/-- Convert values on a stream: codes, the exponent used, and the cases met; the stream's maximum grows. -/
def streamConvert (s : State) (id : Nat) (t : Fp8) (xs : List Lane) : State × List Byte × Int × CaseCounts :=
  let st := getStream s id
  let cs := xs.map (fun x => toFp8V t false 0 (fvScale (b32 x) (-st.x)))
  let m := (toB32 (maxMag (b32 st.m :: xs.map b32))).1
  ({ s with seq := { s.seq with streams := smSet {} s.seq.streams id { st with m := m, e5 := t == .e5m2 } } },
   cs.map (fun c => BitVec.ofNat 8 c.1), st.x, cs.foldl (fun (c : CaseCounts) x => c.add x.2) {})

/-- The latch at a commit barrier: the smallest exponent that covers the maximum, which returns to 0. -/
def latchStream (st : Stream) : Stream :=
  if fvIsZero (b32 st.m) then { st with m := 0 }
  else { st with x := scaleExp (if st.e5 then .e5m2 else .e4m3) (b32 st.m), m := 0 }

/-! ### Gradient formats (R206, R210) -/

/-- Bytes per value of GRAD_FMT. -/
def gradBytes (g : Nat) : Nat := if g = 0 then 4 else if g = 1 then 2 else 1

/-- Encode a row gradient: the bytes, the exponent, and the cases met. -/
def encodeGrad (s : State) (g stream : Nat) (xs : List Lane) : State × List Byte × Int × CaseCounts :=
  match g with
  | 0 => (s, (xs.map (fun x => leBytes 4 x.toNat)).flatten, 0, {})
  | 1 =>
    let cs := xs.map (fun x => toBf16 false 0 x)
    (s, (cs.map (fun c => leBytes 2 c.1)).flatten, 0, cs.foldl (fun (c : CaseCounts) x => c.add x.2) {})
  | 2 => streamConvert s stream .e4m3 xs
  | _ => streamConvert s stream .e5m2 xs

/-- Decode a contribution exactly to binary32 (R41, R210). -/
def decodeGrad (g d : Nat) (exp : Int) (bs : List Byte) : List Lane :=
  match g with
  | 0 => (chunks 4 (d + 1) (bs.take (4 * d))).map (fun b => BitVec.ofNat 32 (leNat b))
  | 1 => (chunks 2 (d + 1) (bs.take (2 * d))).map (fun b => bf16ToLane (leNat b))
  | 2 => (bs.take d).map (fun b => (toB32 (fvScale (fp8Dec .e4m3 b.toNat) exp)).1)
  | _ => (bs.take d).map (fun b => (toB32 (fvScale (fp8Dec .e5m2 b.toNat) exp)).1)

end Sys2Proof.Machine
end

