-- ==== Sys2Proof/Machine/Held.lean ====
section
/-!
DEFINITION. The cellar update queues as they lie in memory (R207, R209, Table 8.9), and the reads that the update window holds (R291).
-/
namespace Sys2Proof.Machine

/-! ### The update window (R291) -/

/-- Records of a cellar's queue in device memory (Table 8.9): each with the bytes of its header and values. -/
def parseRecords (s : State) (a : Nat) : Nat → Nat → List (List Byte)
  | 0, _ => []
  | k + 1, left =>
    if left = 0 then []
    else
      let d := tableDesc s (nbits (memNat s a 8) 55 40)
      let n := 32 + roundUp (d.dim * gradBytes d.gradFmt) 32
      (readBytes s a n).1 :: parseRecords s (a + n) k (left - n / 32)

def queueBase (s : State) (c : Nat) : Nat := regBits s (rLdrCqBase c) 63 5 * 32
def queueFill (s : State) (c : Nat) : Nat := regBits s (rLdrCqState c) 31 0
def queueRecords (s : State) (c : Nat) : List (List Byte) := parseRecords s (queueBase s c) (queueFill s c) (queueFill s c)

def recTable (r : List Byte) : Nat := nbits (leNat (r.take 8)) 55 40
def recRow (r : List Byte) : Nat := nbits (leNat (r.take 8)) 39 0
def recFolded (r : List Byte) : Bool := decide (nbits (leNat (r.take 8)) 56 56 = 1)
def recKey (r : List Byte) : Nat := leNat ((r.drop 8).take 4)
def recRank (r : List Byte) : Nat := leNat ((r.drop 12).take 2)
def recFloor (r : List Byte) : Nat := leNat ((r.drop 14).take 1) % 16
def recExp (r : List Byte) : Int := toSigned 8 (leNat ((r.drop 15).take 1))
def recOrigin (r : List Byte) : Nat := leNat ((r.drop 16).take 8)

/-- Whether a read of a row of a table at an address waits for the commit release (R291). -/
def rowHeld (s : State) (table a : Nat) : Bool :=
  s.ldr.closed.isSome &&
    (let c := rowCellar s a
     decide ((c, table) ∈ s.ldr.held) ||
       (queueRecords s c).any (fun r => decide (recTable r = table) && decide (recRank r ∉ s.ldr.closeAbsent)))

/-- Whether a read of `n` bytes from `a` meets a row that the update window holds (R291): it lies in the CURRENT shard of such a table. -/
def shardHeld (s : State) (a n : Nat) : Bool :=
  s.ldr.closed.isSome && (validTables s).any (fun t =>
    let d := tableDesc s t
    let sh := verShard s d (curSlot s d)
    decide (a < sh + shardBytes s d (rowMapOf s d)) && decide (sh < a + n) &&
      (upTo (ceilDiv n (strideBytes d) + 1)).any (fun i => rowHeld s t (a + i * strideBytes d)))

end Sys2Proof.Machine
end

