-- ==== Sys2Proof/Machine/Elastic.lean ====
section
/-!
DEFINITION. The move slot and the elastic operations (R103 to R107, R488, Tables 4.7, 4.8 and 4.11): arming, the checks of a request, and the
completions of copies, atomics, fences and prefetches. Data moves when an operation completes.
-/
namespace Sys2Proof.Machine

/-! ### Tokens and their completion -/

/-- Table 4.11: the status word of a completed token. -/
def doneWord (code parts : Nat) : Word :=
  BitVec.ofNat 64 (code % 2 ^ 16 + 2 ^ 17 + (if code = 0 then 0 else 2 ^ 18) + (parts % 2 ^ 32) * 2 ^ 32)

/-- Every part failed. -/
def allParts : Nat := 2 ^ 32 - 1

/-- A WAIT ends on a completed token (R109 to R111): the token returns to idle and keeps its status, lateness is counted, the next
bundle's beat is fixed, and a failed token under CF = 0b01 stops the room. -/
def waitEnds (s : State) (r : Nat) (h : Hold) : State :=
  let q := getRoom s r
  let t := token q h.tk
  let m := max h.w h.e
  let late := t.doneAt - m
  let q := { q with
    toks := smSet {} q.toks h.tk { t with st := .idle, word := setBits t.word 19 19 (b2n (decide (0 < late))) }
    run := if q.run = .stopped then .stopped else .running, hold := some h, resumeAt := max m t.doneAt + 1
    lateCycles := q.lateCycles + late
    lateWaits := q.lateWaits + b2n (decide (0 < late))
    lateMax := max q.lateMax late
    firstLate := if q.firstLate = 0 ∧ 0 < late then
      BitVec.ofNat 64 (h.bundle % 2 ^ 12 + (h.tk % 2 ^ 6) * 2 ^ 12 + (late % 2 ^ 32) * 2 ^ 32) else q.firstLate }
  let s := setRoom s r q
  if h.cf = 1 ∧ bitOf t.word 18 = true then
    stopRoom (recordFault s (bits t.word 15 0) (unitRoom q.floor) (roomItems r q 0)) r codeOpFailed 0
  else s

/-- A token completes (R107, R120), and a WAIT that holds the room on it ends. -/
def completeToken (s : State) (r tk code parts : Nat) : State :=
  let q := getRoom s r
  let q := { q with
    ops := eraseFirst (fun o => decide (o.f.tk.toNat = tk)) q.ops
    toks := smModify {} q.toks tk (fun t => { t with st := .complete, word := doneWord code parts, doneAt := seenBeat s }) }
  let s := setRoom s r q
  match q.hold with
  | some h => if q.run = .held ∧ h.tk = tk then waitEnds s r h else s
  | none => s

/-- Whether the engine has started an operation of the room (R103): it starts them in issue order, and one with FEN = 1 only after every earlier operation
of the room has completed; an MFENCE completes only then. -/
def mayStart (q : Room) (o : Elastic) : Bool :=
  let before := q.ops.takeWhile (fun p => decide (p.f.tk ≠ o.f.tk))
  decide ((token q o.f.tk.toNat).st = .pending) &&
    (before.isEmpty || ((before.drop 1).all (fun p => decide (p.f.fen = 0)) && decide (o.f.fen = 0) && decide (o.kind ≠ .mfence)))

/-- The operation whose token is `tk`, when it has started. -/
def startedOp (s : State) (r tk : Nat) : Option Elastic :=
  let q := getRoom s r
  (q.ops.find? (fun o => decide (o.f.tk.toNat = tk))).filter (mayStart q)

/-- Whether an atomic waits for an earlier atomic of its room on the same elements, which R106 orders first. -/
def atomWaits (q : Room) (o : Elastic) : Bool :=
  decide (o.kind = .matom) && (q.ops.takeWhile (fun p => decide (p.f.tk ≠ o.f.tk))).any (fun p =>
    decide (p.kind = .matom) && decide (p.dst < o.dst + o.len) && decide (o.dst < p.dst + p.len))

/-! ### Requests (R104, R488) -/

/-- Values per line on the narrow side, block size (1 for per-line scales), and bytes per line, from X[XQ]; none when R488 does not
allow the shape. -/
def lineShape (fmt : Nat) (shape : Word) : Option (Nat × Nat × Nat) :=
  let k := bits shape 31 8
  let bc := bits shape 1 0
  if shape = 0 ∨ k = 0 ∨ bits shape 7 2 ≠ 0 ∨ bits shape 63 32 ≠ 0 ∨ (5 < fmt ∧ bc ≠ 0) then none
  else
    let b := if fmt ≤ 5 then blockSize bc else 1
    some (k, b, if fmt ≤ 5 then ceilDiv k b * b else if fmt = 6 then k else ceilDiv k 2)

/-- Whether the narrow side of a converting transfer carries scales (R488). -/
def scaled (store : Bool) (fmt : Nat) (f : MoveSlot) : Bool :=
  decide (f.sfmt ≠ f.dfmt) && (decide (fmt = 4 ∨ fmt = 5) || (decide (fmt = 6 ∨ fmt = 7) && (store || decide (f.xq ≠ 0))))

/-- Format pairs that Table 2.7 offers for a path. -/
def pathOffers (store : Bool) (sf df : Nat) : Bool :=
  if sf = df then decide (sf ≤ 8)
  else if store then decide (sf ≤ 1) && decide (1 ≤ df) && decide (df ≤ 7)
  else decide (sf ≤ 8) && decide (df ≤ 1)

/-- The checks of an MLOAD's or MSTORE's formats and shape. -/
def copyOk (store : Bool) (f : MoveSlot) (len : Nat) (shape : Word) : Bool :=
  let nf := if store then f.dfmt.toNat else f.sfmt.toNat
  pathOffers store f.sfmt.toNat f.dfmt.toNat &&
    (if scaled store nf f then
      (decide (f.xq ≠ 0) && (match lineShape nf shape with | some (_, _, lb) => decide (len % lb = 0) | none => false))
    else decide (f.xq = 0))

/-- Whether a request is well formed (R104): its length, what its operation checks, and no shape register but on a copy (Table 4.7). -/
def requestOk (q : Room) (kind : ElasticKind) (f : MoveSlot) (len : Nat) (shape : Word) : Bool :=
  let lenOk := decide (len % 64 = 0) && decide (len ≤ (if kind = .mroom then 2 * mib else 16 * mib))
  let plain := decide (f.xq = 0)
  match kind with
  | .mload => lenOk && copyOk false f len shape
  | .mstore => lenOk && copyOk true f len shape
  | .mroom => lenOk && plain
  | .mpref => lenOk && plain
  | .matom => lenOk && plain && decide (f.sfmt = 0 ∨ f.sfmt = 8) && decide (f.aop.toNat ≤ 4)
  | .mreduce => plain && !(q.ops.any (fun o => o.kind == .mreduce))
  | _ => plain

/-- Whether an operation's length register counts. -/
def hasLength (kind : ElasticKind) : Bool :=
  match kind with
  | .mload => true
  | .mstore => true
  | .mroom => true
  | .matom => true
  | .mpref => true
  | _ => false

/-- An elastic operation issues (R103, R104): its registers are read, its token is armed for the next beat, and it queues in issue
order. A malformed request, or one of length 0, ends at once. -/
def moveBody (s : State) (r : Nat) (kind : ElasticKind) (f : MoveSlot) (q : Room) : SlotRes :=
  let tk := f.tk.toNat
  if (token q tk).st ≠ .idle then .error { code := codeTokenBusy }
  else
    let len := (xReg q f.xl.toNat).toNat
    let shape := if f.xq = 0 then 0 else xReg q f.xq.toNat
    let ok := requestOk q kind f len shape
    let kind' : ElasticKind := if !ok then .done codeMoveShape allParts
      else if hasLength kind && decide (len = 0) then .done 0 0 else kind
    let o : Elastic := { kind := kind', f := f, issued := s.now, src := (aReg q f.asrc.toNat).toNat, dst := (aReg q f.adst.toNat).toNat,
                         len := len, par := xReg q f.xp.toNat, shape := shape }
    let s := modRoom s r (fun q => { q with ops := q.ops ++ [o] })
    let s := if ok then s else recordFault s codeMoveShape (unitRoom q.floor) (roomItems r q 0)
    .ok (addAction s r (s.beat + 1) 0 (.tok tk { st := .pending, word := 0x10000#64, armed := s.beat, doneAt := 0 }))

/-! ### The two sides of a copy -/

/-- Where one side of a copy lies: device memory, the store of a resident room, or a swap slot (R138). -/
inductive Side where
  | dev (a : Nat)
  | own (r off : Nat)
  | swap (r off : Nat)
  deriving DecidableEq, Repr

def Side.shift (d : Side) (n : Nat) : Side :=
  match d with
  | .dev a => .dev (a + n)
  | .own r off => .own r (off + n)
  | .swap r off => .swap r (off + n)

/-- The start of the side rounded up to a 64-B boundary `n` bytes on (R488). -/
def Side.after (d : Side) (n : Nat) : Side :=
  match d with
  | .dev a => .dev (roundUp (a + n) 64)
  | .own r off => .own r (roundUp (off + n) 64)
  | .swap r off => .swap r (roundUp (off + n) 64)

/-- The swap slot that holds a room while it is not resident (R138). -/
def swapSlot (s : State) (r : Nat) : Option Nat := (s.job.swaps.find? (fun w => decide (w.1 = r))).map (fun w => w.2)

/-- The device address of up to 64 B of a side; none past the end of a room store (R23). -/
def sideAddr (s : State) (d : Side) (n : Nat) : Option Nat :=
  match d with
  | .dev a => some a
  | .own r off => let q := getRoom s r; if off + n ≤ storeBytes then some (storeAddr q.floor q.pos off) else none
  | .swap r off => if off + n ≤ storeBytes then (swapSlot s r).map (fun a => a + off) else none

/-- Failed parts as (line, code). -/
abbrev Fails := List (Nat × Nat)

def failIf (i c : Nat) : Fails := if c = 0 then [] else [(i, c)]

/-- Read one line of a side: failed lines read as zeros (Table 6.8). An aligned line is read whole. -/
def lineRead (s : State) (d : Side) (n unit : Nat) : State × List Byte × Nat :=
  match sideAddr s d n with
  | some a =>
    let k := 64 - a % 64
    let w := if a % 64 = 0 then 64 else n
    let x := readPart s a w
    let s := noteRead s a (readCode s a (min w k)) unit
    let s := if w ≤ k then s else noteRead s (a + k) (readCode s (a + k) (w - k)) unit
    (s, x.1.take n, x.2)
  | none => (s, zeros n, codeUnmapped)

/-- Write one line of a side. -/
def lineWrite (s : State) (d : Side) (bs : List Byte) (unit : Nat) : State × Nat :=
  match sideAddr s d bs.length with
  | some a => let x := writePart s a bs; (noteWrite x.1 a x.2 unit, x.2)
  | none => (s, codeUnmapped)

/-- Read `n` bytes of a side line by line, the first being line `i`. -/
def sideRead (s : State) (unit : Nat) (d : Side) (i : Nat) : Nat → Nat → State × List Byte × Fails
  | 0, _ => (s, [], [])
  | k + 1, n =>
    let x := lineRead s d (min 64 n) unit
    let y := sideRead x.1 unit (d.shift 64) (i + 1) k (n - 64)
    (y.1, x.2.1 ++ y.2.1, failIf i x.2.2 ++ y.2.2)

def readSide (s : State) (unit : Nat) (d : Side) (i n : Nat) : State × List Byte × Fails :=
  sideRead s unit d i (ceilDiv n 64) n

/-- Write bytes to a side line by line, the first being line `i`. -/
def sideWrite (s : State) (unit : Nat) (d : Side) (i : Nat) : List (List Byte) → State × Fails
  | [] => (s, [])
  | bs :: rest =>
    let x := lineWrite s d bs unit
    let y := sideWrite x.1 unit (d.shift 64) (i + 1) rest
    (y.1, failIf i x.2 ++ y.2)

def writeSide (s : State) (unit : Nat) (d : Side) (i : Nat) (bs : List Byte) : State × Fails :=
  let x := sideWrite s unit d i (chunks 64 (bs.length + 1) bs)
  match d with
  | .dev a => (noteWritten x.1 a bs.length, x.2)
  | .own _ _ => x
  | .swap _ _ => x

/-- The first fault by line, and the bitmap of failed parts (R107). -/
def failSum (fs : Fails) : Nat × Nat :=
  ((match (fs.mergeSort (fun a b => decide (a.1 ≤ b.1))) with | x :: _ => x.2 | [] => 0),
   fs.foldl (fun p x => Nat.lor p (partBit x.1)) 0)

/-! ### Conversions (Table 2.7, R488) -/

/-- The exact values of unscaled codes. -/
def tensorVals (fmt : Nat) (bs : List Byte) : List FV :=
  match fmt with
  | 0 => (valuesOf 4 bs).map (fun c => b32 (BitVec.ofNat 32 c))
  | 1 => (valuesOf 2 bs).map bf16V
  | 2 => (valuesOf 1 bs).map (fp8Dec .e4m3)
  | 3 => (valuesOf 1 bs).map (fp8Dec .e5m2)
  | 6 => (valuesOf 1 bs).map (fun c => fvOfInt (toSigned 8 c))
  | 7 => ((valuesOf 1 bs).map (fun c => [fvOfInt (toSigned 4 c), fvOfInt (toSigned 4 (c / 16))])).flatten
  | _ => (valuesOf 4 bs).map (fun c => fvOfInt (toSigned 32 c))

/-- A value rounded once to binary32 or BF16, with its overflow. -/
def wideCode (df : Nat) (v : FV) : List Byte × NumFlags :=
  if df = 1 then let x := fenc fmtBf16 v; (leBytes 2 x.1, { noFlags with overflow := x.2 })
  else let x := toB32 v; (leBytes 4 x.1.toNat, { noFlags with overflow := x.2 })

def wideCodes (df : Nat) (vs : List FV) : List Byte × CaseCounts :=
  let xs := vs.map (wideCode df)
  ((xs.map (fun x => x.1)).flatten, xs.foldl (fun c x => c.add x.2) {})

/-- The values of one narrow line with its scales, and whether each formed 0 × ∞: `codes` the line's bytes, `sc` its scale bytes. -/
def lineVals (fmt k b : Nat) (codes sc : List Byte) : List (FV × Bool) :=
  let block (t : Fp8) : List (FV × Bool) :=
    ((codes.take k).zipIdx).map (fun p => (decodeBlockElem t ((sc.getD (p.2 / b) 0).toNat) p.1.toNat, false))
  match fmt with
  | 4 => block .e4m3
  | 5 => block .e5m2
  | _ => ((tensorVals fmt codes).take k).map (fun v => fvMul v (b32 (BitVec.ofNat 32 (leNat sc))))

/-- Scale bytes of one line. -/
def lineScaleBytes (fmt k b : Nat) : Nat := if fmt ≤ 5 then ceilDiv k b else 4

/-- The bytes of the scales that follow the narrow side of a copy, 0 for none (R488). -/
def scaleLength (store : Bool) (o : Elastic) : Nat :=
  let fmt := if store then o.f.dfmt.toNat else o.f.sfmt.toNat
  match (if scaled store fmt o.f then lineShape fmt o.shape else none) with
  | some (k, b, lb) => roundUp (o.len / lb * lineScaleBytes fmt k b) 64
  | none => 0

/-- Whether an operation waits for a channel that retrains (R180), or, where it reads, for the commit release that ends the update window (R291). -/
def opWaits (s : State) (o : Elastic) : Bool :=
  let reads (a n : Nat) : Bool := accessWaits s a n || shardHeld s a n
  match o.kind with
  | .mload => reads o.src o.len || reads (roundUp (o.src + o.len) 64) (scaleLength false o)
  | .mstore => accessWaits s o.dst o.len || accessWaits s (roundUp (o.dst + o.len) 64) (scaleLength true o)
  | .matom => reads o.dst o.len
  | .mpref => accessWaits s o.src o.len
  | _ => false

/-- The wide bytes of a scaled load (R488): whole lines of narrow codes and their scales. -/
def unscale (fmt df k b : Nat) (codeLines scLines : List (List Byte)) : List Byte × CaseCounts :=
  let vs := ((codeLines.zip scLines).map (fun p => lineVals fmt k b p.1 p.2)).flatten
  let r := wideCodes df (vs.map (fun v => v.1))
  (r.1 ++ zeros (roundUp r.1.length 64 - r.1.length), r.2.plus { inv := (vs.filter (fun v => v.2)).length })

/-- One line of a scaled store: its codes, its scale bytes, and the cases met. `base` is the line's first element index. -/
def scaleLine (fmt b : Nat) (sr : Bool) (draw : Nat → Nat) (base : Nat) (vs : List FV) : List Byte × List Byte × CaseCounts :=
  if fmt ≤ 5 then
    let t : Fp8 := if fmt = 4 then .e4m3 else .e5m2
    let blocks := ((chunks b (vs.length + 1) vs).zipIdx).map (fun p =>
      let e := encodeBlock t sr (fun i => draw (base + b * p.2 + i)) p.1
      (e.2.1 ++ List.replicate (b - p.1.length) 0, e.1, e.2.2))
    ((blocks.map (fun x => x.1.map (BitVec.ofNat 8))).flatten, blocks.map (fun x => BitVec.ofNat 8 x.2.1),
      blocks.foldl (fun c x => c.add x.2.2) {})
  else
    let qmax := if fmt = 6 then 127 else 7
    let a := maxMag vs
    let s : Lane := if fvIsZero a then b32One else ruDivNat a qmax
    let xs := (vs.zipIdx).map (fun p => toIntQ qmax sr (draw (base + p.2)) (b32 (b32Div (toB32 p.1).1 s).1))
    let codes := xs.map (fun x => ofSigned (if fmt = 6 then 8 else 4) x.1)
    let bytes := if fmt = 6 then codes.map (BitVec.ofNat 8)
      else (chunks 2 (codes.length + 1) codes).map (fun p => BitVec.ofNat 8 (p.headD 0 + 16 * (p.getD 1 0)))
    (bytes, leBytes 4 s.toNat, xs.foldl (fun c x => c.add x.2) {})

/-- Report an elastic conversion's cases (R61). Within a cycle they come after the arrays' of the same room, which R62 orders (log 149). -/
def elasticCases (s : State) (r sid : Nat) (c : CaseCounts) : State :=
  let q := getRoom s r
  unitCases s c (numKey r 63 1 0) (unitRoom q.floor) [(r, 2), (q.floor * 256 + q.pos, 2), (sid, 2)]

/-! ### Completions -/

/-- MLOAD: copy or decode from device memory into the room store. -/
def loadDone (s : State) (r : Nat) (o : Elastic) : State × Nat × Nat :=
  let sf := o.f.sfmt.toNat
  let df := o.f.dfmt.toNat
  let unit := unitRoom (getRoom s r).floor
  let src : Side := .dev o.src
  let x := readSide s unit src 0 o.len
  match (if scaled false sf o.f then lineShape sf o.shape else none) with
  | some (k, b, lb) =>
    let n := o.len / lb
    let per := lineScaleBytes sf k b
    let y := readSide x.1 unit (src.after o.len) (ceilDiv o.len 64) (roundUp (n * per) 64)
    let d := unscale sf df k b (chunks lb (n + 1) x.2.1) (chunks per (n + 1) (y.2.1.take (n * per)))
    let z := writeSide (elasticCases y.1 r o.f.sid.toNat d.2) unit (.own r o.dst) 0 d.1
    let t := failSum (x.2.2 ++ y.2.2 ++ z.2)
    (z.1, t.1, t.2)
  | none =>
    let d := if sf = df then (x.2.1, {}) else wideCodes df (tensorVals sf x.2.1)
    let z := writeSide (elasticCases x.1 r o.f.sid.toNat d.2) unit (.own r o.dst) 0 d.1
    let t := failSum (x.2.2 ++ z.2)
    (z.1, t.1, t.2)

/-- Poison the stack lines from line `lo` to below `hi` of a device destination (Table 6.8). -/
def poisonLines (s : State) (a lo hi : Nat) : State :=
  (upTo (hi - lo)).foldl (fun s i => poisonLine s (a + 64 * (lo + i))) s

/-- MSTORE: copy or encode from the room store to device memory. Lines fed by a failed source line are poisoned. -/
def storeDone (s : State) (r : Nat) (o : Elastic) : State × Nat × Nat :=
  let sf := o.f.sfmt.toNat
  let df := o.f.dfmt.toNat
  let unit := unitRoom (getRoom s r).floor
  let sr := decide (o.f.rnd = 1)
  let first := bits o.par 55 32
  let draw (i : Nat) : Nat := if sr then drawOf (roomDrawKey s r 0 o.f.sid.toNat) (first + i) else 0
  let es := cellBytes sf
  let dst : Side := .dev o.dst
  match (if scaled true df o.f then lineShape df o.shape else none) with
  | some (k, b, lb) =>
    let n := o.len / lb
    let x := readSide s unit (.own r o.src) 0 (roundUp (n * k * es) 64)
    let vals := (tensorVals sf x.2.1).take (n * k)
    let ls := ((chunks k (n + 1) vals).zipIdx).map (fun p => scaleLine df b sr draw (k * p.2) p.1)
    let codes := (ls.map (fun l => l.1)).flatten
    let scs := (ls.map (fun l => l.2.1)).flatten
    let cases := ls.foldl (fun (c : CaseCounts) l => c.plus l.2.2) {}
    let s := elasticCases x.1 r o.f.sid.toNat cases
    let y := writeSide s unit dst 0 codes
    let z := writeSide y.1 unit (dst.after o.len) (ceilDiv o.len 64) (scs ++ zeros (roundUp scs.length 64 - scs.length))
    let s := x.2.2.foldl (fun s p =>
      poisonLines s o.dst (64 * p.1 / es / k * lb / 64) (ceilDiv (min n (ceilDiv (ceilDiv (64 * (p.1 + 1)) es) k) * lb) 64)) z.1
    let t := failSum (x.2.2 ++ y.2 ++ z.2)
    (s, t.1, t.2)
  | none =>
    let x := readSide s unit (.own r o.src) 0 o.len
    let ds := cellBytes df
    let xs := if sf = df then [] else ((tensorVals sf x.2.1).zipIdx).map (fun p =>
      narrowLane df (BitVec.ofNat 32 (bits o.par 31 0)) sr (draw p.2) (toB32 p.1).1)
    let bs := if sf = df then x.2.1 else (xs.map (fun c => leBytes ds c.1)).flatten
    let s := elasticCases x.1 r o.f.sid.toNat (xs.foldl (fun c x => c.add x.2) {})
    let y := writeSide s unit dst 0 bs
    let scale := if sf = df then 1 else es
    let wide := if sf = df then 1 else ds
    let s := x.2.2.foldl (fun s p => poisonLines s o.dst (p.1 * wide / scale) (ceilDiv ((p.1 + 1) * wide) scale)) y.1
    let t := failSum (x.2.2 ++ y.2)
    (s, t.1, t.2)

/-- The bitmap of a request of `n` lines that failed whole. -/
def linesFailed (n : Nat) : Nat := (upTo n).foldl (fun p i => Nat.lor p (partBit i)) 0

/-- MROOM: copy into another logical room's store, or its swap slot when it is not resident (R23, R138). -/
def roomDone (s : State) (r : Nat) (o : Elastic) : State × Nat × Nat :=
  let there := bits o.par 11 0
  if s.seq.image.lrooms ≤ there then (s, codeUnmapped, linesFailed (o.len / 64))
  else
    let unit := unitRoom (getRoom s r).floor
    let x := readSide s unit (.own r o.src) 0 o.len
    let dst : Side := if (swapSlot s there).isNone then .own there o.dst else .swap there o.dst
    let y := writeSide x.1 unit dst 0 x.2.1
    let t := failSum (x.2.2 ++ y.2)
    (y.1, t.1, t.2)

/-! ### Atomics (R148, R149) -/

/-- One element's operation (Table 4.8, AOP). -/
def atomElem (aop : Nat) (sat : Bool) (m v : Lane) : Lane × NumFlags :=
  match aop with
  | 0 => b32Add m v
  | 1 => i32Add sat m v
  | 2 => b32Max m v
  | 3 => b32Min m v
  | _ => (v, noFlags)

/-- The fault of an atomic on the line at `a` (R148, R24, R167); 0 for none. -/
def atomCode (s : State) (a : Nat) : Nat :=
  let p := translate s a
  match locate s p with
  | .stack => readCode s a 64
  | .pinned => 0
  | .store => codeAtomicTarget
  | .ctl => codeAtomicTarget
  | .unmapped => if apertureBase ≤ p ∧ p < apertureBase + 20 * (64 * mib) then codeAtomicTarget else codeUnmapped

/-- The home cellar of a device address that a cellar cache serves. -/
def homeCellar (s : State) (a : Nat) : Option Nat :=
  let p := translate s a
  match locate s p with
  | .stack => (chanOf s p).map (fun x => x.1 / 32)
  | .pinned => some (p % 2 ^ 40 / (64 * mib))
  | _ => none

/-- The atomics of one line: the old bytes (zeros when it fails), the fault, and the state. -/
def atomLine (s : State) (unit aop : Nat) (sat : Bool) (a : Nat) (vals : List Byte) : State × List Byte × Nat :=
  let c := atomCode s a
  let s1 := match locate s (translate s a) with
    | .stack => noteRead s a c unit
    | _ => accessFault s a c unit
  if c ≠ 0 then (s1, zeros vals.length, c)
  else
    let old := (readPart s a vals.length).1
    let xs := ((valuesOf 4 old).zip (valuesOf 4 vals)).map (fun p => atomElem aop sat (BitVec.ofNat 32 p.1) (BitVec.ofNat 32 p.2))
    let s2 := (writePart s1 a ((xs.map (fun x => leBytes 4 x.1.toNat)).flatten)).1
    let s2 := match homeCellar s a with | some c => regCount s2 (rCelStat c) 63 32 1 | none => s2
    let cs := xs.foldl (fun (c : CaseCounts) x => c.add x.2) {}
    (unitCases s2 cs (numKey 4096 0 0 0) (unitId 2 ((homeCellar s a).getD 0)) [(a, 8)], old, 0)

/-- The atomics of a run of lines. -/
def atomLines (s : State) (unit aop : Nat) (sat : Bool) (a i : Nat) (bad : List Nat) : List (List Byte) → State × List Byte × Fails
  | [] => (s, [], [])
  | v :: vs =>
    let x := if i ∈ bad then (s, zeros v.length, 0) else atomLine s unit aop sat a v
    let y := atomLines x.1 unit aop sat (a + 64) (i + 1) bad vs
    (y.1, x.2.1 ++ y.2.1, failIf i x.2.2 ++ y.2.2)

/-- MATOM: every element is applied in the cellar cache; a swap's old values go to the room store. -/
def atomDone (s : State) (r : Nat) (o : Elastic) : State × Nat × Nat :=
  let unit := unitRoom (getRoom s r).floor
  let x := readSide s unit (.own r o.src) 0 o.len
  let y := atomLines x.1 unit o.f.aop.toNat (decide (o.f.ovf = 1)) o.dst 0 (x.2.2.map (fun p => p.1)) (chunks 64 (o.len / 64 + 1) x.2.1)
  let y := (noteWritten y.1 o.dst o.len, y.2)
  let z := if o.f.aop = 4 then writeSide y.1 unit (.own r o.src) 0 y.2.1 else (y.1, [])
  let t := failSum (x.2.2 ++ y.2.2 ++ z.2)
  (z.1, t.1, t.2)

/-- Bring a stack line in as a held line when its cellar's hold quota, half of the caching part, allows (R147). -/
def holdLine (s : State) (p : Nat) : State :=
  match chanOf s p with
  | none => s
  | some (id, _) =>
    let c := id / 32
    let held := regBits s (rCelHold c) 25 0
    if smGet 0 s.cel.held (p / 64) ≠ 0 then s
    else if 64 + held ≤ (64 * mib - pinBytes s c) / 2 then
      let s := regPut s (rCelHold c) 25 0 (held + 64)
      { s with cel := { s.cel with held := smSet 0 s.cel.held (p / 64) 2 } }
    else regCount s (rCelHold c) 51 26 1

/-- One line of an MPREF (R147): only stack memory is brought in; an unmapped line fails. -/
def prefLine (s : State) (a unit : Nat) : State × Nat :=
  let p := translate s a
  match locate s p with
  | .stack =>
    let c := readCode s a 64
    let s := noteRead s a c unit
    if c = 0 then (holdLine s p, 0) else (s, c)
  | .pinned => (s, 0)
  | .store => (s, 0)
  | _ => (s, codeUnmapped)

def prefLines (s : State) (unit a i : Nat) : Nat → State × Fails
  | 0 => (s, [])
  | k + 1 =>
    let x := prefLine s a unit
    let y := prefLines x.1 unit (a + 64) (i + 1) k
    (y.1, failIf i x.2 ++ y.2)

def prefDone (s : State) (r : Nat) (o : Elastic) : State × Nat × Nat :=
  let x := prefLines s (unitRoom (getRoom s r).floor) o.src 0 (o.len / 64)
  let t := failSum x.2
  (x.1, t.1, t.2)

/-! ### The staging buffer (R87) -/

/-- Bytes of an MLOAD's wide side. -/
def wideBytes (o : Elastic) : Nat :=
  let sf := o.f.sfmt.toNat
  let df := o.f.dfmt.toNat
  match (if scaled false sf o.f then lineShape sf o.shape else none) with
  | some (k, _, lb) => roundUp (o.len / lb * k * cellBytes df) 64
  | none => if sf = df then o.len else (if sf = 7 then 2 * o.len else o.len / cellBytes sf) * cellBytes df

/-- The resident room and the offset of the last line that an operation writes to its store. -/
def lastLine (s : State) (r : Nat) (o : Elastic) : Option (Nat × Nat) :=
  match o.kind with
  | .mload => some (r, o.dst + wideBytes o - 64)
  | .mroom =>
    let p := bits o.par 11 0
    if p < s.seq.image.lrooms ∧ (swapSlot s p).isNone then some (p, o.dst + o.len - 64) else none
  | .matom => if o.f.aop = 4 then some (r, o.src + o.len - 64) else none
  | _ => none

/-- Whether the bank of a line of a room store is free in the present cycle: no scheduled access takes it, and no other elastic line. -/
def bankFree (s : State) (r off : Nat) : Bool :=
  let q := getRoom s r
  let b := off / 64 % 16
  !(isBeat s && q.banks.any (fun u => decide (u.beat = s.beat ∧ u.bank = b))) && decide ((s.now, b) ∉ q.ebanks)

/-- What an operation that the move engine itself serves does as it completes: the state, the first fault and the failed parts. -/
def moveDone (s : State) (r : Nat) (o : Elastic) : State × Nat × Nat :=
  match o.kind with
  | .mload => loadDone s r o
  | .mstore => storeDone s r o
  | .mroom => roomDone s r o
  | .matom => atomDone s r o
  | .mpref => prefDone s r o
  | _ => (s, 0, 0)

/-- An operation completes, its last line taking its bank; or the line waits in the staging buffer while its bank is taken, or an older line waits for the
same bank (R87; log 148). -/
def completeMove (s : State) (r : Nat) (o : Elastic) : State :=
  let tk := o.f.tk.toNat
  let finish (s : State) : State := let x := moveDone s r o; completeToken x.1 r tk x.2.1 x.2.2
  match lastLine s r o with
  | none => finish s
  | some (p, off) =>
    let older := ((getRoom s r).ops.takeWhile (fun x => decide (x.f.tk ≠ o.f.tk))).any (fun x => x.staged &&
      (match lastLine s r x with | some (p', off') => decide (p' = p) && decide (off' / 64 % 16 = off / 64 % 16) | none => false))
    if older || !(bankFree s p off) then
      modRoom s r (fun q => { q with ops := modifyFirst (fun x => decide (x.f.tk = o.f.tk)) (fun x => { x with staged := true }) q.ops })
    else finish (modRoom s p (fun q => { q with ebanks := q.ebanks ++ [(s.now, off / 64 % 16)] }))

/-- Run a completion of the given kind; nothing happens when no such operation may complete. -/
def completeOp (s : State) (r tk : Nat) (kind : ElasticKind) : State :=
  match startedOp s r tk with
  | some o => if o.kind = kind ∧ !(opWaits s o) ∧ !(atomWaits (getRoom s r) o) then completeMove s r o else s
  | none => s

/-- Lines that wait in a room's staging buffer, oldest first. -/
def serveStaged (s : State) (r : Nat) : State :=
  ((getRoom s r).ops.filter (fun o => o.staged)).foldl (fun s o => completeMove s r o) s

/-- An operation that another unit serves: it completes when that unit waits on nothing more, with the faults it noted. -/
def servedDone (s : State) (o : Elastic) : Option (State × Nat × Nat) :=
  if o.accepted ∧ o.left = 0 then some (s, o.fault, o.parts) else none

/-- Complete an operation that another unit serves, when that unit is done with it. -/
def completeServed (s : State) (r tk : Nat) (kind : ElasticKind) : State :=
  match startedOp s r tk with
  | some o =>
    if o.kind = kind then
      (match servedDone s o with | some x => completeToken x.1 r tk x.2.1 x.2.2 | none => s)
    else s
  | none => s

/-! ### The move slot's instructions (Table 4.8) -/

/-- MLOAD (R104): copies device memory into the room store, converting. -/
def execMload (room : Nat) (f : MoveSlot) (s : State) : Host.Outcome State Fault Refusal :=
  .next (runSlot s room (moveLegal f) (moveBody s room .mload f))

/-- MSTORE (R104): copies the room store to device memory, converting. -/
def execMstore (room : Nat) (f : MoveSlot) (s : State) : Host.Outcome State Fault Refusal :=
  .next (runSlot s room (moveLegal f) (moveBody s room .mstore f))

/-- MROOM (R23): copies into another logical room's store. -/
def execMroom (room : Nat) (f : MoveSlot) (s : State) : Host.Outcome State Fault Refusal :=
  .next (runSlot s room (moveLegal f) (moveBody s room .mroom f))

/-- MATOM (R148): applies atomics element by element in a cellar cache. -/
def execMatom (room : Nat) (f : MoveSlot) (s : State) : Host.Outcome State Fault Refusal :=
  .next (runSlot s room (moveLegal f) (moveBody s room .matom f))

/-- MGATHER (R194): submits a gather descriptor to the floor's Larder. -/
def execMgather (room : Nat) (f : MoveSlot) (s : State) : Host.Outcome State Fault Refusal :=
  .next (runSlot s room (moveLegal f) (moveBody s room .mgather f))

/-- MSCATTER (R205): submits a scatter descriptor to the floor's Larder. -/
def execMscatter (room : Nat) (f : MoveSlot) (s : State) : Host.Outcome State Fault Refusal :=
  .next (runSlot s room (moveLegal f) (moveBody s room .mscatter f))

/-- MSEND (R360): sends a fabric descriptor. -/
def execMsend (room : Nat) (f : MoveSlot) (s : State) : Host.Outcome State Fault Refusal :=
  .next (runSlot s room (moveLegal f) (moveBody s room .msend f))

/-- MRECV (R361): arms a receive slot or a data-moving collective. -/
def execMrecv (room : Nat) (f : MoveSlot) (s : State) : Host.Outcome State Fault Refusal :=
  .next (runSlot s room (moveLegal f) (moveBody s room .mrecv f))

/-- MREDUCE (R316): binds the room's reduction path to a collective descriptor. -/
def execMreduce (room : Nat) (f : MoveSlot) (s : State) : Host.Outcome State Fault Refusal :=
  .next (runSlot s room (moveLegal f) (moveBody s room .mreduce f))

/-- MFENCE (R103): completes when every earlier elastic operation has completed. -/
def execMfence (room : Nat) (f : MoveSlot) (s : State) : Host.Outcome State Fault Refusal :=
  .next (runSlot s room (moveLegal f) (moveBody s room .mfence f))

/-- MPREF (R147): brings stack lines into the cellar cache. -/
def execMpref (room : Nat) (f : MoveSlot) (s : State) : Host.Outcome State Fault Refusal :=
  .next (runSlot s room (moveLegal f) (moveBody s room .mpref f))

/-! ### The completions -/

/-- MLOAD_DONE (R107): an MLOAD's data is in the room store. -/
def execMloadDone (room tk : Nat) (s : State) : Host.Outcome State Fault Refusal :=
  .next (completeOp s room tk .mload)

/-- MSTORE_DONE (R107): an MSTORE's data is at its destination. -/
def execMstoreDone (room tk : Nat) (s : State) : Host.Outcome State Fault Refusal :=
  .next (completeOp s room tk .mstore)

/-- MROOM_DONE (R107): an MROOM's data is in the other room's store or swap slot. -/
def execMroomDone (room tk : Nat) (s : State) : Host.Outcome State Fault Refusal :=
  .next (completeOp s room tk .mroom)

/-- MATOM_DONE (R106): every element of a MATOM is applied. -/
def execMatomDone (room tk : Nat) (s : State) : Host.Outcome State Fault Refusal :=
  .next (completeOp s room tk .matom)

/-- MPREF_DONE (R147): an MPREF's lines are resident. -/
def execMprefDone (room tk : Nat) (s : State) : Host.Outcome State Fault Refusal :=
  .next (completeOp s room tk .mpref)

/-- MFENCE_DONE (R103): every earlier elastic operation has completed. -/
def execMfenceDone (room tk : Nat) (s : State) : Host.Outcome State Fault Refusal :=
  .next (completeOp s room tk .mfence)

/-- MGATHER_DONE (R197): every row of a gather is written or has failed. -/
def execMgatherDone (room tk : Nat) (s : State) : Host.Outcome State Fault Refusal :=
  .next (completeServed s room tk .mgather)

/-- MSCATTER_DONE (R205): the Larder has read every row gradient. -/
def execMscatterDone (room tk : Nat) (s : State) : Host.Outcome State Fault Refusal :=
  .next (completeServed s room tk .mscatter)

/-- MSEND_DONE (R360): the transfer is acknowledged or has failed. -/
def execMsendDone (room tk : Nat) (s : State) : Host.Outcome State Fault Refusal :=
  .next (completeServed s room tk .msend)

/-- MRECV_DONE (R361): the one SEND, or every share, is written. -/
def execMrecvDone (room tk : Nat) (s : State) : Host.Outcome State Fault Refusal :=
  .next (completeServed s room tk .mrecv)

/-- MREDUCE_DONE (R270): the collective has taken the descriptor's last slice. -/
def execMreduceDone (room tk : Nat) (s : State) : Host.Outcome State Fault Refusal :=
  .next (completeServed s room tk .mreduce)

end Sys2Proof.Machine
end

