-- ==== Sys2Proof/Machine/Sequence.lean ====
section
/-!
DEFINITION. Phases, turns and arrivals at sync points (R125 to R128, R134, R136 to R138): what rooms, sync points and barriers share.
-/
namespace Sys2Proof.Machine

/-! ### The repair map and logical rooms (R18, R136, R137) -/

/-- The live active positions of a floor, ascending. -/
def livePositions (s : State) (f : Nat) : List Nat :=
  (upTo 136).filter (fun p => posActive s f p && decide (f * 256 + p ∉ s.seq.failedRooms))

def allRooms (s : State) : List Nat := upTo s.seq.image.lrooms

def floorOf (s : State) (r : Nat) : Nat := s.seq.image.roomMap.getD r 0

def roomsOn (s : State) (f : Nat) : List Nat := (allRooms s).filter (fun r => decide (floorOf s r = f))

/-- The turns a floor needs. -/
def floorTurns (s : State) (f : Nat) : Nat :=
  let n := (roomsOn s f).length
  let p := (livePositions s f).length
  if n = 0 then 1 else if p = 0 then 256 else ceilDiv n p

/-- τ_mod (R137). -/
def tauMod (s : State) : Nat := (upTo 10).foldl (fun t f => max t (floorTurns s f)) 1

/-- Build the logical map (R136): the i-th room of a floor goes to the (i mod P)-th live position in turn i div P. -/
def mapRooms (s : State) : State :=
  (upTo 10).foldl (fun s f =>
    let live := livePositions s f
    ((roomsOn s f).zipIdx).foldl (fun s p =>
      if live.isEmpty then s
      else modRoom s p.1 (fun q => { q with
        floor := f, pos := live.getD (p.2 % live.length) 0, turn := p.2 / live.length,
        watch := { q.watch with isSpare := watchStandsIn s f (live.getD (p.2 % live.length) 0) } })) s) s

/-! ### Look-ups -/

def phaseAt (s : State) (i : Nat) : Option PhaseEnt := s.seq.image.phases[i]?
def syncOf (s : State) (id : Nat) : Option SyncEnt := s.seq.image.syncs.find? (fun y => decide (y.id = id))

/-- The logical rooms a sync point joins (Table 5.4). -/
def syncMembers (s : State) (y : SyncEnt) : List Nat :=
  if !(y.members.isEmpty) then y.members else if y.scope = 0 then roomsOn s y.floor else allRooms s

/-- The program-directory entry of a room in a phase. -/
def dirOf (s : State) (ph r : Nat) : Option DirEnt :=
  match phaseAt s ph with
  | some p => s.seq.image.dirs[p.dir + r]?
  | none => none

def bundleCount (s : State) (ph r : Nat) : Nat := match dirOf s ph r with | some d => d.cnt | none => 0

/-- The phase that follows phase `i` of a step. -/
def phaseAfter (s : State) (i : Nat) : Nat := if i + 1 < s.seq.image.phases.length then i + 1 else 0

/-! ### Program fills (R126) -/

/-- Start copying a room's program of a phase: 150 + ceil(N / 8) cycles. -/
def startFill (s : State) (r ph : Nat) : State :=
  modRoom s r (fun q => { q with fillPhase := ph, fillEnd := s.now + 150 + ceilDiv (bundleCount s ph r) 8, filled := false })

/-- The program of a room's phase, placed in its bundle buffer from address 0: from the copy of section 3 in stack-near memory on the room's floor, or
from the image where a load has placed no copies (log 141). -/
def loadBundles (s : State) (r ph : Nat) : State :=
  match dirOf s ph r with
  | none => modRoom s r (fun q => { q with buffer := [], progLen := 0, filled := true })
  | some d =>
    let bundle (i : Nat) : BitVec 256 :=
      match s.job.copies.find? (fun c => decide (c.1 = floorOf s r)) with
      | some c => BitVec.ofNat 256 (memNat s (c.2 + 32 * i) 32)
      | none => smGet 0 s.seq.image.programs i
    modRoom s r (fun q => { q with buffer := smSetList 0 [] 0 ((upTo d.cnt).map (fun i => bundle (d.off + i))), progLen := d.cnt, filled := true })

/-! ### Arrivals (R111, R127) -/

/-- A room reports its lateness counters to its floor's sequence and barrier unit at a SYNC, and they are reset (R111). -/
def reportLate (s : State) (r : Nat) : State :=
  let q := getRoom s r
  let rep : LateReport := { cycles := q.lateCycles, waits := q.lateWaits, max := q.lateMax, first := q.firstLate }
  modRoom { s with seq := { s.seq with reports := smSet {} s.seq.reports r rep } } r
    (fun q => { q with lateCycles := 0, lateWaits := 0, lateMax := 0, firstLate := 0 })

/-- A room arrives at the sync point awaited. -/
def arriveRoom (s : State) (r : Nat) : State :=
  match syncOf s s.seq.sync with
  | none => s
  | some y =>
    let q := getRoom s r
    if s.seq.inPhase ∧ q.phase = s.seq.phase ∧ q.step = stepNo s ∧ r ∈ syncMembers s y then
      { s with seq := { s.seq with arrived := setInsert r s.seq.arrived, lastArrival := s.now } }
    else s

/-- Whether every member has arrived. -/
def allArrived (s : State) (y : SyncEnt) : Bool := (syncMembers s y).all (fun r => decide (r ∈ s.seq.arrived))

/-! ### Planned times (R121, R128, R134, R138) -/

/-- F(P, k). -/
def beatCycles (s : State) (p : Nat) : Nat := ceilDiv (p * (16 + regBits s rSchStretch 4 0)) 16

def tau (s : State) : Nat := regBits s rSchTurns 5 0

/-- The live extent of a room in a phase (section 6). -/
def liveExtent (s : State) (ph r : Nat) : Nat × Nat := s.seq.image.live.getD (ph * s.seq.image.lrooms + r) (0, 0)

/-- Bytes of registers that a swap moves for one room: the 64 KiB that its slot keeps for them (log 21). -/
def swapRegBytes : Nat := 0x10000

/-- Bytes moved out and in on floor f between turns a and b of a phase. -/
def swapBytes (s : State) (ph f a b : Nat) : Nat :=
  (roomsOn s f).foldl (fun n r =>
    let q := getRoom s r
    if q.turn = a ∨ q.turn = b then n + (liveExtent s ph r).2 + swapRegBytes else n) 0

/-- T_swap of a phase (R138). -/
def tSwap (s : State) (ph : Nat) : Nat :=
  let b := (upTo (tau s - 1)).foldl (fun m t => (upTo 10).foldl (fun m f => max m (swapBytes s ph f t (t + 1))) m) 0
  200 + ceilDiv b 4600

/-- The occupation O of a phase (R128). -/
def occupation (s : State) (ph : Nat) (p : PhaseEnt) : Nat := tau s * beatCycles s p.p + (tau s - 1) * tSwap s ph

/-- The slack S of a phase (R134). -/
def phaseSlack (s : State) (ph : Nat) (p : PhaseEnt) : Nat :=
  let o := occupation s ph p
  s.seq.image.marginP + (p.traffic % 2) * (2600 + ceilDiv o 16) + 64 * p.mMax * (p.traffic / 2 % 2)

/-- T_plan of a phase's END_SYNC (R128). -/
def plannedRelease (s : State) (ph : Nat) (p : PhaseEnt) (t : Nat) : Nat :=
  let h := match syncOf s p.endSync with | some y => if y.scope = 2 then 2 * horizon s y else 0 | none => 0
  t + occupation s ph p + phaseSlack s ph p + p.gap + h

/-! ### Starting a phase (R93, R99, R114, R127) -/

/-- The registers a room starts a phase with (R93): those its record names, all others 0. -/
def initRegs (q : Room) (recs : List (Nat × Word)) : Room :=
  recs.foldl (fun q e =>
    if e.1 ≤ 31 then { q with x := smSet 0 q.x e.1 (if e.1 = 0 then 0 else e.2) }
    else if e.1 ≤ 47 then { q with a := smSet 0 q.a (e.1 - 32) e.2 }
    else if e.1 ≤ 79 then { q with v := smSetList 0 q.v ((e.1 - 48) * 256) (List.replicate 256 (e.2.setWidth 32)) }
    else q) q

/-- What a phase's start takes away in a room (R65, R93, R99): rows and loads on their way to the arrays, and a token on its way to be armed; results, status and writes to the store keep their
beats (Table 4.10; log 143). -/
def MicroOp.endsWithPhase : MicroOp → Bool
  | .row _ _ _ _ _ => true
  | .orow _ _ _ _ => true
  | .accPut _ _ _ => true
  | .loadRow _ _ _ _ _ _ => true
  | .loadPut _ _ _ _ _ _ => true
  | .tok _ _ => true
  | _ => false

/-- A room as a phase starts: its program's registers, idle tokens that keep their status words (R107), empty arrays, and a fresh status. What stays is its
place, its store, its program and fill, and the physical damage of its arrays (which no command repairs). -/
def freshRoom (s : State) (ph r : Nat) (q : Room) : Room :=
  let recs := match dirOf s ph r with | some d => s.seq.image.inits.getD d.init [] | none => []
  let arrays := smMap {} (fun _ (u : ArrayUnit) => { ({} : ArrayUnit) with
    p0 := { ({} : Plane) with parityBad := u.p0.parityBad }, p1 := { ({} : Plane) with parityBad := u.p1.parityBad },
    flip := u.flip }) q.arrays
  initRegs { ({} : Room) with
    floor := q.floor, pos := q.pos, turn := q.turn, buffer := q.buffer, progLen := q.progLen,
    fillPhase := q.fillPhase, fillEnd := q.fillEnd, filled := q.filled, run := q.run,
    arrays := arrays, vflags := q.vflags, vcounts := q.vcounts,
    toks := smMap {} (fun _ t => { t with st := .idle }) q.toks,
    micro := q.micro.filter (fun m => !(m.op.endsWithPhase)), banks := q.banks, ebanks := q.ebanks, iterBusy := q.iterBusy, sfuBusy := q.sfuBusy,
    drainTok := q.drainTok,
    watch := { isSpare := q.watch.isSpare, ctl := regGet s (rUpdWatchCtl q.floor) } } recs

/-- A room starts its program, once its fill has completed. -/
def runRoom (s : State) (r : Nat) : State :=
  let q := getRoom s r
  if q.filled then
    let b := seenBeat s
    modRoom s r (fun q => { q with run := .running, addr := 0, cur := 0, resumeAt := b, lateCycles := q.lateCycles + (b - q.phaseStart) })
  else modRoom s r (fun q => { q with run := .filling })

/-- A room begins a phase whose release was in beat `b`: its program runs once its fill has completed, which starts only now where the program filled
is another phase's. -/
def enterPhase (s : State) (ph r b : Nat) : State :=
  let s := if (getRoom s r).fillPhase = ph then s else startFill s r ph
  runRoom (modRoom s r (fun q => { freshRoom s ph r q with step := stepNo s, phase := ph, phaseStart := b })) r

/-- A room takes part in a phase from its release (R127): with an empty program, or halted earlier in the step, it arrives at once.
A room whose last program still runs (bundles after its SYNC) begins the phase after its PEND. A stopped room stays stopped (R89). -/
def startRoom (s : State) (ph r : Nat) : State :=
  let q := getRoom s r
  let b := seenBeat s
  let mark (s : State) : State := modRoom s r (fun q => { q with step := stepNo s, phase := ph, phaseStart := b })
  if q.run = .stopped then s
  else if q.run = .halted ∧ q.step = stepNo s then arriveRoom (mark s) r
  else if q.run = .running ∨ q.run = .held then
    (if bundleCount s ph r = 0 then arriveRoom (mark s) r else modRoom s r (fun q => { q with waiting := some (ph, b) }))
  else if bundleCount s ph r = 0 then
    arriveRoom (mark (startFill (modRoom s r (fun q => { freshRoom s ph r q with run := .ended })) r (phaseAfter s ph))) r
  else enterPhase s ph r b

/-! ### Swapping turns (R138) -/

/-- The registers of a room as its swap slot holds them, from byte 0x20_0000: X, A from 0x100, V from 0x1000 (log 142). -/
def regImage (q : Room) : List Byte :=
  ((upTo 32).map (fun i => leBytes 8 (smGet 0 q.x i).toNat)).flatten ++ ((upTo 16).map (fun i => leBytes 8 (smGet 0 q.a i).toNat)).flatten ++
    zeros (0x1000 - 0x180) ++ ((upTo 8192).map (fun i => leBytes 4 (smGet 0 q.v i).toNat)).flatten

def withRegImage (q : Room) (bs : List Byte) : Room :=
  let words (n o : Nat) : List Word := (chunks 8 (n + 1) ((bs.drop o).take (8 * n))).map (fun c => BitVec.ofNat 64 (leNat c))
  { q with
    x := smSetList 0 [] 0 (words 32 0), a := smSetList 0 [] 0 (words 16 0x100)
    v := smSetList 0 [] 0 ((chunks 4 8193 ((bs.drop 0x1000).take 32768)).map (fun c => BitVec.ofNat 32 (leNat c))) }

/-- Bytes of a room's registers in a swap slot. -/
def regImageBytes : Nat := 0x9000

/-- The room that a position's store holds: the one of its rooms without a swap slot. -/
def occupant (s : State) (f p : Nat) : Option Nat :=
  (allRooms s).find? (fun r => let q := getRoom s r; decide (q.floor = f ∧ q.pos = p) && (swapSlot s r).isNone)

/-- Exchange the room that its swap slot holds with the one that its position holds: live extents and registers. -/
def swapRoom (s : State) (ph r slot : Nat) : State :=
  let q := getRoom s r
  let e := liveExtent s ph r
  let store := memBytes s (translate s (slot + e.1)) e.2
  let regs := memBytes s (translate s (slot + storeBytes)) regImageBytes
  let s := match occupant s q.floor q.pos with
    | none => s
    | some o =>
      let x := liveExtent s ph o
      let s := putBytes s (translate s (slot + x.1)) (storeRead s o x.1 x.2)
      let s := putBytes s (translate s (slot + storeBytes)) (regImage (getRoom s o))
      { s with job := { s.job with swaps := s.job.swaps ++ [(o, slot)] } }
  let s := storeWrite (modRoom s r (fun q => withRegImage q regs)) r e.1 store
  { s with job := { s.job with swaps := s.job.swaps.filter (fun w => decide (w.1 ≠ r)) } }

/-- The rooms of turn `b` that swap slots hold come into their positions. -/
def swapRooms (s : State) (ph b : Nat) : State :=
  ((allRooms s).filter (fun r => decide ((getRoom s r).turn = b))).foldl (fun s r =>
    match swapSlot s r with | some slot => swapRoom s ph r slot | none => s) s

/-- The turn that runs after `n` turns of a phase are done: ascending in even phases, descending in odd ones (R138). -/
def turnAt (s : State) (ph n : Nat) : Nat := if ph % 2 = 0 then n else tau s - 1 - n

/-- Start the member rooms of the resident turn. -/
def startTurn (s : State) (ph : Nat) (members : List Nat) : State :=
  members.foldl (fun s r => if (getRoom s r).turn = s.seq.turn then startRoom s ph r else s) s

/-- Await a sync point that ends no phase: its planned release is its opening at `t`, plus the barrier's 2H or 16 cycles (log 22). -/
def openSync (s : State) (id next t : Nat) : State :=
  let plan := match syncOf s id with | some y => t + (if y.scope = 2 then 2 * horizon s y else 16) | none => t
  { s with seq := { s.seq with sync := id, tPlan := some plan, next := next, inPhase := false, arrived := [], lastArrival := s.now,
                               barrier := {} } }

/-- Begin a phase whose START_SYNC was released at `t`, T_start (R128): its rooms are the members of its END_SYNC (log 23). The turn that comes first is
resident already, but for the first phase of a step after an odd number of phases, which its swap precedes (R138, log 142). -/
def beginPhase (s : State) (ph t : Nat) : State :=
  match phaseAt s ph with
  | none => s
  | some p =>
    let s := if s.seq.turn = turnAt s ph 0 then s else swapRooms s ph (turnAt s ph 0)
    let s := { s with seq := { s.seq with
      sync := p.endSync, tPlan := some (plannedRelease s ph p t), next := phaseAfter s ph, phase := ph, inPhase := true,
      turnsDone := 0, turn := turnAt s ph 0, tStart := t, arrived := [], lastArrival := s.now, barrier := {} } }
    let s := { s with cel := { s.cel with periodicUsed := false } }
    match syncOf s p.endSync with
    | none => s
    | some y => startTurn s ph (syncMembers s y)

/-- What follows a release in cycle `t`: the phase that the sync point starts, or the next one's START_SYNC. -/
def afterRelease (s : State) (id t : Nat) : State :=
  match phaseAt s s.seq.next with
  | none => s
  | some p => if p.startSync = id then beginPhase s s.seq.next t else openSync s p.startSync s.seq.next t

end Sys2Proof.Machine
end

