-- ==== Sys2Proof/Machine/Larder.lean ====
section
/-!
DEFINITION. The Larders' gather side (R190 to R204, R216, R232, R233, R241 to R244): preparation, gathers and their contexts, serving index
blocks, replies, prefetch and load counters.
-/
namespace Sys2Proof.Machine

/-! ### Registers that follow a Larder's queues -/

def ownPool : Nat := 16384
def servePool : Nat := 8192

def ownUsed (l : Larder) : Nat := l.ctxs.length
/-- A serve context is held from a row's issue until the block's replies are formed. -/
def serveUsed (l : Larder) : Nat := l.serves.foldl (fun n b => n + (b.rows.filter (fun r => r.issued)).length) 0

/-- Gathers that still have a row to issue: the first 64 are in service (R200). -/
def unissued (l : Larder) : List Gather := l.gathers.filter (fun g => g.rows.any (fun r => !r.issued))

/-- LDR_CTX, LDR_DESC, LDR_PREP_STATUS and LDR_PF_STATUS follow the queues. -/
def larderRegs (s : State) (f : Nat) : State :=
  let l := getLarder s f
  let w := rLdrCtx f
  let s := regPut (regPut s w 14 0 (ownUsed l)) w 28 15 (serveUsed l)
  let s := regPeak (regPeak s w 43 29 (ownUsed l)) w 57 44 (serveUsed l)
  let n := (unissued l).length
  let s := regPut (regPut s (rLdrDesc f) 6 0 (min 64 n)) (rLdrDesc f) 20 7 (n - 64)
  let s := regPut s (rLdrPrepStatus f) 4 0 l.preps.length
  regPut s (rLdrPfStatus f) 4 0
    (l.prefetches.filter (fun p => !(p.started && p.remoteTodo.isEmpty && decide (p.flying = 0) && p.homeTodo.isEmpty))).length

/-! ### Load counters (R232, R233) -/

/-- One event of the hot-row tracker. -/
def trackRow (t : List (Nat × Nat × Nat × Nat)) (table row : Nat) : List (Nat × Nat × Nat × Nat) :=
  if t.any (fun e => decide (e.1 = table ∧ e.2.1 = row)) then
    t.map (fun e => if e.1 = table ∧ e.2.1 = row then (e.1, e.2.1, e.2.2.1 + 1, e.2.2.2) else e)
  else if t.length < 256 then t ++ [(table, row, 1, 0)]
  else
    let c := t.foldl (fun m e => min m e.2.2.1) (2 ^ 64)
    modifyFirst (fun e => decide (e.2.2.1 = c)) (fun _ => (table, row, c + 1, c)) t

/-- A row was delivered or served: kind 0 HOME, 1 REMOTE, 2 SERVED. The counters of its table's enabled entries rise, and an entry with HOT feeds the
tracker, once. -/
def countLoad (s : State) (f kind table row : Nat) : State :=
  let mine := (upTo 64).filter (fun i => decide (bits (smGet 0 s.ldr.track i) 15 0 = table))
  let add (c : Nat × Nat × Nat) : Nat × Nat × Nat :=
    if kind = 0 then (c.1 + 1, c.2.1, c.2.2) else if kind = 1 then (c.1, c.2.1 + 1, c.2.2) else (c.1, c.2.1, c.2.2 + 1)
  let on := mine.filter (fun i => bitOf (smGet 0 s.ldr.track i) 16)
  let hot := decide (kind ≠ 1) && mine.any (fun i => bitOf (smGet 0 s.ldr.track i) 17)
  if on.isEmpty ∧ !hot then s
  else
    modLarder s f (fun l => { l with
      loads := on.foldl (fun m i => smSet (0, 0, 0) m i (add (smGet (0, 0, 0) m i))) l.loads,
      tracker := if hot then trackRow l.tracker table row else l.tracker })

/-! ### Preparation (R190 to R193) -/

def nullRow : Nat := 0xFFFFFFFFFF

/-- ceil(log16 x). -/
def ceilLog16 (x : Nat) : Nat := ((upTo 12).find? (fun k => decide (x ≤ 16 ^ k))).getD 12

def prepCycles (e : Nat) : Nat := 1000 + ceilDiv e 16 * (1 + ceilLog16 (ceilDiv e 4096))

/-- LDR_PREP_SUBMIT (R193): the list at an address is queued for preparation into LDR_PREP_OUT; a seventeenth is dropped. -/
def execLdrPrepSubmit (floor addr : Nat) (s : State) : Host.Outcome State Fault Refusal :=
  if 10 ≤ floor then .next s
  else
    let l := getLarder s floor
    let out := regBits s (rLdrPrepOut floor) 63 6 * 64
    let list := addr / 64 * 64
    if 16 ≤ l.preps.length then
      .next (ldrFault (regPut (noteFetch s list 64 (unitLdr floor)) (rLdrPrepStatus floor) 5 5 1) floor codePrepOverrun (memNat s list 2))
    else
      let s := (sendBytes s (out + 2) (zeros 1) (unitLdr floor)).1
      .next (larderRegs (setLarder s floor { l with preps := l.preps ++ [(list, out, s.now)] }) floor)

/-- An index list's entries as (row, order key): none where the entry is null or padding. -/
def listEntries (d : TableDesc) (base : Nat) (bs : List Byte) : List (Option (Nat × Nat)) :=
  (chunks 8 (bs.length + 1) bs).map (fun b =>
    let w := leNat b
    if d.rows ≤ nbits w 39 0 then none else some (nbits w 39 0, (base + nbits w 63 40) % 2 ^ 32))

/-- Null entries: not the padding value, and beyond the table. -/
def nullEntries (d : TableDesc) (bs : List Byte) : List Nat :=
  ((chunks 8 (bs.length + 1) bs).map (fun b => nbits (leNat b) 39 0)).filter (fun x => decide (x ≠ nullRow) && decide (d.rows ≤ x))

/-- Merge sorted entries of one row, keeping the smallest key. -/
def mergeRows : List (Nat × Nat) → List (Nat × Nat)
  | [] => []
  | e :: es =>
    match mergeRows es with
    | [] => [e]
    | h :: t => if h.1 = e.1 then (e.1, min e.2 h.2) :: t else e :: h :: t

/-- The unique rows of a list, ascending, each with its smallest order key. -/
def uniqueRows (es : List (Option (Nat × Nat))) : List (Nat × Nat) :=
  mergeRows ((es.filterMap (fun e => e)).mergeSort (fun a b => decide (a.1 ≤ b.1)))

/-- The header of a prepared list (Table 8.4). -/
def prepHeader (table state unique step entries nulls list : Nat) : List Byte :=
  leBytes 2 table ++ leBytes 1 state ++ zeros 1 ++ leBytes 4 unique ++ leBytes 8 step ++ leBytes 4 entries ++ leBytes 4 nulls ++
    leBytes 8 list ++ zeros 32

/-- Whether an index list's header is well formed (Table 8.3); its reserved fields are ignored (R6). -/
def listOk (h : List Byte) : Bool :=
  decide (1 ≤ leNat ((h.drop 4).take 4)) && decide (leNat ((h.drop 4).take 4) ≤ 16777216)

/-- Prepare a list (R192): the prepared list's bytes past its header, UNIQUE, and the null entries. -/
def prepBody (d : TableDesc) (base : Nat) (bs : List Byte) : List Byte × List Byte × Nat × List Nat :=
  let es := listEntries d base bs
  let us := uniqueRows es
  let rows := us.map (fun u => u.1)
  ((us.map (fun u => leBytes 8 u.1 ++ leBytes 4 u.2 ++ zeros 4)).flatten,
   (es.map (fun e => match e with | some x => leBytes 4 (rows.idxOf x.1) | none => leBytes 4 (2 ^ 24))).flatten,
   us.length, nullEntries d bs)

/-- A preparation that ends in ERROR. -/
def prepError (s : State) (f : Nat) (h : List Byte) (list out : Nat) : State :=
  (sendBytes s out (prepHeader (leNat (h.take 2)) 2 0 (leNat ((h.drop 8).take 8)) (leNat ((h.drop 4).take 4)) 0 list) (unitLdr f)).1

/-- What a finished preparation leaves in memory and in the Larder's records. -/
def prepare (s : State) (f list out : Nat) : State :=
  let x := fetchBytes s list 64 (unitLdr f)
  let h := x.2.1
  let table := leNat (h.take 2)
  let n := leNat ((h.drop 4).take 4)
  let y := fetchBytes x.1 (list + 64) (8 * n) (unitLdr f)
  if x.2.2 ≠ 0 ∨ !(listOk h) ∨ y.2.2 ≠ 0 then ldrFault (prepError x.1 f h list out) f codeListFormat table
  else
    let d := tableDesc s table
    if !d.ok then ldrStop (prepError y.1 f h list out) f codeTableInvalid table
    else
      let b := prepBody d (leNat ((h.drop 0x10).take 4)) y.2.1
      let nulls := b.2.2.2
      let s := regCount y.1 (rLdrStatFail f) 47 24 nulls.length
      let s := if nulls.isEmpty ∨ f ∈ s.ldr.nullSeen then s
        else ldrFault { s with ldr := { s.ldr with nullSeen := f :: s.ldr.nullSeen } } f codeIndexRange table nulls.head?
      let s := (sendBytes s (out + 0x40) b.1 (unitLdr f)).1
      let s := (sendBytes s (out + 0x40 + 16 * n) b.2.1 (unitLdr f)).1
      (sendBytes s out (prepHeader table 1 b.2.2.1 (leNat ((h.drop 8).take 8)) n nulls.length list) (unitLdr f)).1

/-- PREP_COMPLETE (R192, R193): the preparation in progress ends, in its planned cycle at the earliest. -/
def execPrepComplete (floor : Nat) (s : State) : Host.Outcome State Fault Refusal :=
  match (getLarder s floor).preps with
  | [] => .next s
  | (list, out, start) :: rest =>
    if s.now < start + prepCycles (memNat s (list + 4) 4) then .next s
    else
      let rest' := match rest with | (a, b, _) :: r => (a, b, s.now) :: r | [] => []
      .next (latchIrq (larderRegs (prepare (modLarder s floor (fun l => { l with preps := rest' })) floor list out) floor) (16 * (floor + 3) + 1))

/-! ### The elastic operation behind a request -/

/-- Change the operation of a room's token. -/
def modOp (s : State) (room tk : Nat) (g : Elastic → Elastic) : State :=
  modRoom s room (fun q => { q with ops := modifyFirst (fun o => decide (o.f.tk.toNat = tk)) g q.ops })

/-- A request that fails as a whole: every part failed, nothing written. -/
def failOp (s : State) (room tk code : Nat) : State :=
  modOp s room tk (fun o => { o with accepted := true, left := 0, fault := code, parts := allParts })

/-- Note a failed part of a request. -/
def failPart (s : State) (room tk code part : Nat) : State :=
  modOp s room tk (fun o => { o with fault := firstCode o.fault code, parts := Nat.lor o.parts (partBit part) })

def opLeft (s : State) (room tk n : Nat) : State := modOp s room tk (fun o => { o with left := o.left - n })

/-- The part of a request of `count` units that unit i lies in (R198). -/
def runOf (count i : Nat) : Nat := i / max 1 (ceilDiv count 32)

/-- The 64-B descriptor that a room's request names, in its room store, and the fault of reading it. -/
def roomDescriptor (s : State) (room off : Nat) : List Byte × Nat :=
  if storeBytes < off + 64 then (zeros 64, codeUnmapped)
  else if storeBad s room off 64 then (zeros 64, codeStoreEcc)
  else (storeRead s room off 64, 0)

/-- A unit fetches the descriptor that a room's request names: an uncorrectable word is recorded (R88). -/
def fetchDescriptor (s : State) (room off unit : Nat) : State × List Byte × Nat :=
  let x := roomDescriptor s room off
  (accessFault s (storeAddr (getRoom s room).floor (getRoom s room).pos off) x.2 unit, x.1, x.2)

/-! ### Gathers (R194 to R197) -/

/-- The unique-array entry of a slot of a prepared list. -/
def uniqueAt (s : State) (prep slot : Nat) : Nat := memNat s (prep + 0x40 + 16 * slot) 8

/-- The rows of `count` slots of a prepared list. -/
def listRows (s : State) (prep first count : Nat) : List Nat := (upTo count).map (fun i => nbits (uniqueAt s prep (first + i)) 39 0)

/-- A request reads the header of its prepared list and the entries of its slots: the state that leaves, and the first fault. -/
def fetchList (s : State) (prep first count unit : Nat) : State × Nat :=
  let h := fetchBytes s prep 64 unit
  let u := fetchBytes h.1 (prep + 0x40 + 16 * first) (16 * count) unit
  if h.2.2 ≠ 0 then (h.1, h.2.2) else (u.1, u.2.2)

/-- The slot of a table's version that a request is bound to, and the version number (R196, R230). -/
def boundSlot (s : State) (d : TableDesc) (eval : Bool) (version : Nat) : Option (Nat × Nat) :=
  if eval then
    (match (upTo 4).find? (fun v => decide (verNumber s d v = version) && (decide (verState s d v = 3) ||
        (decide (verState s d v = 2 ∨ verState s d v = 4) && decide (0 < verRefs s d v)))) with
    | some v => some (v, version)
    | none => none)
  else some (curSlot s d, curVersion s d)

/-- The prefetch that holds a list's remote rows (R244). -/
def prefetchOf (l : Larder) (list : Nat) : Option Prefetch := l.prefetches.find? (fun p => decide (p.list = list) && p.started)

/-- Bytes of a prefetch buffer's entry (R243). -/
def pfEntry (d : TableDesc) : Nat := roundUp (8 + tableWire d) 64
def pfAddr (p : Prefetch) (d : TableDesc) (slot : Nat) : Nat := p.buf + slot * pfEntry d
def pfState (s : State) (p : Prefetch) (d : TableDesc) (slot : Nat) : Nat := nbits (memNat s (pfAddr p d slot) 8) 57 56
def pfTag (s : State) (f : Nat) (p : Prefetch) (d : TableDesc) (slot row state : Nat) : State :=
  (sendBytes s (pfAddr p d slot) (leBytes 8 (row + state * 2 ^ 56)) (unitLdr f)).1

/-- How a row of a gather comes. -/
def rowVia (s : State) (d : TableDesc) (m : RowMap) (v row : Nat) : RowVia :=
  let p := resolve s d m v row
  if p.home = rank s then .home (placeAddr s d m v p) else .remote p.home

/-- The fault of a gather descriptor, 0 for none (R195): its bytes, the prepared list's header and the room's place. -/
def gatherCode (s : State) (b : List Byte) : Nat :=
  let n (o k : Nat) : Nat := leNat ((b.drop o).take k)
  let prep := n 0 8
  let first := n 8 4
  let count := n 12 4
  let dst := n 0x10 4
  let pitch := n 0x18 2
  let flags := n 0x1A 1
  let d := tableDesc s (memNat s prep 2)
  if n 0x1B 5 ≠ 0 ∨ n 0x28 24 ≠ 0 ∨ 4 ≤ flags ∨ count = 0 ∨ 65536 < count ∨ dst % 64 ≠ 0 ∨ (2 ≤ flags ∧ n 0x14 4 % 64 ≠ 0) then codeDescriptorFormat
  else if memNat s (prep + 2) 1 = 2 then codeListFormat
  else if memNat s (prep + 4) 4 < first + count ∨ pitch < ceilDiv (2 * d.dim) 64 ∨ storeBytes < dst + count * pitch * 64 ∨
      (2 ≤ flags ∧ storeBytes < n 0x14 4 + roundUp (4 * count) 64) then codeDescriptorFormat
  else if flags % 2 = 0 ∧ memNat s (prep + 8) 8 ≠ stepNo s then codeListStep
  else 0

/-- Submit a gather (R194 to R196): checked, bound and resolved; its rows then issue in the Larder's cycles. A list that cannot be read fails the
request. -/
def submitGather (s : State) (room : Nat) (o : Elastic) : State :=
  let q := getRoom s room
  let tk := o.f.tk.toNat
  let x := fetchDescriptor s room o.src (unitLdr q.floor)
  let s := x.1
  let b := x.2.1
  let n (k w : Nat) : Nat := leNat ((b.drop k).take w)
  let prep := n 0 8
  let table := memNat s prep 2
  let c := gatherCode s b
  let y := fetchList s prep (n 8 4) (if c = 0 then n 12 4 else 0) (unitLdr q.floor)
  let s := if x.2.2 = 0 then y.1 else s
  if x.2.2 ≠ 0 then failOp s room tk x.2.2
  else if y.2 ≠ 0 then failOp s room tk y.2
  else if c ≠ 0 then failOp (ldrFault s q.floor c table none (some room)) room tk c
  else
    let d := tableDesc s table
    let m := rowMapOf s d
    if !d.ok ∨ !m.ok then failOp (ldrStop s q.floor codeTableInvalid table none (some room)) room tk codeTableInvalid
    else
      let eval := decide (n 0x1A 1 % 2 = 1)
      match boundSlot s d eval (n 0x20 8) with
      | none => failOp (ldrFault s q.floor codeVersion table (some (n 0x20 8)) (some room)) room tk codeVersion
      | some (v, version) =>
        let first := n 8 4
        let count := n 12 4
        let rows := (listRows s prep first count).zipIdx.map (fun x => ({ i := x.2, row := x.1, via := rowVia s d m v x.1 } : RowJob))
        let mask := if 2 ≤ n 0x1A 1 then some (n 0x14 4) else none
        let g : Gather := {
          room := room, tk := tk, prep := prep, table := table, first := first, count := count, dst := n 0x10 4, mask := mask,
          pitch := n 0x18 2, eval := eval, version := version, slot := v, rows := rows }
        let s := rows.foldl (fun s r => countProbe s q.floor d m v r.row) s
        let s := match mask with
          | some a => (writeSide s (unitLdr q.floor) (.own room (a + 4 * count)) 0 (zeros (roundUp (4 * count) 64 - 4 * count))).1
          | none => s
        let s := modOp s room tk (fun o => { o with accepted := true, left := count })
        larderRegs (modLarder s q.floor (fun l => { l with gathers := l.gathers ++ [g] })) q.floor

/-- Write a row's values and its mask value to the room store (R194). -/
def putRow (s : State) (f : Nat) (g : Gather) (i : Nat) (vals : List Byte) (ok : Bool) : State :=
  let w := g.pitch * 64
  let s := (writeSide s (unitLdr f) (.own g.room (g.dst + i * w)) 0 (vals ++ zeros (w - vals.length))).1
  match g.mask with
  | some a => (writeSide s (unitLdr f) (.own g.room (a + 4 * i)) 0 (leBytes 4 (if ok then 0x3F800000 else 0))).1
  | none => s

/-- A row of a gather has come or failed: it is written, its context is free, and the request waits for one row fewer (R197, R201). -/
def finishRow (s : State) (f : Nat) (g : Gather) (r : RowJob) (remote : Bool) (res : Option (List Byte)) : State :=
  let d := tableDesc s g.table
  let s := modLarder s f (fun l => { l with
    gathers := (l.gathers.map (fun x => if x.room = g.room ∧ x.tk = g.tk then { x with rows := x.rows.filter (fun y => decide (y.i ≠ r.i)) } else x)).filter
      (fun x => !x.rows.isEmpty),
    ctxs := l.ctxs.filter (fun c => decide (c.2 ≠ some (.gather g.room g.tk r.i))) })
  let s := opLeft s g.room g.tk 1
  let s := match res with
    | some w =>
      let s := putRow s f g r.i (rowBf16 d.code d.dim w) true
      countLoad (regCount s (if remote then rLdrStatRemote f else rLdrStatLocal f) 47 0 1) f (b2n remote) g.table r.row
    | none =>
      let s := putRow s f g r.i (zeros (2 * d.dim)) false
      let a := g.prep + 0x40 + 16 * (g.first + r.i)
      let s := (sendBytes s a (leBytes 8 (Nat.lor (memNat s a 8) (2 ^ 63))) (unitLdr f)).1
      failPart (failRow s f g.table r.row (some g.room)) g.room g.tk codeRowFailed (runOf g.count r.i)
  larderRegs s f

/-! ### Commands of the gather side -/

/-- GATHER_ROW_READ_DONE (R197): the read of row `n` of a room's gather completes, whether its home row's or its prefetched copy's. -/
def execGatherRowReadDone (room tk n : Nat) (s : State) : Host.Outcome State Fault Refusal :=
  let f := (getRoom s room).floor
  match (getLarder s f).gathers.find? (fun g => decide (g.room = room ∧ g.tk = tk)) with
  | none => .next s
  | some g =>
    match g.rows.find? (fun r => decide (r.i = n) && r.issued) with
    | none => .next s
    | some r =>
      let d := tableDesc s g.table
      match r.via with
      | .home a =>
        if rowHeld s g.table a ∨ accessWaits s a (tableWire d) then .next s
        else
          let x := readRow s f d a (tableWire d) r.row
          .next (finishRow x.1 f g r false (if x.2.2 then some x.2.1 else none))
      | .copy =>
        (match prefetchOf (getLarder s f) g.prep with
        | none => .next s
        | some p =>
          let a := pfAddr p d (g.first + n)
          if accessWaits s a (pfEntry d) then .next s
          else
            let t := fetchBytes s a 8 (unitLdr f)
            let st := nbits (leNat t.2.1) 57 56
            if t.2.2 ≠ 0 ∨ st = 3 then .next (finishRow t.1 f g r true none)
            else if st = 2 then
              let x := fetchBytes s a (8 + tableWire d) (unitLdr f)
              .next (finishRow x.1 f g r true (if x.2.2 = 0 then some (x.2.1.drop 8) else none))
            else .next s)
      | .remote _ => .next s

/-! ### Index blocks and replies (R202 to R204) -/

/-- The header of an index or reply block (Table 8.6). -/
def blockHeader (s : State) (table count floor : Nat) (eval : Bool) (step version : Nat) : List Byte :=
  leBytes 2 table ++ leBytes 2 count ++ leBytes 1 floor ++ leBytes 1 (b2n eval) ++ leBytes 2 (rank s) ++ leBytes 8 step ++
    leBytes 8 version ++ zeros 8

/-- Free own contexts, lowest first, at most n. -/
def takeCtxs (l : Larder) (n : Nat) : List Nat := ((upTo ownPool).filter (fun c => decide (smGet none l.ctxs c = none))).take n

/-- Ship one index block: rows of one home, ascending, with a context each. -/
def shipBlock (s : State) (f table home : Nat) (eval : Bool) (version : Nat) (rows : List (Nat × CtxUse)) : State :=
  let l := getLarder s f
  let cs := takeCtxs l rows.length
  let ps := rows.zip cs
  let s := setLarder s f { l with ctxs := ps.foldl (fun m p => smSet none m p.2 (some p.1.2)) l.ctxs }
  let body := (ps.map (fun p => leBytes 8 (p.1.1 + p.2 * 2 ^ 40))).flatten
  sendKind s f home f 3 [] (blockHeader s table ps.length f eval (stepNo s) version ++ body)

/-- Ship the next block of a gather: its first unshipped home rank, at most 256 rows and as many as contexts are free. A row that a prefetch
holds or brings is taken from it (R244). -/
def shipGather (s : State) (f : Nat) (g : Gather) : State :=
  let d := tableDesc s g.table
  let mark (s : State) (is : List Nat) (via : RowJob → RowVia) : State := modLarder s f (fun l => { l with
    gathers := l.gathers.map (fun x => if x.room = g.room ∧ x.tk = g.tk then
      { x with rows := x.rows.map (fun r => if r.i ∈ is then { r with issued := true, via := via r } else r) } else x) })
  let isRemote (r : RowJob) : Bool := match r.via with | .remote _ => !r.issued | _ => false
  let rem : List RowJob := g.rows.filter isRemote
  let pf := if g.eval then none else prefetchOf (getLarder s f) g.prep
  let copied : List RowJob := match pf with
    | some p => rem.filter (fun r => decide (pfState s p d (g.first + r.i) ≠ 0))
    | none => []
  if !copied.isEmpty then mark s (copied.map (fun r => r.i)) (fun _ => .copy)
  else
    match rem with
    | [] => s
    | r0 :: _ =>
      let home := match r0.via with | .remote h => h | _ => 0
      let free := ownPool - ownUsed (getLarder s f)
      let rows := ((rem.filter (fun r => decide (r.via = .remote home))).mergeSort (fun a b => decide (a.row ≤ b.row))).take (min 256 free)
      if rows.isEmpty then s
      else
        let s := match pf with
          | some p => rows.foldl (fun (s : State) (r : RowJob) => pfTag s f p d (g.first + r.i) r.row 1) s
          | none => s
        let s := mark s (rows.map (fun (r : RowJob) => r.i)) (fun r => r.via)
        shipBlock s f g.table home g.eval g.version (rows.map (fun (r : RowJob) => (r.row, .gather g.room g.tk r.i)))

/-- Ship the next block of a prefetch whose step has begun (R243). -/
def shipPrefetch (s : State) (f : Nat) (p : Prefetch) : State :=
  let d := tableDesc s p.table
  let m := rowMapOf s d
  let v := curSlot s d
  let setPf (s : State) (g : Prefetch → Prefetch) : State :=
    modLarder s f (fun l => { l with prefetches := l.prefetches.map (fun x => if x.list = p.list then g x else x) })
  let rowOf (slot : Nat) : Nat := nbits (uniqueAt s p.list slot) 39 0
  let todo := p.remoteTodo.filter (fun k => decide (pfState s p d k = 0))
  match todo with
  | [] => setPf s (fun x => { x with remoteTodo := [] })
  | k0 :: _ =>
    let home := (resolve s d m v (rowOf k0)).home
    let free := ownPool - ownUsed (getLarder s f)
    let ks := (todo.filter (fun k => decide ((resolve s d m v (rowOf k)).home = home))).take (min 256 free)
    if ks.isEmpty then s
    else
      let s := ks.foldl (fun s k => pfTag s f p d k (rowOf k) 1) s
      let s := setPf s (fun x => { x with remoteTodo := todo.filter (fun k => decide (k ∉ ks)), flying := x.flying + ks.length })
      shipBlock s f p.table home false (curVersion s d) (ks.map (fun k => (rowOf k, .prefetch p.list k)))

/-- Build replies of at most 16 KiB from rows in entry order (Table 8.7). -/
def replyParts : List (List Byte) → List (List Byte) → Nat → List (List (List Byte))
  | [], cur, _ => if cur.isEmpty then [] else [cur]
  | r :: rs, cur, n =>
    if !cur.isEmpty ∧ 16384 < n + r.length then cur :: replyParts rs [r] (32 + r.length) else replyParts rs (cur ++ [r]) (n + r.length)

/-- A row of a reply: its tag and wire form, or FAILED; `bad` says that the row has since failed at this home (R216). -/
def replyRow (bad : Bool) (r : ServeRow) : List Byte :=
  match bad, r.read with
  | false, some (true, w) => leBytes 8 (r.row + r.ctx * 2 ^ 40) ++ w ++ zeros (roundUp w.length 8 - w.length)
  | _, _ => leBytes 8 (r.row + r.ctx * 2 ^ 40 + 2 ^ 55)

/-- The header of a reply of `n` rows: the block's own with their count, its reserved fields 0 (R6, Table 8.7). -/
def replyHeader (h : List Byte) (n : Nat) : List Byte :=
  h.take 2 ++ leBytes 2 n ++ (h.drop 4).take 1 ++ leBytes 1 (leNat ((h.drop 5).take 1) % 2) ++ (h.drop 6).take 18 ++ zeros 8

/-- Send the replies of a block all of whose rows have been read. -/
def sendReplies (s : State) (f : Nat) (b : Serve) : State :=
  (replyParts (b.rows.map (fun r => replyRow (inFailedSet s b.table r.row) r)) [] 32).foldl (fun s rows =>
    sendKind s f b.rank b.floor 4 [] (replyHeader b.header rows.length ++ rows.flatten)) s

/-- Accept an index block (R203, R245): its step and version must be the server's, and its rows must live here. -/
def acceptIndex (s : State) (t : Transfer) : State × Option Nat :=
  let f := t.dfloor
  let b := t.data
  let n (o k : Nat) : Nat := leNat ((b.drop o).take k)
  let table := n 0 2
  let d := tableDesc s table
  let m := rowMapOf s d
  let eval := decide (n 5 1 % 2 = 1)
  if b.length < 32 + 8 * n 2 2 ∨ n 2 2 = 0 ∨ 256 < n 2 2 then (s, some stFormat)
  else if !d.ok ∨ !m.ok then (ldrStop s f codeTableInvalid table, some 0)
  else
    let slot := if eval then slotOf s d (n 0x10 8) [2, 3, 4] else if curVersion s d = n 0x10 8 then some (curSlot s d) else none
    match slot with
    | none => (ldrStop s f codeRemoteVersion table, some 0)
    | some v =>
      let es := (chunks 8 (n 2 2 + 1) ((b.drop 32).take (8 * n 2 2))).map leNat
      let rows := es.map (fun w =>
        let p := resolve s d m v (nbits w 39 0)
        ({ ctx := nbits w 54 40, row := nbits w 39 0, addr := if p.home = rank s ∧ nbits w 39 0 < d.rows then some (placeAddr s d m v p) else none } : ServeRow))
      if n 8 8 ≠ stepNo s then (ldrStop s f codeRemoteVersion table, some 0)
      else match rows.find? (fun r => r.addr.isNone) with
      | some r => (ldrStop s f codeRemoteVersion table (some r.row), some 0)
      | none =>
        let s := rows.foldl (fun s r => countProbe s f d m v r.row) s
        (modLarder s f (fun l => { l with serves := l.serves ++
          [{ rank := t.srank, floor := n 4 1, header := b.take 32, table := table, rows := rows }] }), some 0)

/-- INDEX_RECEIVE (R203): an index block arrives at this floor's Larder. -/
def execIndexReceive (x : Transfer) (s : State) : Host.Outcome State Fault Refusal :=
  if x.kind ≠ 3 then .next s else .next (larderRegs (deliver s x (fun s => acceptIndex s x)) x.dfloor)

/-- SERVE_ROW_READ_DONE (R203): the read of a row for block `k` being served, entry `e`, completes; the block's replies go when its last row has
been read. -/
def execServeRowReadDone (floor k e : Nat) (s : State) : Host.Outcome State Fault Refusal :=
  let l := getLarder s floor
  match l.serves[k]? with
  | none => .next s
  | some b =>
    match b.rows[e]? with
    | none => .next s
    | some r =>
      match r.addr with
      | none => .next s
      | some a =>
        let d := tableDesc s b.table
        if !r.issued ∨ r.read.isSome ∨ rowHeld s b.table a ∨ accessWaits s a (tableWire d) then .next s
        else
          let x := readRow s floor d a (tableWire d) r.row
          let s := countLoad (regCount x.1 (rLdrStatServed floor) 47 0 1) floor 2 b.table r.row
          let b' := { b with rows := listSet b.rows e { r with read := some (x.2.2, if x.2.2 then x.2.1 else []) } }
          if b'.rows.all (fun r => r.read.isSome) then
            let s := modLarder s floor (fun l => { l with serves := l.serves.eraseIdx k })
            .next (larderRegs (sendReplies s floor b') floor)
          else .next (larderRegs (modLarder s floor (fun l => { l with serves := listSet l.serves k b' })) floor)

/-- One row of a reply reaches what its context waits for (R204, R243, R244). -/
def replyRowIn (s : State) (f ctx row : Nat) (res : Option (List Byte)) : State :=
  let l := getLarder s f
  match smGet none l.ctxs ctx with
  | none => s
  | some (.gather room tk i) =>
    (match l.gathers.find? (fun g => decide (g.room = room ∧ g.tk = tk)) with
    | none => s
    | some g =>
      let d := tableDesc s g.table
      let s := match (if g.eval then none else prefetchOf l g.prep) with
        | some p => (match res with
          | some w => pfTag (sendBytes s (pfAddr p d (g.first + i) + 8) w (unitLdr f)).1 f p d (g.first + i) row 2
          | none => pfTag s f p d (g.first + i) row 3)
        | none => s
      match g.rows.find? (fun r => decide (r.i = i)) with
      | some r => finishRow s f g r true res
      | none => s)
  | some (.prefetch list slot) =>
    let s := setLarder s f { l with
      ctxs := smSet none l.ctxs ctx none,
      prefetches := l.prefetches.map (fun p => if p.list = list then { p with flying := p.flying - 1 } else p) }
    (match prefetchOf l list with
    | none => s
    | some p =>
      let d := tableDesc s p.table
      match res with
      | some w => regCount (pfTag (sendBytes s (pfAddr p d slot + 8) w (unitLdr f)).1 f p d slot row 2) (rLdrPfStatus f) 47 8 1
      | none => pfTag s f p d slot row 3)

/-- The rows of a reply's bytes. -/
def replyRows (s : State) (f wb : Nat) : Nat → List Byte → State
  | 0, _ => s
  | k + 1, b =>
    if b.length < 8 then s
    else
      let w := leNat (b.take 8)
      let ok := nbits w 55 55 = 0
      let s := replyRowIn s f (nbits w 54 40) (nbits w 39 0) (if ok then some ((b.drop 8).take wb) else none)
      replyRows s f wb k (b.drop (if ok then 8 + roundUp wb 8 else 8))

/-- REPLY_RECEIVE (R204): a reply arrives at the Larder that asked. -/
def execReplyReceive (x : Transfer) (s : State) : Host.Outcome State Fault Refusal :=
  if x.kind ≠ 4 then .next s
  else
    .next (larderRegs (deliver s x (fun s =>
      let d := tableDesc s (leNat (x.data.take 2))
      (replyRows s x.dfloor (tableWire d) (leNat ((x.data.drop 2).take 2)) (x.data.drop 32), some 0))) x.dfloor)

/-! ### Prefetch (R241 to R243) -/

/-- PREFETCH_SUBMIT (R241): the prepared list at an address is queued for prefetch into LDR_PF_BUF, or refused; a malformed row map header raises
TABLE_INVALID as well (R218, log 154). -/
def execPrefetchSubmit (floor addr : Nat) (s : State) : Host.Outcome State Fault Refusal :=
  if 10 ≤ floor then .next s
  else
    let list := addr / 64 * 64
    let table := memNat s list 2
    let d := tableDesc s table
    let m := rowMapOf s d
    let unique := memNat s (list + 4) 4
    let s := noteFetch s list 64 (unitLdr floor)
    if 16 ≤ regBits s (rLdrPfStatus floor) 4 0 ∨ memNat s (list + 2) 1 ≠ 1 ∨ memNat s (list + 8) 8 ≠ stepNo s + 1 ∨ !d.ok ∨ !m.ok then
      let s := ldrFault (regPut s (rLdrPfStatus floor) 5 5 1) floor codePrefetch table
      .next (if d.ok ∧ !m.ok then ldrStop s floor codeTableInvalid table else s)
    else
      let v := curSlot s d
      let rows := listRows s list 0 unique
      let home := (rows.zipIdx.filter (fun x => decide ((resolve s d m v x.1).home = rank s))).map (fun x => x.2)
      let p : Prefetch := { list := list, buf := regBits s (rLdrPfBuf floor) 63 6 * 64, table := table, step := stepNo s + 1, homeTodo := home }
      let s := rows.foldl (fun s x => countProbe s floor d m v x) (noteFetch s (list + 0x40) (16 * unique) (unitLdr floor))
      .next (larderRegs (modLarder s floor (fun l => { l with prefetches := l.prefetches ++ [p] })) floor)

/-- At the release of step n's commit barrier, the prefetches of step n + 1 start their remote part; those of step n are over (R243, R244). -/
def startPrefetches (s : State) : State :=
  (upTo 10).foldl (fun s f =>
    let l := getLarder s f
    if l.prefetches.isEmpty then s
    else
      let keep := l.prefetches.filter (fun p => decide (stepNo s ≤ p.step))
      let s := setLarder s f { l with prefetches := keep }
      larderRegs (keep.foldl (fun (s : State) (p : Prefetch) =>
        if p.started ∨ p.step ≠ stepNo s then s
        else
          let d := tableDesc s p.table
          let m := rowMapOf s d
          let v := curSlot s d
          let unique := memNat s (p.list + 4) 4
          let rows := listRows s p.list 0 unique
          let rem := (rows.zipIdx.filter (fun x => decide ((resolve s d m v x.1).home ≠ rank s))).map (fun x => x.2)
          if !d.ok ∨ !m.ok then
            ldrStop (modLarder s f (fun l => { l with prefetches := l.prefetches.filter (fun x => decide (x.list ≠ p.list)) })) f codeTableInvalid p.table
          else
            let s := noteFetch s p.list (0x40 + 16 * unique) (unitLdr f)
            let s := rows.zipIdx.foldl (fun s x => pfTag (countProbe s f d m v x.1) f p d x.2 x.1 0) s
            modLarder s f (fun l => { l with
              prefetches := l.prefetches.map (fun x => if x.list = p.list then { x with started := true, remoteTodo := rem } else x) })) s) f) s

/-- Bring one home row of a prefetch in as held lines (R242). -/
def prefetchHome (s : State) (f : Nat) (p : Prefetch) (k : Nat) : State :=
  let d := tableDesc s p.table
  let m := rowMapOf s d
  let v := curSlot s d
  let pl := resolve s d m v (nbits (uniqueAt s p.list k) 39 0)
  let s := modLarder s f (fun l => { l with
    prefetches := l.prefetches.map (fun x => if x.list = p.list then { x with homeTodo := x.homeTodo.filter (fun j => decide (j ≠ k)) } else x) })
  if pl.home = rank s then
    (upTo d.stride).foldl (fun s i => (prefLine s (placeAddr s d m v pl + 64 * i) (unitLdr f)).1) s
  else s

/-! ### The Larder's cycle (R200) -/

/-- Issue the next read for an index block, when a serve context is free: the read slots it costs. -/
def issueServe (s : State) (f : Nat) : Option (State × Nat) :=
  let l := getLarder s f
  if servePool ≤ serveUsed l then none
  else
    match l.serves.findIdx? (fun b => b.rows.any (fun r => !r.issued)) with
    | none => none
    | some k =>
      match l.serves[k]? with
      | none => none
      | some b =>
        some (setLarder s f { l with
          serves := listSet l.serves k { b with rows := modifyFirst (fun r => !r.issued) (fun r => { r with issued := true }) b.rows } }, rowReads (tableDesc s b.table))

/-- Issue the next home row of the gathers in service, one row per descriptor per turn, when an own context is free. A descriptor whose last home row
issues leaves its place in the round to the next. -/
def issueOwn (s : State) (f : Nat) : Option (State × Nat) :=
  let l := getLarder s f
  let isHome (r : RowJob) : Bool := match r.via with | .home _ => !r.issued | _ => false
  let active := ((unissued l).take 64).filter (fun g => g.rows.any isHome)
  if ownPool ≤ ownUsed l then none
  else
    let k := if l.turn < active.length then l.turn else 0
    match active[k]? with
    | none => none
    | some g =>
      match g.rows.find? isHome, (takeCtxs l 1).head? with
      | some r, some c =>
        some (setLarder s f { l with
          ctxs := smSet none l.ctxs c (some (.gather g.room g.tk r.i)), turn := if 1 < (g.rows.filter isHome).length then k + 1 else k,
          gathers := l.gathers.map (fun x => if x.room = g.room ∧ x.tk = g.tk then
            { x with rows := x.rows.map (fun y => if y.i = r.i then { y with issued := true } else y) } else x) },
          rowReads (tableDesc s g.table))
      | _, _ => none

/-- Issue the next home row of a prefetch. -/
def issuePrefetch (s : State) (f : Nat) : Option (State × Nat) :=
  match (getLarder s f).prefetches.find? (fun p => !p.homeTodo.isEmpty) with
  | none => none
  | some p => some (prefetchHome s f p (p.homeTodo.headD 0), rowReads (tableDesc s p.table))

/-- Spend read slots on one source of reads: the slots left, negative slots being owed to later cycles. -/
def spendSlots (issue : State → Option (State × Nat)) : Nat → State × Int → State × Int
  | 0, x => x
  | k + 1, x =>
    if x.2 ≤ 0 then x
    else match issue x.1 with
      | none => x
      | some (s, c) => spendSlots issue k (s, x.2 - Int.ofNat c)

/-- One cycle of a Larder: its four read slots less those owed, prefetch with what is left, and shipping, which takes none. -/
def larderCycle (s : State) (f : Nat) : State :=
  let l := getLarder s f
  let w := min 4 (regBits s (rLdrCtrl f) 2 0)
  let n : Int := 4 - Int.ofNat l.owed
  let a := spendSlots (fun s => issueServe s f) 4 (s, min n (Int.ofNat w))
  let used := min n (Int.ofNat w) - a.2
  let b := spendSlots (fun s => issueOwn s f) 4 (a.1, n - used)
  let c := spendSlots (fun s => issueServe s f) 4 b
  let e := spendSlots (fun s => issuePrefetch s f) 4 c
  let s := modLarder e.1 f (fun l => { l with owed := (-e.2).toNat })
  let s := ((unissued (getLarder s f)).take 64).foldl (fun s g => shipGather s f g) s
  let s := (getLarder s f).prefetches.foldl (fun s p => if p.started ∧ !p.remoteTodo.isEmpty then shipPrefetch s f p else s) s
  larderRegs s f

/-- The Larders with work take a cycle. -/
def larderTick (s : State) : State :=
  s.ldr.units.foldl (fun s u =>
    if (unissued u.2).isEmpty ∧ u.2.serves.isEmpty ∧ u.2.owed = 0 ∧
        u.2.prefetches.all (fun p => p.homeTodo.isEmpty && p.remoteTodo.isEmpty) then s
    else larderCycle s u.1) s

/-! ### The load record (R234) -/

/-- Write a Larder's load record at a commit release and clear its counters; LDR_TRACK takes effect. -/
def loadRecord (s : State) (f n : Nat) : State :=
  let l := getLarder s f
  let a := regBits s (rLdrLoadBase f) 63 14 * 2 ^ 14 + (n % 2) * 0x2000
  let ents := ((upTo 64).map (fun i =>
    let c := smGet (0, 0, 0) l.loads i
    leBytes 2 (bits (smGet 0 s.ldr.track i) 15 0) ++ zeros 6 ++ leBytes 8 c.1 ++ leBytes 8 c.2.1 ++ leBytes 8 c.2.2)).flatten
  let trk := (l.tracker.mergeSort (fun x y => decide (y.2.2.1 < x.2.2.1) ||
    (decide (x.2.2.1 = y.2.2.1) && (decide (x.1 < y.1) || (decide (x.1 = y.1) && decide (x.2.1 ≤ y.2.1))))))
  let tb := (trk.map (fun e => leBytes 8 (e.2.1 + e.1 * 2 ^ 40) ++ leBytes 4 e.2.2.1 ++ leBytes 4 e.2.2.2)).flatten
  let s := setLarder s f { l with loads := [], tracker := [] }
  (sendBytes s a (leBytes 8 n ++ [1#8] ++ zeros 55 ++ ents ++ tb ++ zeros (16 * 256 - tb.length)) (unitLdr f)).1

/-- All ten load records, and the tracked tables in force from now on. -/
def loadRecords (s : State) (n : Nat) : State :=
  let s := (upTo 10).foldl (fun s f => loadRecord s f n) s
  { s with ldr := { s.ldr with track := smSetList 0 [] 0 ((upTo 64).map (fun i => regGet s (rLdrTrack i))) } }

end Sys2Proof.Machine
end

