-- ==== Sys2Proof/Machine/Sfu.lean ====
section
/-!
DEFINITION. The special-function unit: the four correctly rounded primitives (R82, Table 3.7), the composite functions
(R83) and the derivatives by re-evaluation (R84, Table 3.8).
-/
namespace Sys2Proof.Machine

/-- Working precision of 2^f: bits after the point. -/
def ex2Prec : Nat := 128

/-- Π over the bits of the fraction, from the highest down, of 2^(2^−i): `c` is the current root of 2. -/
def ex2Frac (f : Nat) : Nat → Nat → Nat → Nat → Nat
  | 0, _, _, acc => acc
  | n + 1, i, c, acc =>
    let c' := isqrt (c <<< ex2Prec)
    let acc' := if f.testBit (i - 1) then (acc * c') >>> ex2Prec else acc
    ex2Frac f n (i - 1) c' acc'

/-- EX2: 2^x, correctly rounded. Between integers the result is irrational, so a sticky bit stands for the rest. -/
def sfuEx2 (x : Lane) : Lane × NumFlags :=
  match b32 x with
  | .nan => (b32Nan, noFlags)
  | .inf s => (if s then 0#32 else 0x7F800000#32, noFlags)
  | .fin s m e =>
    if m = 0 then (b32One, noFlags)
    else if fvLt (.fin false 1 10) (.fin false m e) then
      (if s then 0#32 else 0x7F800000#32, { noFlags with overflow := !s })
    else if fvLt (.fin false m e) (.fin false 1 (-60)) then (b32One, noFlags)
    else
      -- the exact value as a multiple of 2^-60 (its low bits beyond that are part of the sticky bit)
      let t := if 0 ≤ e + 60 then m <<< (e + 60).toNat else m >>> (-(e + 60)).toNat
      let z : Int := if s then -Int.ofNat t else Int.ofNat t
      let n := z / Int.ofNat (2 ^ 60)
      let f := (z % Int.ofNat (2 ^ 60)).toNat
      let acc := ex2Frac f 60 60 (2 <<< ex2Prec) (1 <<< ex2Prec)
      let r := if f = 0 then fround fmtB32 .rne false 1 n
        else fround fmtB32 .rne false (2 * acc + 1) (n - Int.ofNat ex2Prec - 1)
      (BitVec.ofNat 32 r.1, { noFlags with overflow := r.2 })

/-- Working precision of log₂, and the number of result bits after the point. -/
def lg2Prec : Nat := 320
def lg2Bits : Nat := 120

/-- The bits of log₂ of a mantissa in [1, 2), by repeated squaring. -/
def lg2Frac : Nat → Nat → Nat → Nat
  | 0, _, acc => acc
  | n + 1, y, acc =>
    let y2 := (y * y) >>> lg2Prec
    if 2 ^ (lg2Prec + 1) ≤ y2 then lg2Frac n (y2 / 2) (2 * acc + 1) else lg2Frac n y2 (2 * acc)

/-- LG2: log₂ x, correctly rounded; exact at powers of two, irrational elsewhere. -/
def sfuLg2 (x : Lane) : Lane × NumFlags :=
  match b32 x with
  | .nan => (b32Nan, noFlags)
  | .inf s => if s then (b32Nan, { noFlags with invalid := true }) else (0x7F800000#32, noFlags)
  | .fin s m e =>
    if m = 0 then (0xFF800000#32, { noFlags with divide := true })
    else if s then (b32Nan, { noFlags with invalid := true })
    else
      let k := Nat.log2 m
      let ex : Int := e + Int.ofNat k
      if m = 2 ^ k then ((toB32 (fvOfInt ex)).1, noFlags)
      else
        let fr := lg2Frac lg2Bits (m <<< (lg2Prec - k)) 0
        let z := 2 * (ex * Int.ofNat (2 ^ lg2Bits) + Int.ofNat fr) + 1
        ((toB32 (.fin (decide (z < 0)) z.natAbs (-(Int.ofNat lg2Bits) - 1))).1, noFlags)

/-- RCP: 1 / x. -/
def sfuRcp (x : Lane) : Lane × NumFlags := b32Div b32One x

/-- RSQ: 1 / √x. -/
def sfuRsq (x : Lane) : Lane × NumFlags :=
  match b32 x with
  | .nan => (b32Nan, noFlags)
  | .inf s => if s then (b32Nan, { noFlags with invalid := true }) else (0#32, noFlags)
  | .fin s m e =>
    if m = 0 then (if s then 0xFF800000#32 else 0x7F800000#32, { noFlags with divide := true })
    else if s then (b32Nan, { noFlags with invalid := true })
    else
      -- x = m' × 2^(2h) with m' = m or 2m
      let m' := if e % 2 = 0 then m else 2 * m
      let h := if e % 2 = 0 then e / 2 else (e - 1) / 2
      let q := isqrt ((2 ^ 200) / m')
      let exact := decide (m' * (q * q) = 2 ^ 200)
      ((toB32 (.fin false (2 * q + (if exact then 0 else 1)) (-h - 101))).1, noFlags)

def kLog2e : Lane := 0x3FB8AA3B#32
def kLn2 : Lane := 0x3F317218#32
def kC0 : Lane := 0x3F4C422A#32
def kC1 : Lane := 0x3D372713#32
/-- C2 := rne(3 × C1). -/
def kC2 : Lane := (b32Mul 0x40400000#32 kC1).1
def kTwo : Lane := 0x40000000#32
def kMinusOne : Lane := 0xBF800000#32
def kHalf : Lane := 0x3F000000#32

def mulL (a b : Lane) : Lane := (b32Mul a b).1
def addL (a b : Lane) : Lane := (b32Add a b).1
def fmaL (a b c : Lane) : Lane := (b32Fma a b c).1
def negL (a : Lane) : Lane := if fvIsNan (b32 a) then b32Nan else b32Neg a
def ex2L (a : Lane) : Lane := (sfuEx2 a).1
def rcpL (a : Lane) : Lane := (sfuRcp a).1

def fnExp (x : Lane) : Lane := ex2L (mulL x kLog2e)
def fnLog (x : Lane) : Lane := mulL (sfuLg2 x).1 kLn2

/-- x ≥ 0 holds of −0 and of +0, not of a NaN. -/
def geZero (x : Lane) : Bool := let v := b32 x; !(fvIsNan v) && (fvIsZero v || !(fvSign v))

def fnSigmoid (x : Lane) : Lane :=
  if geZero x then rcpL (addL b32One (ex2L (mulL (negL x) kLog2e)))
  else
    let e := ex2L (mulL x kLog2e)
    mulL e (rcpL (addL b32One e))

def fnTanh (x : Lane) : Lane := fmaL kTwo (fnSigmoid (mulL kTwo x)) kMinusOne
def fnSilu (x : Lane) : Lane := mulL x (fnSigmoid x)

/-- −|x|. -/
def negAbsL (x : Lane) : Lane := if fvIsNan (b32 x) then b32Nan else x ||| 0x80000000#32

def fnSoftplus (x : Lane) : Lane := addL (b32Max x 0#32).1 (fnLog (addL b32One (fnExp (negAbsL x))))

def geluT (x : Lane) : Lane :=
  let u := mulL x x
  let a := mulL kC1 x
  let v := fmaL a u x
  fnTanh (mulL kC0 v)

def fnGelu (x : Lane) : Lane :=
  let t := geluT x
  let h := mulL kHalf x
  fmaL h t h

def dSigmoid (x : Lane) : Lane := let s := fnSigmoid x; fmaL (negL s) s s
def dTanh (x : Lane) : Lane := let t := fnTanh x; fmaL (negL t) t b32One
def dSilu (x : Lane) : Lane :=
  let s := fnSigmoid x
  let q := fmaL (negL s) s s
  fmaL x q s

def dGelu (x : Lane) : Lane :=
  let u := mulL x x
  let t := geluT x
  let w := fmaL kC2 u b32One
  let s := fmaL (negL t) t b32One
  let p := mulL (mulL (mulL kHalf x) s) kC0
  let p := mulL p w
  addL (fmaL kHalf t kHalf) p

/-- The flags of a composite (R83): Invalid only when the result is NaN and the input is not, Overflow only when the
result is infinite and the input finite. -/
def compositeFlags (x r : Lane) : NumFlags :=
  { noFlags with
    invalid := fvIsNan (b32 r) && !(fvIsNan (b32 x))
    overflow := fvIsInf (b32 r) && fvIsFin (b32 x) }

def composite (f : Lane → Lane) (x : Lane) : Lane × NumFlags := let r := f x; (r, compositeFlags x r)

/-- VSFU's function F (Table 4.6): 0 EX2, 1 LG2, 2 RCP, 3 RSQ, 4 exp, 5 log, 6 sigmoid, 7 tanh, 8 silu, 9 softplus, 10 gelu. -/
def sfuFn (f : Nat) (x : Lane) : Lane × NumFlags :=
  match f with
  | 0 => sfuEx2 x
  | 1 => sfuLg2 x
  | 2 => sfuRcp x
  | 3 => sfuRsq x
  | 4 => composite fnExp x
  | 5 => composite fnLog x
  | 6 => composite fnSigmoid x
  | 7 => composite fnTanh x
  | 8 => composite fnSilu x
  | 9 => composite fnSoftplus x
  | _ => composite fnGelu x

/-- VSFUD's derivative F′ for F = 4 to 10 (Table 3.8). -/
def sfuDeriv (f : Nat) (x : Lane) : Lane × NumFlags :=
  match f with
  | 4 => composite fnExp x
  | 5 => composite rcpL x
  | 6 => composite dSigmoid x
  | 7 => composite dTanh x
  | 8 => composite dSilu x
  | 9 => composite fnSigmoid x
  | _ => composite dGelu x

/-- SFU passes of a function code (R102, Table 3.8): 1 for primitives, exp and log, 2 for the other composites. -/
def sfuPasses (f : Nat) : Nat := if f ≤ 5 then 1 else 2

end Sys2Proof.Machine
end

