-- ==== Sys2Proof/Machine/UpdateRules.lean ====
section
/-!
DEFINITION. Parameter blocks and the update rules of dense elements, blocks and rows (R274, R280, R285 to R290, R292, Tables 11.1 to 11.5).
-/
namespace Sys2Proof.Machine

/-! ### The dense master (R274) -/

/-- W to HI and REM. -/
def splitW (w : Lane) : Nat × Nat :=
  if fvIsNan (b32 w) then (0x7FC0, 0)
  else
    let rem := bits w 15 0
    ((bits w 31 16 + rem / 2 ^ 15) % 2 ^ 16, rem)

/-- HI and REM to W. -/
def joinW (hi rem : Nat) : Lane := BitVec.ofNat 32 (((hi + 2 ^ 16 - rem / 2 ^ 15) % 2 ^ 16) * 2 ^ 16 + rem)

/-! ### Parameter blocks (Table 11.3, R280) -/

structure Params where
  lr : Lane
  lrEnd : Lane
  warmup : Nat
  tEnd : Nat
  t0 : Nat
  shape : Nat
  nesterov : Bool
  ema : Bool
  b1 : Lane
  b2 : Lane
  eps : Lane
  wd : Lane
  delta : Lane
  oscale : Lane
  gmax : Lane
  period : Nat
  deriving DecidableEq, Repr

/-- The fields of a block's 64 bytes. -/
def paramsOf (b : List Byte) : Params :=
  let n (o k : Nat) : Nat := leNat ((b.drop o).take k)
  let l (o : Nat) : Lane := BitVec.ofNat 32 (n o 4)
  { lr := l 0, lrEnd := l 4, warmup := n 8 4, tEnd := n 12 4, t0 := n 16 8, shape := n 0x18 1, nesterov := decide (n 0x19 1 % 2 = 1),
    ema := decide (n 0x19 1 / 2 % 2 = 1), b1 := l 0x1C, b2 := l 0x20, eps := l 0x24, wd := l 0x28, delta := l 0x2C, oscale := l 0x30,
    gmax := l 0x34, period := n 0x38 4 }

/-- The parameter block at an address as the engines read it at the step's start barrier (R280); before that, as memory holds it. -/
def paramBytes (s : State) (a : Nat) : List Byte :=
  match s.den.params.find? (fun p => decide (p.1 = a)) with
  | some p => p.2
  | none => (readBytes s a 64).1

def paramsAt (s : State) (a : Nat) : Params := paramsOf (paramBytes s a)

/-- Whether a block is well formed under a rule (R300, Table 11.3): no reserved SHAPE, flag or field, WARMUP at least 1, and PERIOD at least 1 where rule
0x04 uses it. -/
def paramsOk (b : List Byte) (rule : Nat) : Bool :=
  let n (o k : Nat) : Nat := leNat ((b.drop o).take k)
  decide (n 0x18 1 ≤ 2 ∧ n 0x19 1 ≤ 3 ∧ n 0x1A 2 = 0 ∧ n 0x3C 4 = 0 ∧ 1 ≤ n 8 4) && (decide (rule ≠ 4) || decide (1 ≤ n 0x38 4))

def rcpN (a : Lane) : Num Lane := Num.op (sfuRcp a)
def rsqN (a : Lane) : Num Lane := Num.op (sfuRsq a)
def ofIntL (z : Int) : Lane := (toB32 (fvOfInt z)).1

/-- The rule's count t in step n. -/
def ruleT (p : Params) (n : Nat) : Int := Int.ofNat n + 1 - Int.ofNat p.t0

/-- The learning rate of step n, computed once per step (R280). -/
def learnRateN (p : Params) (n : Nat) : Num Lane := do
  let t := ruleT p n
  let w := Int.ofNat p.warmup
  let wu ← if t < w then (do mulN (ofIntL t) (← rcpN (ofIntL w))) else pure b32One
  let base ← match p.shape with
    | 0 => pure p.lr
    | 1 => do
      let q ← mulN (ofIntL (max (t - w) 0)) (← rcpN (ofIntL (max (Int.ofNat p.tEnd - w) 1)))
      fmaN (← subN p.lrEnd p.lr) (b32Min b32One q).1 p.lr
    | 2 => do mulN p.lr (← rsqN (← mulN (ofIntL (max t w)) (← rcpN (ofIntL w))))
    | k => pure (Config.reservedShape k)
  mulN base wu

def learnRate (p : Params) (n : Nat) : Lane := (learnRateN p n {}).1

def paramC1 (p : Params) : Lane := (b32Sub b32One p.b1).1
def paramC2 (p : Params) : Lane := (b32Sub b32One p.b2).1

/-- The decoupled step: W' := fma(-lr, fma(WD, W, u), W). -/
def stepN (p : Params) (lr w u : Lane) : Num Lane := do fmaN (negL lr) (← fmaN p.wd w u) w

/-- The EMA of R292. -/
def emaN (p : Params) (e w : Lane) : Num Lane := do fmaN p.delta (← subN e w) w

/-! ### Elementwise dense rules (R285) -/

/-- Rule 0x01: the new M and W. -/
def ruleSgd (p : Params) (lr m w g : Lane) : Num (Lane × Lane) := do
  let m' ← fmaN p.b1 m g
  let u ← if p.nesterov then fmaN p.b1 m' g else pure m'
  pure (m', ← stepN p lr w u)

/-- (m / (1 − p1)) / (sqrt(v / (1 − p2)) + ε). -/
def adamStep (p : Params) (p1 p2 m v : Lane) : Num Lane := do
  let num ← divN m (← subN b32One p1)
  divN num (← addN (← sqrtN (← divN v (← subN b32One p2))) p.eps)

/-- Rule 0x02: the new M, V and W. -/
def ruleAdam (p : Params) (lr p1 p2 m v w g : Lane) : Num (Lane × Lane × Lane) := do
  let m' ← fmaN p.b1 m (← mulN (paramC1 p) g)
  let v' ← fmaN p.b2 v (← mulN (paramC2 p) (← mulN g g))
  pure (m', v', ← stepN p lr w (← adamStep p p1 p2 m' v'))

/-! ### Block rules (R286, R287): matrices of 128 × 128, row-major -/

abbrev Mat := List Lane

def blockSide : Nat := 128
def rowOf (a : Mat) (i : Nat) : List Lane := (a.drop (blockSide * i)).take blockSide
def colOf (a : Mat) (j : Nat) : List Lane := (upTo blockSide).map (fun k => a.getD (blockSide * k + j) 0)
def dotN (x y : List Lane) : Num Lane := (x.zip y).foldlM (fun acc p => fmaN p.1 p.2 acc) 0
def matMul (a b : Mat) : Num Mat := do
  let cols := (upTo blockSide).map (colOf b)
  let rows ← (upTo blockSide).mapM (fun i => cols.mapM (fun c => dotN (rowOf a i) c))
  pure rows.flatten
def matT (a : Mat) : Mat := ((upTo blockSide).map (colOf a)).flatten
def matMap2 (f : Lane → Lane → Num Lane) (a b : Mat) : Num Mat := (a.zip b).mapM (fun p => f p.1 p.2)
def frob (a : Mat) : Num Lane := do sqrtN (← a.foldlM (fun acc x => fmaN x x acc) 0)
def identity : Mat := (upTo (blockSide * blockSide)).map (fun i => if i / blockSide = i % blockSide then b32One else 0)
def matScale (k : Lane) (a : Mat) : Num Mat := a.mapM (fun x => mulN x k)

def nsA : Lane := 0x40400000#32
def nsB : Lane := 0xC04CCCCD#32
def nsC : Lane := 0x3F99999A#32
def nsE : Lane := 0x33D6BF95#32

/-- One Newton–Schulz iteration. -/
def nsStep (x : Mat) : Num Mat := do
  let a ← matMul x (matT x)
  let b ← matMap2 (fun y z => do fmaN nsC y (← mulN nsB z)) (← matMul a a) a
  matMap2 (fun y z => fmaN nsA y z) x (← matMul b x)

/-- Rule 0x03: the new M, and X. -/
def ruleBom (p : Params) (m g : Mat) : Num (Mat × Mat) := do
  let m' ← matMap2 (fun x y => fmaN p.b1 x y) m g
  let x ← if p.nesterov then matMap2 (fun x y => fmaN p.b1 x y) m' g else pure m'
  let x ← matScale (← rcpN (← addN (← frob x) nsE)) x
  pure (m', ← nsStep (← nsStep (← nsStep (← nsStep (← nsStep x)))))

/-- The coupled iteration of croot. -/
def crootIter : Nat → Mat × Mat → Num (Mat × Mat)
  | 0, x => pure x
  | k + 1, x => do
    let t ← matMap2 (fun a i => do fmaN 0xBF000000#32 a (← mulN 0x3FC00000#32 i)) (← matMul x.2 x.1) identity
    crootIter k (← matMul x.1 t, ← matMul t x.2)

/-- croot: the square root and the inverse square root. -/
def croot (a : Mat) : Num (Mat × Mat) := do
  let c ← frob a
  let r ← crootIter 12 (← matScale (← rcpN c) a, identity)
  pure (← matScale (← sqrtN c) r.1, ← matScale (← rsqN c) r.2)

def root4 (a : Mat) : Num Mat := do pure (← croot (← croot a).2).1

/-- Rule 0x04: the new M, L, R, QL and QR; M' is what W is stepped by. -/
def ruleBkp (p : Params) (recompute : Bool) (m l r ql qr g : Mat) : Num (Mat × Mat × Mat × Mat × Mat) := do
  let fold (a b : Mat) : Num Mat := matMap2 (fun x y => do fmaN p.b2 x (← mulN (paramC2 p) y)) a b
  let reg (a : Mat) : Num Mat := matMap2 (fun x i => do addN x (← mulN p.eps i)) a identity
  let l' ← fold l (← matMul g (matT g))
  let r' ← fold r (← matMul (matT g) g)
  let ql' ← if recompute then (do root4 (← reg l')) else pure ql
  let qr' ← if recompute then (do root4 (← reg r')) else pure qr
  let q ← matMul (← matMul ql' g) qr'
  pure (← matMap2 (fun x y => fmaN p.b1 x y) m q, l', r', ql', qr')

/-! ### What the engines report (R293) -/

/-- Counts of non-finite gradients, absurd gradients and non-finite parameters, each with its lowest occurrence. -/
structure UpdSeen where
  nfg : Nat := 0
  abs : Nat := 0
  nfw : Nat := 0
  nfgAt : Option (Nat × Nat × Nat) := none
  absAt : Option (Nat × Nat × Nat) := none
  nfwAt : Option (Nat × Nat × Nat) := none
  deriving DecidableEq, Repr

def placeLt (a b : Nat × Nat × Nat) : Bool :=
  decide (a.1 < b.1) || (decide (a.1 = b.1) && (decide (a.2.1 < b.2.1) || (decide (a.2.1 = b.2.1) && decide (a.2.2 < b.2.2))))

def lowest (a : Option (Nat × Nat × Nat)) (b : Nat × Nat × Nat) : Option (Nat × Nat × Nat) :=
  match a with
  | none => some b
  | some x => if placeLt b x then some b else some x

/-- Note one element: its gradient, its new value, and where it is. -/
def UpdSeen.note (u : UpdSeen) (gmax g w : Lane) (at_ : Nat × Nat × Nat) : UpdSeen :=
  let fin := fvIsFin (b32 g)
  let u := if fin then u else { u with nfg := u.nfg + 1, nfgAt := lowest u.nfgAt at_ }
  let u := if fin && fvLt (b32 gmax) (fvAbs (b32 g)) then { u with abs := u.abs + 1, absAt := lowest u.absAt at_ } else u
  if fin && !(fvIsFin (b32 w)) then { u with nfw := u.nfw + 1, nfwAt := lowest u.nfwAt at_ } else u

/-- Keep the lowest occurrence of a code in the step (Table 11.6). -/
def updEvent (s : State) (f code : Nat) (at_ : Option (Nat × Nat × Nat)) : State :=
  match at_ with
  | none => s
  | some p =>
    let r : EvRec := { ty := 2, code := code, unit := unitId 4 f, ftime := s.now, step := recStep s, body := [(p.1, 2), (p.2.1, 5), (p.2.2, 4)] }
    match s.ldr.events.find? (fun e => decide (e.1 = code)) with
    | none => { s with ldr := { s.ldr with events := s.ldr.events ++ [(code, p, r)] } }
    | some e =>
      if placeLt p e.2.1 then
        { s with ldr := { s.ldr with events := modifyFirst (fun e => decide (e.1 = code)) (fun _ => (code, p, r)) s.ldr.events } }
      else s

/-- Count what an engine of floor f saw (UPD_NUM). -/
def updSeen (s : State) (f : Nat) (u : UpdSeen) : State :=
  let s := regCount (regCount (regCount s (rUpdNum f) 23 0 u.nfg) (rUpdNum f) 47 24 u.abs) (rUpdNum f) 63 48 u.nfw
  updEvent (updEvent (updEvent s f 0x0406 u.nfgAt) f 0x0407 u.absAt) f 0x0408 u.nfwAt

/-- At a commit release one record per code goes to the event recorder (R293). -/
def flushUpdates (s : State) : State :=
  (s.ldr.events.mergeSort (fun a b => decide (a.1 ≤ b.1))).foldl (fun s e => submitRec s e.2.2) { s with ldr := { s.ldr with events := [] } }

/-! ### Row rules (R288 to R290, R292) -/

/-- Draws of a row's elements on one of its four streams (R290). -/
def rowDraw (s : State) (d : TableDesc) (row k i : Nat) : Nat :=
  drawOf { seed := regGet s rSchSeed, step := stepNo s, unit := row % 2 ^ 32, stream := d.srStream + k } ((nbits row 39 32) * 2 ^ 12 + i)

/-- pow by square-and-multiply from the top bit. -/
def powN (b : Lane) (n : Nat) : Nat → Lane → Num Lane
  | 0, r => pure r
  | k + 1, r => do
    let r ← mulN r r
    powN b n k (← if n.testBit k then mulN r b else pure r)

/-- New values of a row under its table's rule, and the state that heads its tail (before the EMA form); what encoding the state meets is counted too. -/
def ruleRow (s : State) (d : TableDesc) (p : Params) (row : Nat) (w g : List Lane) (tail : List Byte) : Num (List Lane × List Byte) :=
  let lr := learnRate p (stepNo s)
  let n := d.dim
  match d.rule with
  | 0x10 => do pure (← (w.zip g).mapM (fun x => stepN p lr x.1 x.2), [])
  | 0x11 => do
    let g' ← (w.zip g).mapM (fun x => fmaN p.wd x.1 x.2)
    let sum ← g'.foldlM (fun a x => fmaN x x a) 0
    let a ← fmaN sum (← rcpN (ofIntL (Int.ofNat n))) (BitVec.ofNat 32 (leNat (tail.take 4)))
    let q ← mulN lr (← rcpN (← addN (← sqrtN a) p.eps))
    pure (← (w.zip g').mapM (fun x => fmaN (negL q) x.2 x.1), leBytes 4 a.toNat)
  | 0x12 => do
    let cnt := satTo (2 ^ 32 - 1) (leNat ((tail.drop 4).take 4) + 1)
    let ms := rowLanes 1 n ((tail.drop 8).take n ++ tail.take 2)
    let rs := rowLanes 1 n ((tail.drop (8 + n)).take n ++ (tail.drop 2).take 2)
    let top := Nat.log2 cnt + 1
    let p1 ← powN p.b1 cnt top b32One
    let p2 ← powN p.b2 cnt top b32One
    let xs ← ((w.zip g).zip (ms.zip rs)).mapM (fun x => do
      let m ← fmaN p.b1 x.2.1 (← mulN (paramC1 p) x.1.2)
      let v ← fmaN p.b2 (← mulN x.2.2 x.2.2) (← mulN (paramC2 p) (← mulN x.1.2 x.1.2))
      pure (← stepN p lr x.1.1 (← adamStep p p1 p2 m v), m, ← sqrtN v))
    let em := encodeRow 1 d.sr (rowDraw s d row 1) (xs.map (fun x => x.2.1))
    let er := encodeRow 1 d.sr (rowDraw s d row 2) (xs.map (fun x => x.2.2))
    modify (fun c => (c.plus em.2).plus er.2)
    pure (xs.map (fun x => x.1), em.1.drop n ++ er.1.drop n ++ leBytes 4 cnt ++ em.1.take n ++ er.1.take n)
  | _ => pure (w, [])

/-- Where the EMA form lies in a row's tail (Table 11.5). -/
def emaOff (rule n : Nat) : Nat := if rule = 0x11 then 8 else if rule = 0x12 then roundUp (8 + 2 * n) 8 else 0

/-- A tail with other bytes at an offset: what no part of the layout names stays. -/
def tailPut (t : List Byte) (off : Nat) (bs : List Byte) : List Byte := t.take off ++ bs ++ t.drop (off + bs.length)

/-- The stored form of a row after its update, and what the engine saw; padding is written as 0 (R188). -/
def updateRow (s : State) (d : TableDesc) (row : Nat) (old : List Byte) (g : List Lane) : List Byte × UpdSeen × CaseCounts :=
  let p := paramsAt s d.params
  let w := rowLanes d.code d.dim old
  let tail := (old.drop d.tailOff).take d.tailBytes
  let x := ruleRow s d p row w g tail {}
  let r := x.1
  let e := encodeRow d.code d.sr (rowDraw s d row 0) r.1
  let off := emaOff d.rule d.dim
  let em := if p.ema then ((rowLanes d.code d.dim (tail.drop off)).zip r.1).mapM (fun y => emaN p y.1 y.2) {} else ([], {})
  let ema := if p.ema then encodeRow d.code d.sr (rowDraw s d row 3) em.1 else ([], {})
  let t := tailPut (tailPut tail 0 r.2) off ema.1
  let b := e.1 ++ zeros (d.tailOff - e.1.length) ++ t
  let seen := ((g.zip r.1).zipIdx).foldl (fun (u : UpdSeen) x => u.note p.gmax x.1.1 x.1.2 (d.id, row, x.2)) {}
  (b ++ zeros (strideBytes d - b.length), seen,
    ((x.2.plus e.2).plus em.2).plus ema.2)

/-- What the engine saw of a row's gradient, where it forms no new value (FROZEN). -/
def gradSeen (s : State) (d : TableDesc) (row : Nat) (g : List Lane) : UpdSeen :=
  (g.zipIdx).foldl (fun (u : UpdSeen) x => u.note (paramsAt s d.params).gmax x.1 0 (d.id, row, x.2)) {}

end Sys2Proof.Machine
end

