-- ==== Sys2Proof/Machine/Versions.lean ====
section
/-!
DEFINITION. Table versions (R225 to R231) and row migration (R235 to R239, R245).
-/
namespace Sys2Proof.Machine

/-! ### Version records -/

/-- Version slots in a state, over all valid tables, as (table, slot). -/
def slotsIn (s : State) (st : Nat) : List (Nat × Nat) :=
  ((validTables s).map (fun t => ((upTo 4).filter (fun v => decide (verState s (tableDesc s t) v = st))).map (fun v => (t, v)))).flatten

/-- RETIRING slots that an evaluation still reads. -/
def busySlots (s : State) : List (Nat × Nat) := (slotsIn s 4).filter (fun p => decide (0 < verRefs s (tableDesc s p.1) p.2))

/-- DRAINED of a commit arrival (R229). -/
def drainedNow (s : State) : Bool := (busySlots s).isEmpty

/-- LDR_VER_STATE follows the standing request and the RETIRING slots. -/
def verSums (s : State) : State :=
  let w := rLdrVerState
  let sw := s.ldr.switch.getD (0, 0)
  let n := (busySlots s).length
  regPut (regPut (regPut (regPut s w 15 0 (if s.ldr.switch.isSome then sw.1 else 0)) w 16 16 (b2n s.ldr.switch.isSome)) w 17 17 (b2n (decide (n = 0))))
    w 47 32 (satTo 0xFFFF n)

def setVerState (s : State) (d : TableDesc) (v st : Nat) : State := writeNat s (verAddr d v + 8) 1 st
def setVerRefs (s : State) (d : TableDesc) (v n : Nat) : State := writeNat s (verAddr d v + 12) 4 n

/-- Zero a range of stack memory: whole lines, so poison leaves them (R167). -/
def clearRange (s : State) (a n : Nat) : State :=
  let p := translate s a
  { s with mem := smClear s.mem p n, poison := s.poison.filter (fun l => !(decide (p ≤ 64 * l) && decide (64 * l < p + n))) }

/-- Bytes of a table's overlay and census. -/
def overlayBytes (m : RowMap) : Nat := 64 * 2 ^ m.ovLog
def censusBytes (m : RowMap) : Nat := 4 * m.ranks

/-- Whether a release of this very cycle freed a slot, which a LOAD of the same cycle still sees as it stood before (R245). -/
def justFreed (s : State) (d : TableDesc) (v : Nat) : Bool := decide (s.ldr.freedAt = s.now) && decide ((d.id, v) ∈ s.ldr.freed)

/-- Whether `n` bytes from `a` lie in the stack region and overlap no range that a slot in use holds. -/
def verFits (s : State) (d : TableDesc) (m : RowMap) (a n : Nat) : Bool :=
  decide (a + n ≤ stackBytes s) && (upTo 4).all (fun v =>
    (decide (verState s d v = 0) && !(justFreed s d v)) ||
      (!(overlaps a n (verShard s d v) (shardBytes s d m)) && !(overlaps a n (verOverlay s d v) (overlayBytes m)) &&
        !(overlaps a n (verCensus s d v) (censusBytes m))))

/-! ### Version commands (R227, Table 9.5) -/

/-- A command block. -/
structure VerCmd where
  op : Nat
  table : Nat
  version : Nat
  shard : Nat
  overlay : Nat
  census : Nat
  deriving DecidableEq, Repr

def verCmdAt (s : State) (a : Nat) : VerCmd :=
  let b := (readBytes s a 64).1
  let n (o k : Nat) : Nat := leNat ((b.drop o).take k)
  { op := n 0 1, table := n 2 2, version := n 8 8, shard := n 0x10 8, overlay := n 0x18 8, census := n 0x20 8 }

/-- Whether a LOAD is done (R227): VERSION exceeds CURRENT and the four slots' numbers, and the new ranges fit. -/
def loadFits (s : State) (d : TableDesc) (m : RowMap) (c : VerCmd) : Bool :=
  decide (curVersion s d < c.version) && (upTo 4).all (fun v => decide (verNumber s d v < c.version)) &&
    verFits s d m c.shard (shardBytes s d m) && verFits s d m c.overlay (overlayBytes m) && verFits s d m c.census (censusBytes m)

/-- The LOAD's effect on slot `v`. -/
def loadVersion (s : State) (d : TableDesc) (m : RowMap) (c : VerCmd) (v : Nat) : State :=
  let a := verAddr d v
  let s := (writeBytes s a (leBytes 8 c.version ++ [1#8] ++ zeros 3 ++ zeros 4 ++ leBytes 8 c.shard ++ leBytes 8 c.overlay ++ leBytes 8 c.census ++
    zeros 24)).1
  clearRange (clearRange s c.overlay (overlayBytes m)) c.census (censusBytes m)

/-- What a version command does, none when it is refused. -/
def verEffect (s : State) (d : TableDesc) (m : RowMap) (c : VerCmd) : Option State :=
  match c.op with
  | 1 => (match (upTo 4).find? (fun v => decide (verState s d v = 0) && !(justFreed s d v)) with
    | some v => if loadFits s d m c then some (loadVersion s d m c v) else none
    | none => none)
  | 2 => (slotOf s d c.version [1]).map (fun v => setVerState s d v 2)
  | 3 => (slotOf s d c.version [2]).map (fun _ => { s with ldr := { s.ldr with switch := some (c.table, c.version) } })
  | 4 => (slotOf s d c.version [2, 3]).map (fun v => setVerRefs s d v (verRefs s d v + 1))
  | 5 => ((upTo 4).find? (fun v => decide (verNumber s d v = c.version) && decide (verState s d v ≠ 0) && decide (0 < verRefs s d v))).map
      (fun v => setVerRefs s d v (verRefs s d v - 1))
  | 6 => (match slotOf s d c.version [1, 2] with
    | some v => if verRefs s d v = 0 ∧ s.ldr.switch ≠ some (c.table, c.version) then some (setVerState s d v 0) else none
    | none => none)
  | _ => none

/-- Execute a version command: refused for a table that is not valid or whose version record cannot be read, which is recorded (R227). -/
def verTry (s : State) (c : VerCmd) : State × Bool :=
  let d := tableDesc s c.table
  let m := rowMapOf s d
  let x := fetchBytes s d.versions 320 (unitLdr 0)
  match (if d.ok ∧ m.ok ∧ x.2.2 = 0 then verEffect s d m c else none) with
  | some t => (verSums t, true)
  | none => (if d.ok ∧ x.2.2 ≠ 0 then x.1 else s, false)

/-- Execute the command block at an address, if its OP is allowed: the state, with STATUS written last, and whether it was done. -/
def verCommand (s : State) (addr : Nat) (ops : List Nat) : State × Bool :=
  let c := verCmdAt s addr
  if c.op ∉ ops then (s, false)
  else
    let r := verTry s c
    (writeNat r.1 (addr + 0x3F) 1 (if r.2 then 1 else 2), r.2)

/-- VERSION_LOAD (R227): command LOAD at an address. -/
def execVersionLoad (addr : Nat) (s : State) : Host.Outcome State Fault Refusal := .next (verCommand s addr [1]).1

/-- VERSION_READY (R227): command READY at an address. -/
def execVersionReady (addr : Nat) (s : State) : Host.Outcome State Fault Refusal := .next (verCommand s addr [2]).1

/-- VERSION_SWITCH_REQUEST (R228): command SWITCH at an address. -/
def execVersionSwitchRequest (addr : Nat) (s : State) : Host.Outcome State Fault Refusal := .next (verCommand s addr [3]).1

/-- VERSION_BIND (R230): command BIND at an address. -/
def execVersionBind (addr : Nat) (s : State) : Host.Outcome State Fault Refusal := .next (verCommand s addr [4]).1

/-- VERSION_UNBIND (R230): command UNBIND at an address. -/
def execVersionUnbind (addr : Nat) (s : State) : Host.Outcome State Fault Refusal := .next (verCommand s addr [5]).1

/-- VERSION_DISCARD (R227): command DISCARD at an address. -/
def execVersionDiscard (addr : Nat) (s : State) : Host.Outcome State Fault Refusal := .next (verCommand s addr [6]).1

/-! ### Commit releases (R228, R229) -/

/-- The agreed switch takes effect. -/
def applySwitch (s : State) (sw : Nat × Nat) : State :=
  let d := tableDesc s sw.1
  match slotOf s d sw.2 [2] with
  | none => s
  | some v =>
    let s := setVerState s d (curSlot s d) 4
    let s := setVerState s d v 3
    let s := writeNat (writeNat s d.versions 8 sw.2) (d.versions + 8) 1 v
    { s with ldr := { s.ldr with switch := if s.ldr.switch = some sw then none else s.ldr.switch, switched := s.ldr.switched ++ [{ table := sw.1, step := stepNo s }] }
             att := { s.att with whole := setInsert sw.1 s.att.whole } }

/-- Every slot that was RETIRING at this module's arrival becomes FREE once the job agrees. -/
def reclaim (s : State) (agreed : Bool) : State :=
  let s := if agreed then
      s.ldr.retiring.foldl (fun s p => setVerState s (tableDesc s p.1) p.2 0) { s with ldr := { s.ldr with freedAt := s.now, freed := s.ldr.retiring } }
    else s
  regPut s rLdrVerState 18 18 (b2n (agreed && !s.ldr.retiring.isEmpty))

/-! ### Proposals and the plan (R235 to R237) -/

/-- JOB_CAP. -/
def jobCap (s : State) : Nat := satTo 4096 (regBits s rLdrMigCtl 44 32)

/-- At its arrival at the plan barrier the module takes its proposals and clears COUNT. -/
def takeProposals (s : State) : State × List Proposal :=
  let n := satTo 256 (regBits s rLdrMigCtl 8 0)
  let a := regBits s rLdrMigProp 63 6 * 64
  let ps := (upTo n).map (fun i =>
    let w := memNat s (a + 16 * i) 8
    ({ table := nbits w 55 40, row := nbits w 39 0, target := memNat s (a + 16 * i + 8) 2, source := rank s } : Proposal))
  (regPut s rLdrMigCtl 8 0 0, if jobCap s = 0 then [] else ps.take (jobCap s))

/-- Merge proposal lists by ascending source rank, keeping each module's own order and the first JOB_CAP entries (R236). -/
def mergeProposals (cap : Nat) (ls : List (List Proposal)) : List Proposal :=
  (ls.flatten.mergeSort (fun a b => decide (a.source ≤ b.source))).take cap

/-- A census count, with staged changes. -/
def censusGet (s : State) (st : List (Nat × List Byte)) (a : Nat) : Nat :=
  match st.reverse.find? (fun p => decide (p.1 = a)) with
  | some p => leNat p.2
  | none => memNat s a 4

/-- Migrant slots of this module that valid entries of an overlay name before the plan, and still name with `st` changes staged. -/
def takenSlots (s : State) (st : List (Nat × List Byte)) (ov bytes : Nat) : List Nat :=
  let b := translate s ov
  let es := (s.mem.filter (fun c => decide (b ≤ c.1) && decide (c.1 < b + bytes))).map (fun c => (c.1 - b) / 16)
  (es.foldl (fun l e => if l.getLast? = some e then l else l ++ [e]) []).filterMap (fun e =>
    let a := ov + 16 * e
    let mine (w : Nat) : Bool := decide (nbits w 57 56 = 1) && decide (nbits w 55 40 = rank s)
    if mine (memNat s a 8) && mine (ovWord s st a) then some (memNat s (a + 8) 4) else none)

/-- The slot that an arriving row takes (R237): the lowest that no valid entry names before the plan; where there is none, the lowest whose row leaves
with this plan (log 155). -/
def freeSlot (s : State) (st : List (Nat × List Byte)) (given : List Nat) (ov bytes cap : Nat) : Nat :=
  let before := takenSlots s [] ov bytes
  let still := takenSlots s st ov bytes
  match (upTo cap).find? (fun k => decide (k ∉ before) && decide (k ∉ given)) with
  | some k => k
  | none => ((upTo cap).find? (fun k => decide (k ∉ still) && decide (k ∉ given))).getD 0

/-- The plan being applied: staged changes, outcomes, and migrant slots given here, by table. -/
structure PlanAcc where
  st : List (Nat × List Byte) := []
  rows : List PlanRow := []
  given : List (Nat × Nat) := []
  deriving DecidableEq, Repr

/-- A refused entry changes nothing. -/
def refuseEntry (p : Proposal) (c : PlanAcc) : PlanAcc :=
  { c with rows := c.rows ++ [{ table := p.table, row := p.row, source := p.source, target := p.target, accepted := false }] }

/-- One plan entry (R237). -/
def planEntry (s : State) (c : PlanAcc) (p : Proposal) : PlanAcc :=
  let d := tableDesc s p.table
  let m := rowMapOf s d
  if !d.ok ∨ !m.ok ∨ d.rows ≤ p.row then refuseEntry p c
  else
    let v := curSlot s d
    let ov := verOverlay s d v
    let cen (r : Nat) : Nat := verCensus s d v + 4 * (r - m.rank0)
    let base := m.rank0 + (baseHome m d.rows p.row).1
    let cur := (resolveWith s c.st true d m v p.row).1
    let moved := c.rows.any (fun x => x.accepted && decide (x.table = p.table ∧ x.row = p.row))
    if moved ∨ cur.home ≠ p.source ∨ p.target = cur.home ∨ p.target < m.rank0 ∨ m.rank0 + m.ranks ≤ p.target then refuseEntry p c
    else
      let down (st : List (Nat × List Byte)) : List (Nat × List Byte) := st ++ [(cen cur.home, leBytes 4 (censusGet s st (cen cur.home) - 1))]
      let up (st : List (Nat × List Byte)) : List (Nat × List Byte) := st ++ [(cen p.target, leBytes 4 (censusGet s st (cen p.target) + 1))]
      let here := decide (p.target = rank s)
      let given := (c.given.filter (fun g => decide (g.1 = p.table))).map (fun g => g.2)
      let slot := if here ∧ p.target ≠ base then freeSlot s c.st given ov (overlayBytes m) m.cap else 0
      let to_ := if here then (if p.target = base then slotAddrOf s d m v false (baseHome m d.rows p.row).2 else slotAddrOf s d m v true slot) else 0
      let from_ := if cur.home = rank s then placeAddr s d m v cur else 0
      let row : PlanRow := { table := p.table, row := p.row, source := p.source, target := p.target, accepted := true, from_ := from_, to_ := to_ }
      let entry := ovEntry p.row p.target 1 slot
      let given' := if here ∧ p.target ≠ base then c.given ++ [(p.table, slot)] else c.given
      if p.target = base then
        match cur.entry with
        | some a =>
          let w := ovWord s c.st a
          { st := down (c.st ++ [(a, leBytes 8 (w - nbits w 57 56 * 2 ^ 56 + 2 * 2 ^ 56) ++ leBytes 4 (ovSlotWord s c.st a) ++ zeros 4)]),
            rows := c.rows ++ [row], given := given' }
        | none => refuseEntry p c
      else if censusGet s c.st (cen p.target) = m.cap then refuseEntry p c
      else
        match cur.entry, ovPlace s c.st (probeAddrs m ov p.row) with
        | some a, _ => { st := down (up (c.st ++ [(a, entry)])), rows := c.rows ++ [row], given := given' }
        | none, some a => { st := up (c.st ++ [(a, entry)]), rows := c.rows ++ [row], given := given' }
        | none, none => refuseEntry p c

/-- Apply the plan (R237): its changes are staged to the commit release; it is journalled, and in a replay its outcomes must agree. An entry whose row
map header is malformed raises TABLE_INVALID (R218, log 154). -/
def applyPlan (s : State) (sync : Nat) (plan : List Proposal) : State :=
  let c := plan.foldl (planEntry s) {}
  let bad := plan.find? (fun p => let d := tableDesc s p.table; d.ok && !(rowMapOf s d).ok)
  let s := match bad with | some p => ldrStop s 0 codeTableInvalid p.table (some p.row) | none => s
  let w := rLdrMigStat
  let s := regPut (regPut (regPut s w 15 0 c.rows.length) w 31 16 (c.rows.filter (fun r => !r.accepted)).length)
    w 47 32 (c.rows.filter (fun r => r.accepted && decide (r.source = rank s))).length
  let s := journalPlan { s with ldr := { s.ldr with plan := c.rows, staged := c.st } } sync c.rows
  match (if replaying s then replayPlan s else none) with
  | some rs => if rs.map (fun r => r.accepted) = c.rows.map (fun r => r.accepted) then s else journalFault s codeReplayDiverged (replayItems s 4 (stepNo s) (fun _ => true))
  | none => s

/-- At the commit release the staged changes take effect, and the presence filter learns the rows that moved. -/
def commitPlan (s : State) : State :=
  let s := s.ldr.staged.foldl (fun s p => (writeBytes s p.1 p.2).1) s
  let f := s.ldr.plan.foldl (fun f (r : PlanRow) => if r.accepted then setInsert (filterBit r.table r.row) f else f) s.ldr.filter
  { s with ldr := { s.ldr with plan := [], staged := [], filter := f } }

/-! ### Copies (R238, R239) -/

/-- The floor whose Larder sends a row's copy: the home cellar's. -/
def rowFloor (s : State) (a : Nat) : Nat := rowCellar s a / 2

/-- The header of a migration record (log 29): row, table, whether the source's read failed, and the target slot, which the target has computed and
which is a free value here. -/
def migHeader (target table row : Nat) (failed : Bool) : List Byte :=
  leBytes 8 (row + table * 2 ^ 40 + b2n failed * 2 ^ 56) ++ leBytes 4 (Config.targetSlot target table row) ++ zeros 20

/-- Send the copy of one row in its updated form (R238). A row that a replay's journal records as failed, or that still waits for its restore, fails
(R239, R348). -/
def sendCopy (s : State) (r : PlanRow) : State :=
  let d := tableDesc s r.table
  let f := rowFloor s r.from_
  let n := strideBytes d
  let x := match s.ldr.writes.find? (fun w => decide (w.table = r.table ∧ w.row = r.row)) with
    | some w => (s, w.bs, 0)
    | none => fetchBytes s r.from_ n (unitLdr f)
  let bad := decide (x.2.2 ≠ 0) || forcedFail s r.table r.row || pendingRow s r.table r.row
  let s := { x.1 with ldr := { x.1.ldr with
    plan := x.1.ldr.plan.map (fun y => if y.table = r.table ∧ y.row = r.row ∧ y.accepted then { y with sent := true } else y) } }
  sendKind s f r.target f 6 [] (migHeader r.target r.table r.row bad ++ (if bad then zeros n else x.2.1))

/-- Send the copies of accepted rows that leave this module and satisfy `p`. -/
def sendCopies (s : State) (p : PlanRow → Bool) : State :=
  (s.ldr.plan.filter (fun r => r.accepted && !r.sent && decide (r.source = rank s) && p r)).foldl sendCopy s

/-- Whether every copy of this module has been sent and acknowledged. -/
def copiesDone (s : State) : Bool :=
  s.ldr.plan.all (fun r => !(r.accepted && decide (r.source = rank s)) || r.sent) && !(awaiting s 6)

/-- A migrated row whose read failed at its source leaves its lines poisoned at its new home (R239). -/
def poisonRow (s : State) (d : TableDesc) (a : Nat) : State :=
  (upTo d.stride).foldl (fun s i => poisonLine s (a + 64 * i)) (beforeRowWrite s (verShard s d (curSlot s d)) a (strideBytes d))

/-- One migration record reaches its target: the row is written, poisoned when its source could not read it or a replay's journal records its
failure (R239, R348). A failure that the journal does not record stops the step (R347). A row whose slot holds another until the commit waits for it
(log 155). -/
def migrateIn (s : State) (f : Nat) (d : TableDesc) (row to_ : Nat) (failed : Bool) (bs : List Byte) : State :=
  let leaves := s.ldr.plan.any (fun r => r.accepted && decide (r.source = rank s ∧ r.from_ = to_))
  let stage (s : State) (bs : List Byte) : State :=
    { s with ldr := { s.ldr with writes := s.ldr.writes ++ [{ cellar := rowCellar s to_, table := d.id, row := row, addr := to_, bs := bs }] } }
  if failed ∨ forcedFail s d.id row = true then
    let s := if leaves then stage s [] else poisonRow s d to_
    let s := ldrFault (regCount s rLdrMigStat 63 48 1) f codeMigration d.id (some row)
    let s := enterRestore s f d.id row
    if replaying s ∧ (d.id, row) ∉ replayFailed s then journalFault s codeReplayDiverged [] else s
  else if leaves then stage s bs
  else writeRow s f d (curSlot s d) to_ bs

/-- The records of a MIGRATE transfer, one after another; none for a record that no plan entry brings here (log 29). -/
def migrateRecords (f : Nat) : Nat → List Byte → State → Option State
  | 0, _, s => some s
  | k + 1, b, s =>
    if b.isEmpty then some s
    else
      let w := leNat (b.take 8)
      let t := nbits w 55 40
      let row := nbits w 39 0
      let d := tableDesc s t
      match s.ldr.plan.find? (fun r => r.accepted && decide (r.table = t ∧ r.row = row ∧ r.target = rank s)) with
      | some r =>
        if b.length < 32 + strideBytes d then none
        else
          migrateRecords f k (b.drop (32 + strideBytes d))
            (migrateIn s f d row r.to_ (decide (nbits w 56 56 = 1)) ((b.drop 32).take (strideBytes d)))
      | none => none

/-- Whether a slot that a migrating row comes to lies in a channel that retrains (R180). -/
def landingWaits (s : State) : Bool :=
  s.ldr.plan.any (fun r => r.accepted && decide (r.target = rank s) && accessWaits s r.to_ (strideBytes (tableDesc s r.table)))

/-- MIGRATE_RECEIVE (R238): migration records arrive at their target. -/
def execMigrateReceive (x : Transfer) (s : State) : Host.Outcome State Fault Refusal :=
  if x.kind ≠ 6 then .next s
  else
    .next (deliverUnless (landingWaits s) s x (fun s =>
      match migrateRecords x.dfloor (x.data.length + 1) x.data s with
      | some s' => (s', some stDone)
      | none => (s, some stFormat)))

end Sys2Proof.Machine
end

