-- ==== Sys2Proof/Machine/Scatter.lean ====
section
/-!
DEFINITION. Row gradients: scatters (R205 to R207), the cellar update queues (R208, R209), the cellar update engines (R210 to R212, R288, R291), and
what becomes of late contributions (R231, R245, R322 to R324).
-/
namespace Sys2Proof.Machine

def codeFoldDropped : Nat := 0x0543

/-- LDR_JOB.CLOSE_EN. -/
def closeEn (s : State) : Bool := decide (regBits s rLdrJob 17 17 = 1)

/-! ### Records (Table 8.9) -/

/-- A contribution record. -/
def mkRecord (table row key rk f : Nat) (exp : Int) (origin : Nat) (folded : Bool) (vals : List Byte) : List Byte :=
  leBytes 8 (row + table * 2 ^ 40 + b2n folded * 2 ^ 56) ++ leBytes 4 key ++ leBytes 2 rk ++ leBytes 1 f ++ leBytes 1 (ofSigned 8 exp) ++
    leBytes 8 origin ++ zeros 8 ++ vals ++ zeros (roundUp vals.length 32 - vals.length)

/-- A record in the queue of a cellar (R209); none when it does not fit, which stops the step. -/
def enqueueRec (s : State) (c : Nat) (r : List Byte) (room : Option Nat) : State × Bool :=
  let fill := queueFill s c
  let n := r.length / 32
  if regBits s (rLdrCqCap c) 31 0 < fill + n then (ldrStop s (c / 2) codeQueueFull (recTable r) (some (recRow r)) room, false)
  else
    let s := (sendBytes s (queueBase s c + 32 * fill) r (unitLdr (c / 2))).1
    let w := rLdrCqState c
    (regPeak (regPut s w 31 0 (fill + n)) w 63 32 (fill + n), true)

/-- The records of a frame's bytes. -/
def splitRecords (s : State) : Nat → List Byte → List (List Byte)
  | 0, _ => []
  | k + 1, b =>
    if b.length < 32 then []
    else
      let d := tableDesc s (recTable b)
      let n := 32 + roundUp (d.dim * gradBytes d.gradFmt) 32
      b.take n :: splitRecords s k (b.drop n)

/-- Where the home of a record's row is now: the cellar when it is here, else the rank. -/
def recordHome (s : State) (r : List Byte) : Nat × Option Nat :=
  let d := tableDesc s (recTable r)
  let m := rowMapOf s d
  let p := resolve s d m (curSlot s d) (recRow r)
  (p.home, if p.home = rank s then some (rowCellar s (placeAddr s d m (curSlot s d) p)) else none)

/-- The Larder of floor `f` has resolved a record's row. -/
def probeRecord (s : State) (f : Nat) (r : List Byte) : State :=
  let d := tableDesc s (recTable r)
  countProbe s f d (rowMapOf s d) (curSlot s d) (recRow r)

/-- Largest data of one transfer: 262,144 flits (Table 14.1). -/
def maxTransfer : Nat := 262144 * 240 - 32

/-- Cut records into frames that one transfer can carry. -/
def frames : List (List Byte) → List Byte → List (List Byte)
  | [], cur => if cur.isEmpty then [] else [cur]
  | r :: rs, cur => if !cur.isEmpty ∧ maxTransfer < cur.length + r.length then cur :: frames rs r else frames rs (cur ++ r)

/-- Send records that are not for this module, one run of frames per home, from floor `f` to the same floor there (log 30). -/
def sendRecords (s : State) (f : Nat) (rs : List (Nat × List Byte)) : State :=
  let homes := rs.foldl (fun l r => setInsert r.1 l) []
  homes.foldl (fun s h =>
    (frames ((rs.filter (fun r => decide (r.1 = h))).map (fun r => r.2)) []).foldl (fun s b => sendKind s f h f 5 [] b) s) s

/-! ### Scatters (R205, R206) -/

/-- The fault of a scatter descriptor, 0 for none. -/
def scatterCode (s : State) (b : List Byte) : Nat :=
  let n (o k : Nat) : Nat := leNat ((b.drop o).take k)
  let prep := n 0 8
  let first := n 8 4
  let count := n 12 4
  let src := n 0x10 4
  let pitch := n 0x14 2
  let d := tableDesc s (memNat s prep 2)
  if !(closeEn s) ∨ (b.drop 0x16).any (fun x => decide (x ≠ 0)) ∨ count = 0 ∨ 65536 < count ∨ src % 64 ≠ 0 then codeDescriptorFormat
  else if memNat s (prep + 2) 1 = 2 then codeListFormat
  else if memNat s (prep + 4) 4 < first + count ∨ pitch < ceilDiv (4 * d.dim) 64 ∨ storeBytes < src + count * pitch * 64 then codeDescriptorFormat
  else if memNat s (prep + 8) 8 ≠ stepNo s then codeListStep
  else 0

/-- What a scatter gathers as it reads its rows: the state and the records with their homes. -/
structure ScatAcc where
  s : State
  out : List (Nat × List Byte) := []
  deriving DecidableEq, Repr

/-- The absent list of a barrier notice (Table 14.7). -/
def noticeAbsent (b : List Byte) : List Nat := (upTo (leNat ((b.drop 24).take 4))).map (fun i => leNat ((b.drop (32 + 2 * i)).take 2))

/-- The absent list of the step's close barrier, once its release notice has reached the module (R322): it has released, its notice stands, or its notice
came before the module reached it. -/
def closeKnown (s : State) : Option (List Nat) :=
  let y := regBits s rLdrJob 15 0
  let early := (s.seq.early.find? (fun x => decide (leNat (x.args.take 1) = 2 ∧ leNat ((x.args.drop 2).take 2) = y ∧ x.step = stepNo s))).map
    (fun x => noticeAbsent x.data)
  if s.ldr.closed.isSome then some s.ldr.closeAbsent
  else if !(closeEn s) then none
  else match s.seq.barrier.notice with
    | some n => if n.sync = y then some n.absent else early
    | none => early

/-- Whether a contribution sent now is late: this module is listed absent at the step's close barrier (R322). -/
def lateNow (s : State) : Bool := (closeKnown s).any (fun l => decide (rank s ∈ l))

/-- Whether a frame has not begun to go out. -/
def notBegun (x : Xfer) : Bool := x.waiting || decide (x.tries = 1 ∧ x.unsent = flitsOf x.t.data.length)

/-- A record with FOLDED set. -/
def foldRecord (r : List Byte) : List Byte := leBytes 8 (Nat.lor (leNat (r.take 8)) (2 ^ 56)) ++ r.drop 8

/-- The notice of the close barrier has reached the module: where it is listed absent, its contributions of the step that have not begun to go out are
FOLDED (R322). -/
def noteLate (s : State) : State :=
  if !(lateNow s) then s
  else
    let mark (r : List Byte) : List Byte := if recRank r = rank s ∧ recOrigin r = stepNo s then foldRecord r else r
    { s with fab := { s.fab with out := s.fab.out.map (fun x =>
      if x.t.kind = 5 ∧ notBegun x = true then
        { x with t := { x.t with data := ((splitRecords s (x.t.data.length + 1) x.t.data).map mark).flatten } } else x) } }

/-- Row `i` of a scatter: skipped, failed, queued here, or sent. -/
def scatterRow (room tk f prep first count src pitch : Nat) (d : TableDesc) (a : ScatAcc) (i : Nat) : ScatAcc :=
  let s := a.s
  let u := uniqueAt s prep (first + i)
  let row := nbits u 39 0
  let off := src + i * pitch * 64
  if nbits u 63 63 = 1 then a
  else if storeBad s room off (4 * d.dim) then
    let q := getRoom s room
    { a with s := failPart (accessFault s (storeAddr q.floor q.pos off) codeStoreEcc (unitLdr f)) room tk codeStoreEcc (runOf count i) }
  else
    let xs := (chunks 4 (d.dim + 1) (storeRead s room off (4 * d.dim))).map (fun b => (BitVec.ofNat 32 (leNat b) : Lane))
    if xs.all (fun x => decide (nbits x.toNat 30 0 = 0)) then a
    else
      let g := encodeGrad s d.gradFmt (d.scat + f) xs
      let s := unitCases g.1 g.2.2.2 (numKey room 63 2 i) (unitLdr f) [(d.id, 2), (row, 5), (room, 2), (d.scat + f, 2)]
      let r := mkRecord d.id row (memNat s (prep + 0x40 + 16 * (first + i) + 8) 4) (rank s) f g.2.2.1 (stepNo s) (lateNow s) g.2.1
      let s := regCount s (rLdrStatScatter f) 47 0 1
      let s := probeRecord s f r
      match recordHome s r with
      | (_, some c) => { a with s := (enqueueRec s c r (some room)).1 }
      | (h, none) => { a with s := s, out := a.out ++ [(h, r)] }

/-- Submit a scatter (R205 to R208): checked, and every row of it read, encoded, and queued or sent. -/
def submitScatter (s : State) (room : Nat) (o : Elastic) : State :=
  let q := getRoom s room
  let tk := o.f.tk.toNat
  let x := fetchDescriptor s room o.src (unitLdr q.floor)
  let s := x.1
  let n (k w : Nat) : Nat := leNat ((x.2.1.drop k).take w)
  let prep := n 0 8
  let table := memNat s prep 2
  let c := scatterCode s x.2.1
  let y := fetchList s prep (n 8 4) (if c = 0 then n 12 4 else 0) (unitLdr q.floor)
  let s := if x.2.2 = 0 then y.1 else s
  if x.2.2 ≠ 0 then failOp s room tk x.2.2
  else if y.2 ≠ 0 then failOp s room tk y.2
  else if c ≠ 0 then failOp (ldrFault s q.floor c table none (some room)) room tk c
  else
    let d := tableDesc s table
    if !d.ok ∨ !(rowMapOf s d).ok then failOp (ldrStop s q.floor codeTableInvalid table none (some room)) room tk codeTableInvalid
    else
      let s := modOp s room tk (fun o => { o with accepted := true, left := 0 })
      let a := (upTo (n 12 4)).foldl (scatterRow room tk q.floor prep (n 8 4) (n 12 4) (n 0x10 4) (n 0x14 2) d) ({ s := s } : ScatAcc)
      sendRecords a.s q.floor a.out

/-- Count and record a dropped contribution of a row. -/
def dropRecord (code c : Nat) (s : State) (r : List Byte) : State :=
  let s := regCount s (rLdrStatFail (c / 2)) 63 48 1
  if code = codeFoldDropped then recordFault s code (unitLdr (c / 2)) [(recTable r, 2), (recRow r, 5), (recRank r, 2)]
  else ldrFault s (c / 2) code (recTable r) (some (recRow r))

/-- Whether a record that arrives was already decided to be dropped: at the close release two steps after its origin its rank was absent (R323). -/
def alreadyDropped (s : State) (r : List Byte) : Bool := s.ldr.absents.any (fun e => decide (e.1 = recOrigin r + 2 ∧ recRank r ∈ e.2))

/-- Queue arriving records, or forward one whose row has moved (R245); stops at a full queue, without an acknowledgement. -/
def queueAll (f : Nat) : List (List Byte) → State → State × Option Nat
  | [], s => (s, some stDone)
  | r :: rs, s =>
    let d := tableDesc s (recTable r)
    if !d.ok ∨ !(rowMapOf s d).ok then (ldrStop s f codeTableInvalid (recTable r), some stDone)
    else
      let s := probeRecord s f r
      let home := recordHome s r
      if alreadyDropped s r then queueAll f rs (dropRecord codeFoldDropped (home.2.getD (2 * f)) s r)
      else match home with
      | (_, some c) =>
        let x := enqueueRec s c r none
        if x.2 then queueAll f rs x.1 else (x.1, none)
      | (h, none) => queueAll f rs (sendRecords s f [(h, r)])

/-- Whether `n` more bytes of some cellar's queue wait for a channel that retrains (R180). -/
def queuesWait (s : State) (n : Nat) : Bool :=
  (upTo 20).any (fun c => decide (regBits s (rLdrCqCap c) 31 0 ≠ 0) && accessWaits s (queueBase s c + 32 * queueFill s c) n)

/-- SCATTER_RECEIVE (R207): a home receives contribution records and queues them. -/
def execScatterReceive (x : Transfer) (s : State) : Host.Outcome State Fault Refusal :=
  if x.kind ≠ 5 then .next s else .next (deliverUnless (queuesWait s x.data.length) s x (fun s => queueAll x.dfloor (splitRecords s (x.data.length + 1) x.data) s))

/-! ### The close release (R321 to R323) -/

/-- Leave only these records in a cellar's queue. -/
def keepRecords (s : State) (c : Nat) (rs : List (List Byte)) : State :=
  let b := rs.flatten
  regPut (if b.isEmpty then s else (writeBytes s (queueBase s c) b).1) (rLdrCqState c) 31 0 (b.length / 32)

/-- Whether a record of an absent rank would be three steps late. -/
def tooLate (s : State) (r : List Byte) : Bool := decide (recRank r ∈ s.ldr.closeAbsent) && decide (recOrigin r + 2 ≤ stepNo s)

/-- R323 for one cellar's queue at the close release. -/
def closeCellar (s : State) (c : Nat) : State :=
  let rs := queueRecords s c
  let gone := rs.filter (tooLate s)
  if gone.isEmpty then s else gone.foldl (dropRecord codeFoldDropped c) (keepRecords s c (rs.filter (fun r => !(tooLate s r))))

/-- Whether a frame that has not begun to go out holds nothing but contributions of steps up to `o`: row records, or an RS_DIRECT partial. -/
def unsentOld (s : State) (o : Nat) (x : Xfer) : Bool :=
  notBegun x &&
    ((decide (x.t.kind = 5) && (splitRecords s (x.t.data.length + 1) x.t.data).all (fun r => decide (recOrigin r ≤ o))) ||
      decide (x.t.kind = 7 ∧ leNat (x.t.args.take 1) = 3 ∧ x.t.step ≤ o))

/-- The close barrier of the step has released (R210, R322, R323). -/
def closeRelease (s : State) (absent : List Nat) : State :=
  let s := { s with ldr := { s.ldr with
    closed := some s.now, closeAbsent := absent, cellarsDone := []
    absents := (s.ldr.absents ++ [(stepNo s, absent)]).drop (s.ldr.absents.length - 3) } }
  let s := (upTo 20).foldl closeCellar s
  if rank s ∈ absent ∧ 2 ≤ stepNo s then
    { s with fab := { s.fab with out := s.fab.out.filter (fun x => !(unsentOld s (stepNo s - 2) x)) } }
  else s

/-! ### The update engine (R210 to R212, R231) -/

/-- The engine's order of records (R210); tables ascending. -/
def recLe (a b : List Byte) : Bool :=
  let k (r : List Byte) : List Nat := [recTable r, recRow r, recRank r, recOrigin r, recKey r, recFloor r]
  decide (k a ≤ k b)

/-- The records that the engine takes: those of present ranks (R323). -/
def takenRecords (s : State) (c : Nat) : List (List Byte) := (queueRecords s c).filter (fun r => decide (recRank r ∉ s.ldr.closeAbsent))

/-- Whether a folded record crossed a switch of its table (R231). -/
def staleRecord (s : State) (r : List Byte) : Bool :=
  s.ldr.switched.any (fun w => decide (w.table = recTable r) && decide (recOrigin r ≤ w.step))

/-- Distinct rows of a list of records, as (table, row). -/
def recRows (rs : List (List Byte)) : List (Nat × Nat) :=
  (rs.mergeSort recLe).foldl (fun l r => if l.getLast? = some (recTable r, recRow r) then l else l ++ [(recTable r, recRow r)]) []

/-- T_cue of R212. -/
def tCue (s : State) (rs : List (List Byte)) : Nat :=
  let n := rs.length
  let sum := rs.foldl (fun k r => k + (tableDesc s (recTable r)).dim) 0
  let app := (recRows rs).foldl (fun k r => k + strideBytes (tableDesc s r.1)) 0
  1000 + ceilDiv n 32 * (1 + ceilLog16 (ceilDiv n 4096)) + max (ceilDiv sum 512) (ceilDiv app 512)

/-- The summed gradient of a row: from +0, one addition at a time, its cases counted. -/
def sumRecords (d : TableDesc) (rs : List (List Byte)) : Num (List Lane) :=
  rs.foldlM (fun g r => addsN g (decodeGrad d.gradFmt d.dim (recExp r) (r.drop 32))) (List.replicate d.dim 0)

/-- A row of the failed set: its contributions are discarded (R211). -/
def discardRow (s : State) (c table row : Nat) : State :=
  let s := regCount s (rLdrStatFail (c / 2)) 63 48 1
  if c ∈ s.ldr.discardSeen then s
  else ldrFault { s with ldr := { s.ldr with discardSeen := c :: s.ldr.discardSeen } } (c / 2) codeDiscarded table (some row)

/-- Apply one row: its records in order, its update staged to the commit release (R26). A FROZEN row's sum is formed and discarded (R273, R288). -/
def updateOne (c : Nat) (rs : List (List Byte)) (s : State) (tr : Nat × Nat) : State :=
  let d := tableDesc s tr.1
  let m := rowMapOf s d
  if !d.ok ∨ !m.ok then ldrStop s (c / 2) codeTableInvalid tr.1 (some tr.2)
  else if inFailedSet s tr.1 tr.2 then discardRow s c tr.1 tr.2
  else
    let v := curSlot s d
    let a := placeAddr s d m v (resolve s d m v tr.2)
    let s := countProbe s (c / 2) d m v tr.2
    let x := engineRow s (c / 2) d a (strideBytes d) tr.2
    if !x.2.2 then discardRow x.1 c tr.1 tr.2
    else
      let sum := sumRecords d (rs.filter (fun r => decide (recTable r = tr.1 ∧ recRow r = tr.2))) {}
      let g := sum.1
      let report (s : State) (n : CaseCounts) : State :=
        unitCases s n (2 ^ 60 + tr.1 * 2 ^ 40 + tr.2) (unitId 2 c) [(tr.1, 2), (tr.2, 5), (d.srStream, 2)]
      if d.rule = 0 then report (updSeen x.1 (c / 2) (gradSeen x.1 d tr.2 g)) sum.2 else
      let u := updateRow s d tr.2 x.2.1 g
      let s := report (updSeen x.1 (c / 2) u.2.1) (sum.2.plus u.2.2)
      { s with ldr := { s.ldr with writes := s.ldr.writes ++ [{ cellar := c, table := tr.1, row := tr.2, addr := a, bs := u.1 }] } }

/-- The engine of a cellar applies its step's queue (R210), and leaves the held records (R323). -/
def runEngine (s : State) (c : Nat) : State :=
  let all := takenRecords s c
  let held := (queueRecords s c).filter (fun r => decide (recRank r ∈ s.ldr.closeAbsent))
  let stale := all.filter (staleRecord s)
  let rs := (all.filter (fun r => !(staleRecord s r))).mergeSort recLe
  let s := stale.foldl (dropRecord codeStale c) s
  let s := (recRows rs).foldl (updateOne c rs) s
  let t := s.ldr.closed.getD s.now
  let w := rLdrCqTime c
  let s := regPut (regPut s w 31 0 (satTo (2 ^ 32 - 1) (s.now - t))) w 63 32 (satTo (2 ^ 32 - 1) all.length)
  let marks := (all.map (fun r => (c, recTable r))).eraseDups
  keepRecords { s with ldr := { s.ldr with cellarsDone := setInsert c s.ldr.cellarsDone, held := s.ldr.held ++ marks } } c held

/-- Whether a row or the queue that a cellar's engine reads lies in a channel that retrains (R180). -/
def engineWaits (s : State) (c : Nat) : Bool :=
  accessWaits s (queueBase s c) (32 * queueFill s c) || (recRows (takenRecords s c)).any (fun tr =>
    let d := tableDesc s tr.1
    let m := rowMapOf s d
    let v := curSlot s d
    accessWaits s (placeAddr s d m v (resolve s d m v tr.2)) (strideBytes d))

/-- CELLAR_UPDATE_COMPLETE (R212): the engine of a cellar finishes the step, T_cue after the close release at the earliest; the copies of migrating
rows that it held go out (R238). -/
def execCellarUpdateComplete (cellar : Nat) (s : State) : Host.Outcome State Fault Refusal :=
  match s.ldr.closed with
  | none => .next s
  | some t =>
    if 20 ≤ cellar ∨ cellar ∈ s.ldr.cellarsDone ∨ s.now < t + tCue s (takenRecords s cellar) ∨ engineWaits s cellar then .next s
    else
      let s := runEngine s cellar
      .next (sendCopies s (fun r => decide (rowCellar s r.from_ = cellar)))

/-- Whether the update engines have done the step (R212). -/
def cellarsReady (s : State) : Bool := !(closeEn s) || decide (s.ldr.cellarsDone.length = 20)

/-- The plan barrier has released: the plan is applied, and without a close barrier its copies go at once. -/
def planRelease (s : State) (sync : Nat) (plan : List Proposal) : State :=
  let s := applyPlan s sync plan
  if closeEn s then s else sendCopies s (fun _ => true)

/-- At a commit release the staged row updates become visible (R26), and the migrated rows whose slots were taken until now. -/
def commitRows (s : State) : State :=
  let s := s.ldr.writes.foldl (fun s w =>
    let d := tableDesc s w.table
    if w.bs.isEmpty then poisonRow s d w.addr else writeRow s (w.cellar / 2) d (curSlot s d) w.addr w.bs) s
  { s with ldr := { s.ldr with writes := [] } }

/-- Records that a cellar holds for rows that no longer live here go on to their new homes (R245). -/
def forwardHeld (s : State) : State :=
  (upTo 20).foldl (fun s c =>
    let rs := (queueRecords s c).map (fun r => (r, recordHome s r))
    let s := rs.foldl (fun s x => probeRecord s (c / 2) x.1) s
    let go := rs.filter (fun x => x.2.2.isNone)
    if go.isEmpty then s
    else
      let s := keepRecords s c ((rs.filter (fun x => x.2.2.isSome)).map (fun x => x.1))
      sendRecords s (c / 2) (go.map (fun x => (x.2.1, x.1)))) s

/-- The Larders at a commit release, after the switch and the plan: the step's sets are empty again. -/
def resetStepSets (s : State) : State :=
  { s with ldr := { s.ldr with failed := [], queued := [], closed := none, closeAbsent := [], cellarsDone := [], held := [], nullSeen := [], discardSeen := [] } }

end Sys2Proof.Machine
end

