-- ==== Sys2Proof/Machine/Dense.lean ====
section
/-!
DEFINITION. The floors' update engines (R272 to R287, R292, R293, R299): update descriptors, dense state records under step parity, slices,
block buffers and tensor completion.
-/
namespace Sys2Proof.Machine

def codeUpdateFormat : Nat := 0x0170
def codeSliceUnknown : Nat := 0x0171
def codeStateStale : Nat := 0x0172
def codeStateFailed : Nat := 0x0222

/-- A fault of a floor's update engine that stops the step (R300). -/
def updStop (s : State) (f code tensor elem : Nat) : State := stopFault s (rUpdFault f) 16 code (unitId 4 f) [(tensor, 2), (elem, 8)]

/-! ### Update descriptors (Table 11.2) -/

structure DenseDesc where
  tensor : Nat
  rule : Nat
  k : Nat
  n : Nat
  k0 : Nat
  k1 : Nat
  n0 : Nat
  n1 : Nat
  colls : Nat
  state : Nat
  params : Nat
  valid : Bool
  reserved : Bool
  deriving DecidableEq, Repr

def denseDescAt (s : State) (a : Nat) : DenseDesc :=
  let b := (readBytes s a 64).1
  let n (o k : Nat) : Nat := leNat ((b.drop o).take k)
  { tensor := n 0 2, rule := n 2 1, k := n 4 4, n := n 8 4, k0 := n 12 4, k1 := n 16 4, n0 := n 20 4, n1 := n 24 4, colls := n 28 2,
    state := n 32 8, params := n 40 8, valid := decide (n 3 1 % 2 = 1), reserved := decide (n 3 1 ≤ 1 ∧ n 30 2 = 0 ∧ n 48 16 = 0) }

/-- The addresses of a floor's descriptors, and the valid descriptors. -/
def dirAddrs (s : State) (f : Nat) : List Nat := (upTo (regBits s (rUpdDir f) 11 0)).map (fun i => regBits s (rUpdDir f) 63 12 * 4096 + 64 * i)
def denseDescs (s : State) (f : Nat) : List DenseDesc := ((dirAddrs s f).map (denseDescAt s)).filter (fun d => d.valid)
def denseDesc (s : State) (f t : Nat) : Option DenseDesc := (denseDescs s f).find? (fun d => decide (d.tensor = t))

def ownRows (d : DenseDesc) : Nat := d.k1 - d.k0
def ownCols (d : DenseDesc) : Nat := d.n1 - d.n0
def ownElems (d : DenseDesc) : Nat := ownRows d * ownCols d
def blockCols (d : DenseDesc) : Nat := ceilDiv (ownCols d) 128
def blockNum (d : DenseDesc) : Nat := ceilDiv (ownRows d) 128 * blockCols d
def blockRule (d : DenseDesc) : Bool := decide (d.rule = 3 ∨ d.rule = 4)

/-- Offsets of the parts of a state record (R279, Table 11.4, log 32). -/
def offHi : Nat := 64
def offRem (d : DenseDesc) : Nat := 64 + roundUp (2 * ownElems d) 64
def offM (d : DenseDesc) : Nat := 64 + 2 * roundUp (2 * ownElems d) 64
def offV (d : DenseDesc) : Nat := offM d + (if blockRule d then 65536 * blockNum d else roundUp (4 * ownElems d) 64)
def offEma (d : DenseDesc) : Nat :=
  if d.rule = 2 then offV d + roundUp (4 * ownElems d) 64 else if d.rule = 4 then offV d + 262144 * blockNum d else offV d
def recordBytes (d : DenseDesc) (ema : Bool) : Nat := offEma d + (if ema then 2 * roundUp (2 * ownElems d) 64 else 0)

/-- The element (k, n) of the owned range, and back. -/
def elemOf (d : DenseDesc) (k n : Nat) : Nat := (k - d.k0) * ownCols d + (n - d.n0)
def elemRow (d : DenseDesc) (e : Nat) : Nat := d.k0 + e / ownCols d
def elemCol (d : DenseDesc) (e : Nat) : Nat := d.n0 + e % ownCols d

/-- The block of an element and its place in it. -/
def blockOf (d : DenseDesc) (e : Nat) : Nat × Nat :=
  let r := e / ownCols d
  let c := e % ownCols d
  (r / 128 * blockCols d + c / 128, r % 128 * 128 + c % 128)

/-- The owned elements of a block, each with its place. -/
def blockElems (d : DenseDesc) (b : Nat) : List (Nat × Nat) :=
  ((upTo 16384).map (fun p => (b / blockCols d * 128 + p / 128, b % blockCols d * 128 + p % 128, p))).filterMap (fun x =>
    if x.1 < ownRows d ∧ x.2.1 < ownCols d then some (x.1 * ownCols d + x.2.1, x.2.2) else none)

/-! ### The two banks (R276) -/

/-- The engine of floor f writes bytes at a window address, into the bank of the next step, a packed block's through its cellar (R157, R276); the fault,
if any. -/
def bankPut (s : State) (f a : Nat) (bs : List Byte) : State × Nat := viewPut s (parityAddr s true a) bs (unitId 4 f)

/-- A lane or half-word of the bank in force, with its fault. -/
def bankNat (s : State) (a n : Nat) : Nat × Nat := let r := viewAt s (translate s a) n; (leNat r.1, r.2)
def bankLane (s : State) (a : Nat) : Lane × Nat := let r := bankNat s a 4; (BitVec.ofNat 32 r.1, r.2)

/-- Write several parts; the first fault. -/
def bankPuts (s : State) (f : Nat) (ps : List (Nat × List Byte)) : State × Nat :=
  ps.foldl (fun x p => let y := bankPut x.1 f p.1 p.2; (y.1, firstCode x.2 y.2)) (s, 0)

/-- What reading the lines of some window addresses leaves behind, each line once. -/
def noteLines (s : State) (f : Nat) (as : List Nat) : State :=
  ((as.map (fun a => translate s a / 64)).eraseDups).foldl (fun s l => noteView s (64 * l) 64 (unitId 4 f)) s

/-! ### One floor's engine -/

def getDen (s : State) (f : Nat) : DenseUnit := smGet {} s.den.units f
def setDen (s : State) (f : Nat) (u : DenseUnit) : State := { s with den := { s.den with units := smSet {} s.den.units f u } }
def getTensor (s : State) (f t : Nat) : DenseTensor := smGet {} (getDen s f).tensors t
def setTensor (s : State) (f t : Nat) (x : DenseTensor) : State :=
  let u := getDen s f
  setDen s f { u with tensors := smSet {} u.tensors t x }

/-- The engine becomes busy. -/
def denBusy (s : State) (f : Nat) : State :=
  let u := getDen s f
  if u.busyFrom.isSome then s else setDen s f { u with busyFrom := some s.now }

/-- Open a tensor's record in the step: its header must be readable and its TAG the step's (R277). None when the step stops. -/
def openTensor (s : State) (f : Nat) (d : DenseDesc) : State × Bool :=
  let x := getTensor s f d.tensor
  if x.opened then (s, true)
  else
    let h := fetchView s d.state 64 (unitId 4 f)
    if h.2.2 ≠ 0 then (updStop h.1 f codeStateFailed d.tensor 0, false)
    else if leNat (h.2.1.take 8) ≠ stepNo s then (updStop h.1 f codeStateStale d.tensor 0, false)
    else (setTensor (denBusy h.1 f) f d.tensor { x with opened := true }, true)

/-- The window addresses that an element's update reads under rules 0x01 and 0x02, or that a block rule reads of it. -/
def elemReads (d : DenseDesc) (p : Params) (e : Nat) : List Nat :=
  let b := d.state + offEma d
  [d.state + offHi + 2 * e, d.state + offRem d + 2 * e] ++
    (if blockRule d then [] else [d.state + offM d + 4 * e]) ++ (if d.rule = 2 then [d.state + offV d + 4 * e] else []) ++
    (if p.ema then [b + 2 * e, b + roundUp (2 * ownElems d) 64 + 2 * e] else [])

/-- What an update of an element leaves: the state, its fault, the new value, and the cases its operations met. -/
structure ElemRes where
  s : State
  code : Nat
  w : Lane
  cases : CaseCounts
  deriving DecidableEq, Repr

/-- The EMA of an element (R292): the parts to write, the read's fault, and the cases. -/
def emaParts (s : State) (d : DenseDesc) (p : Params) (e : Nat) (w : Lane) : List (Nat × List Byte) × Nat × CaseCounts :=
  if p.ema then
    let a := d.state + offEma d
    let b := a + roundUp (2 * ownElems d) 64
    let hi := bankNat s (a + 2 * e) 2
    let rem := bankNat s (b + 2 * e) 2
    let x := emaN p (joinW hi.1 rem.1) w {}
    let n := splitW x.1
    ([(a + 2 * e, leBytes 2 n.1), (b + 2 * e, leBytes 2 n.2)], firstCode hi.2 rem.2, x.2)
  else ([], 0, {})

/-- W of an element, and its fault. -/
def elemW (s : State) (d : DenseDesc) (e : Nat) : Lane × Nat :=
  let hi := bankNat s (d.state + offHi + 2 * e) 2
  let rem := bankNat s (d.state + offRem d + 2 * e) 2
  (joinW hi.1 rem.1, firstCode hi.2 rem.2)

/-- Write the new W of an element, its EMA, and other parts; `code` and `cases` are what forming them met. -/
def putW (s : State) (f : Nat) (d : DenseDesc) (p : Params) (e : Nat) (w : Lane) (parts : List (Nat × List Byte)) (code : Nat) (cases : CaseCounts) : ElemRes :=
  let n := splitW w
  let m := emaParts s d p e w
  let r := bankPuts s f (parts ++ [(d.state + offHi + 2 * e, leBytes 2 n.1), (d.state + offRem d + 2 * e, leBytes 2 n.2)] ++ m.1)
  { s := r.1, code := firstCode code (firstCode m.2.1 r.2), w := w, cases := cases.plus m.2.2 }

/-- Update one element under rules 0x01 and 0x02 (R285). -/
def elemUpdate (s : State) (f : Nat) (d : DenseDesc) (p : Params) (e : Nat) (g : Lane) : ElemRes :=
  let lr := learnRate p (stepNo s)
  let w := elemW s d e
  let am := d.state + offM d + 4 * e
  let m := bankLane s am
  if d.rule = 1 then
    let r := ruleSgd p lr m.1 w.1 g {}
    putW s f d p e r.1.2 [(am, leBytes 4 r.1.1.toNat)] (firstCode w.2 m.2) r.2
  else
    let av := d.state + offV d + 4 * e
    let v := bankLane s av
    let p1 := bankLane s (d.state + 8)
    let p2 := bankLane s (d.state + 12)
    let r := (do ruleAdam p lr (← mulN p1.1 p.b1) (← mulN p2.1 p.b2) m.1 v.1 w.1 g : Num (Lane × Lane × Lane)) {}
    putW s f d p e r.1.2.2 [(am, leBytes 4 r.1.1.toNat), (av, leBytes 4 r.1.2.1.toNat)]
      (firstCode (firstCode w.2 m.2) (firstCode v.2 (firstCode p1.2 p2.2))) r.2

/-- The first fault of a run of elements, with its element. -/
def firstFail (a : Option (Nat × Nat)) (e code : Nat) : Option (Nat × Nat) := if a.isSome ∨ code = 0 then a else some (e, code)

/-- The cases of floor f's engine on a tensor (R61). -/
def denseCases (s : State) (f tensor : Nat) (c : CaseCounts) : State := unitCases s c (numKey 4096 0 0 tensor) (unitId 4 f) [(tensor, 2)]

/-- A dense state read or write that failed stops the step (R299, R300). -/
def failDense (s : State) (f tensor : Nat) (a : Option (Nat × Nat)) : State :=
  match a with
  | some x => updStop s f codeStateFailed tensor x.1
  | none => s

/-- What a run of element updates accumulates. -/
structure RunAcc where
  s : State
  fail : Option (Nat × Nat) := none
  seen : UpdSeen := {}
  cases : CaseCounts := {}
  deriving DecidableEq, Repr

/-- Update a list of elements, each with its gradient; a fault stops the step (R299). -/
def elemUpdates (s : State) (f : Nat) (d : DenseDesc) (gs : List (Nat × Lane)) : State :=
  let p := paramsAt s d.params
  let s := noteLines s f ((gs.map (fun g => elemReads d p g.1)).flatten)
  let r := gs.foldl (fun (x : RunAcc) g =>
    let y := elemUpdate x.s f d p g.1 g.2
    { s := y.s, fail := firstFail x.fail g.1 y.code, seen := x.seen.note p.gmax g.2 y.w (d.tensor, elemRow d g.1, elemCol d g.1),
      cases := x.cases.plus y.cases }) ({ s := s } : RunAcc)
  let s := denseCases (updSeen r.s f r.seen) f d.tensor r.cases
  let u := getDen s f
  failDense (setDen s f { u with elements := u.elements + gs.length }) f d.tensor r.fail

/-- Write a record's header last, TAG after everything else (R277, R285). -/
def finishTensor (s : State) (f : Nat) (d : DenseDesc) : State :=
  let p := paramsAt s d.params
  let p1 := bankLane s (d.state + 8)
  let p2 := bankLane s (d.state + 12)
  let h := (do pure [← mulN p1.1 p.b1, ← mulN p2.1 p.b2] : Num (List Lane)) {}
  let x := if d.rule = 2 then h else ([p1.1, p2.1], {})
  let r := bankPuts s f [(d.state + 8, (x.1.map (fun l => leBytes 4 l.toNat)).flatten ++ zeros 48), (d.state, leBytes 8 (stepNo s + 1))]
  let s := denseCases (setTensor r.1 f d.tensor { getTensor r.1 f d.tensor with written := true }) f d.tensor x.2
  failDense s f d.tensor (firstFail none 0 (firstCode (firstCode p1.2 p2.2) r.2))

/-- Whether every block of a tensor has been processed. -/
def blocksDone (s : State) (f : Nat) (d : DenseDesc) : Bool := decide ((getTensor s f d.tensor).blocks.length = blockNum d)

/-- Blocks of a floor that hold a buffer: some of their gradient is here, or they wait for the block unit, and they are not processed. -/
def heldBlocks (u : DenseUnit) (ds : List DenseDesc) : List (Nat × Nat) :=
  let got := (u.tensors.map (fun t => match ds.find? (fun d => decide (d.tensor = t.1)) with
    | some d => if blockRule d then
        ((t.2.got.foldl (fun l e => setInsert (blockOf d e).1 l) []).filter (fun b => decide (b ∉ t.2.blocks))).map (fun b => (t.1, b)) else []
    | none => [])).flatten
  u.ready.foldl (fun l r => if (r.tensor, r.blk) ∈ l then l else l ++ [(r.tensor, r.blk)]) got

/-- Blocks that no slice reached take free buffers, in order, and go to the block unit (R282, R283). -/
def feedBlocks (s : State) (f : Nat) : State :=
  let u := getDen s f
  let free := 32 - (heldBlocks u (denseDescs s f)).length
  setDen s f { u with ready := u.ready ++ (u.unfed.take free).map (fun r => { r with since := s.now }), unfed := u.unfed.drop free }

/-- A tensor completes (R283): its elements without a slice are updated with +0. Its blocks not yet processed go to the block unit, one that no slice
reached when a buffer is free. -/
def completeTensor (s : State) (f : Nat) (d : DenseDesc) : State :=
  let o := openTensor (denBusy s f) f d
  if !o.2 then o.1
  else
    let s := setTensor o.1 f d.tensor { getTensor o.1 f d.tensor with complete := true }
    let x := getTensor s f d.tensor
    if blockRule d then
      let u := getDen s f
      let todo := ((upTo (blockNum d)).filter (fun b =>
        decide (b ∉ x.blocks) && !(u.ready.any (fun r => decide (r.tensor = d.tensor ∧ r.blk = b))))).map
          (fun b => ({ tensor := d.tensor, blk := b, since := s.now } : ReadyBlock))
      let begun (r : ReadyBlock) : Bool := x.got.any (fun e => decide ((blockOf d e).1 = r.blk))
      let s := setDen s f { u with ready := u.ready ++ todo.filter begun, unfed := u.unfed ++ todo.filter (fun r => !(begun r)) }
      if blocksDone s f d then finishTensor s f d else feedBlocks s f
    else
      let rest := (upTo (ownElems d)).filter (fun e => decide (e ∉ x.got))
      finishTensor (elemUpdates s f d (rest.map (fun e => (e, 0)))) f d

/-- A collective has delivered the last slice it owes the floor for a tensor. -/
def collDone (s : State) (f t : Nat) : State :=
  match denseDesc s f t with
  | none => s
  | some d =>
    let x := getTensor s f t
    let s := setTensor s f t { x with colls := x.colls + 1 }
    if x.colls + 1 = d.colls then completeTensor s f d else s

/-- Read the parameter block at an address for the step (R280); one that cannot be read stops the step, as dense state that cannot be read does (R299, log
152). The learning rate is computed once. -/
def latchParams (s : State) (f id a : Nat) : State :=
  if s.den.params.any (fun p => decide (p.1 = a)) then s
  else
    let x := fetchBytes s a 64 (unitId 4 f)
    let s := { x.1 with den := { x.1.den with params := x.1.den.params ++ [(a, x.2.1)] } }
    if x.2.2 = 0 then unitCases s (learnRateN (paramsOf x.2.1) (stepNo s) {}).2 (numKey 4096 0 0 id) (unitId 4 f) [(id, 2)]
    else updStop s f codeStateFailed id 0

/-- The release of the step's start barrier: the engines read the parameter blocks of their descriptors and of the valid tables (R280), and tensors that no
collective serves complete (R283). -/
def denseStart (s : State) : State :=
  let s := { s with den := { s.den with params := [] } }
  let s := (upTo 10).foldl (fun s f => (denseDescs s f).foldl (fun s d => latchParams s f d.tensor d.params) s) s
  let s := (validTables s).foldl (fun s t =>
    let a := (tableDesc s t).params
    latchParams s (rowCellar s a / 2) t a) s
  (upTo 10).foldl (fun s f => (denseDescs s f).foldl (fun s d => if d.colls = 0 then completeTensor s f d else s) s) s

/-! ### Slices (R281, R282) -/

/-- The coordinates of a slice's elements with their values (R267). -/
def sliceCells (q : Delivery) : List (Nat × Nat × Lane) :=
  let w := 8 * 2 ^ q.lg
  (q.vals.zipIdx).map (fun v => (8 * q.i + v.2 / w, w * q.j + v.2 % w, v.1))

def dropDelivery (s : State) (k : Nat) : State := { s with den := { s.den with queue := s.den.queue.eraseIdx k } }

/-- Put a slice's elements into block buffers; blocks that become whole are ready (R282). -/
def bufferSlice (s : State) (f : Nat) (d : DenseDesc) (es : List (Nat × Lane)) : State :=
  let x := getTensor s f d.tensor
  let x := { x with got := es.foldl (fun l e => setInsert e.1 l) x.got
                    grads := es.foldl (fun m e => let b := blockOf d e.1; smSet 0 m (b.1 * 16384 + b.2) e.2) x.grads }
  let s := setTensor s f d.tensor x
  let bs := es.foldl (fun l e => setInsert (blockOf d e.1).1 l) []
  let whole := bs.filter (fun b => (blockElems d b).all (fun e => decide (e.1 ∈ x.got)))
  let u := getDen s f
  setDen s f { u with ready := u.ready ++ whole.map (fun b => { tensor := d.tensor, blk := b, since := s.now }) }

/-- A slice meets its engine: applied or buffered; none while it waits for a block buffer. -/
def takeSlice (s : State) (q : Delivery) : Option State :=
  let f := q.floor
  match denseDesc s f q.tensor with
  | none => some (updStop s f codeSliceUnknown q.tensor 0)
  | some d =>
    let cells := sliceCells q
    let x := getTensor s f q.tensor
    let out := cells.any (fun c => decide (c.1 < d.k0 ∨ d.k1 ≤ c.1 ∨ c.2.1 < d.n0 ∨ d.n1 ≤ c.2.1))
    let es := cells.map (fun c => (elemOf d c.1 c.2.1, c.2.2))
    if out ∨ x.complete ∨ es.any (fun e => decide (e.1 ∈ x.got)) then some (updStop s f codeSliceUnknown q.tensor ((es.headD (0, 0)).1))
    else
      let held := heldBlocks (getDen s f) (denseDescs s f)
      let need := (es.foldl (fun l e => setInsert (blockOf d e.1).1 l) []).filter (fun b => decide ((q.tensor, b) ∉ held))
      if blockRule d ∧ 32 < held.length + need.length then none
      else
        let o := openTensor s f d
        if !o.2 then some o.1
        else if blockRule d then some (bufferSlice o.1 f d es)
        else
          let y := getTensor o.1 f q.tensor
          let s := setTensor o.1 f q.tensor { y with got := es.foldl (fun l e => setInsert e.1 l) y.got }
          some (elemUpdates s f d es)

/-- SLICE_DELIVER (R281): the k-th reduced slice under way reaches its owner's engine, after the earlier ones of its collective. A mark without values
follows the last slice of a collective whose last chunk is empty. -/
def execSliceDeliver (k : Nat) (s : State) : Host.Outcome State Fault Refusal :=
  match s.den.queue[k]? with
  | none => .next s
  | some q =>
    if s.now < q.at_ ∨ s.seq.stopped ∨ (s.den.queue.take k).any (fun p => decide (p.cid = q.cid)) then .next s
    else
      match (if q.vals.isEmpty then some s else takeSlice s q) with
      | none => .next { s with den := { s.den with queue := listSet s.den.queue k { q with waitFrom := some (q.waitFrom.getD s.now) } } }
      | some s' =>
        let u := getDen s' q.floor
        let s' := setDen s' q.floor { u with bufWait := u.bufWait + (match q.waitFrom with | some t => s.now - t | none => 0) }
        let s' := dropDelivery s' k
        .next (if q.last then collDone s' q.floor q.tensor else s')

/-! ### The block unit (R286, R287) -/

/-- Whether rule 0x04 recomputes its roots in the step. -/
def recomputes (p : Params) (n : Nat) : Bool := decide ((ruleT p n - 1) % Int.ofNat (max 1 p.period) = 0)

/-- C_blk (Table 11.4). -/
def blockCost (s : State) (d : DenseDesc) : Nat :=
  if d.rule = 3 then 8720 else if recomputes (paramsAt s d.params) (stepNo s) then 76816 else 3088

/-- A 128 × 128 matrix of the bank in force, and its fault. -/
def readMat (s : State) (a : Nat) : Mat × Nat :=
  let r := viewAt s (translate s a) 65536
  ((chunks 4 16385 r.1).map (fun b => BitVec.ofNat 32 (leNat b)), r.2)

def matBytes (m : Mat) : List Byte := (m.map (fun x => leBytes 4 x.toNat)).flatten

/-- What a block's rule gives: the new M, the step's direction, the factors to write, the fault of reading them, and the cases. -/
def blockResult (s : State) (d : DenseDesc) (p : Params) (b : Nat) (m g : Mat) : Mat × Mat × List (Nat × List Byte) × Nat × CaseCounts :=
  let fac (i : Nat) : Nat := d.state + offV d + 262144 * b + 65536 * i
  if d.rule = 3 then let r := ruleBom p m g {}; (r.1.1, r.1.2, [], 0, r.2)
  else
    let l := readMat s (fac 0)
    let rr := readMat s (fac 1)
    let ql := readMat s (fac 2)
    let qr := readMat s (fac 3)
    let y := ruleBkp p (recomputes p (stepNo s)) m l.1 rr.1 ql.1 qr.1 g {}
    (y.1.1, y.1.1, [(fac 0, matBytes y.1.2.1), (fac 1, matBytes y.1.2.2.1), (fac 2, matBytes y.1.2.2.2.1), (fac 3, matBytes y.1.2.2.2.2)],
      firstCode (firstCode l.2 rr.2) (firstCode ql.2 qr.2), y.2)

/-- Process one block. -/
def processBlock (s : State) (f : Nat) (d : DenseDesc) (b : Nat) : State :=
  let p := paramsAt s d.params
  let lr := learnRate p (stepNo s)
  let g : Mat := smGetList 0 (getTensor s f d.tensor).grads (b * 16384) 16384
  let cells := blockElems d b
  let am := d.state + offM d + 65536 * b
  let whole := 65536 * (if d.rule = 4 then 4 else 0)
  let s := noteView s (translate s am) 65536 (unitId 4 f)
  let s := noteView s (translate s (d.state + offV d + 262144 * b)) whole (unitId 4 f)
  let s := noteLines s f ((cells.map (fun c => elemReads d p c.1)).flatten)
  let m0 := readMat s am
  let inside : List Nat := cells.map (fun c => c.2)
  let m : Mat := (m0.1.zipIdx).map (fun v => if v.2 ∈ inside then v.1 else 0)
  let r := blockResult s d p b m g
  let w0 := bankPuts s f r.2.2.1
  let z := cells.foldl (fun (a : RunAcc) c =>
    let w := elemW a.s d c.1
    let w' := (do stepN p lr w.1 (← mulN p.oscale (r.2.1.getD c.2 0)) : Num Lane) {}
    let q := putW a.s f d p c.1 w'.1 [(am + 4 * c.2, leBytes 4 (r.1.getD c.2 0).toNat)] w.2 w'.2
    { s := q.s, fail := firstFail a.fail c.1 q.code, seen := a.seen.note p.gmax (g.getD c.2 0) w'.1 (d.tensor, elemRow d c.1, elemCol d c.1),
      cases := a.cases.plus q.cases })
    ({ s := w0.1, fail := firstFail none ((cells.headD (0, 0)).1) (firstCode (firstCode m0.2 r.2.2.2.1) w0.2), cases := r.2.2.2.2 } : RunAcc)
  let s := denseCases (updSeen z.s f z.seen) f d.tensor z.cases
  let x := getTensor s f d.tensor
  let s := setTensor s f d.tensor { x with blocks := setInsert b x.blocks, grads := smClear x.grads (b * 16384) 16384 }
  let u := getDen s f
  let s := setDen s f { u with elements := u.elements + cells.length, blocks := u.blocks + 1, blkFree := s.now,
                               ready := eraseFirst (fun r => decide (r.tensor = d.tensor ∧ r.blk = b)) u.ready }
  let s := feedBlocks (failDense s f d.tensor z.fail) f
  if (getTensor s f d.tensor).complete && blocksDone s f d then finishTensor s f d else s

/-- BLOCK_PROCESS_COMPLETE (R282): the block unit of a floor finishes the block at the head of its queue, C_blk cycles after it could begin. -/
def execBlockProcessComplete (floor : Nat) (s : State) : Host.Outcome State Fault Refusal :=
  let u := getDen s floor
  match u.ready with
  | [] => .next s
  | r :: _ =>
    match denseDesc s floor r.tensor with
    | none => .next s
    | some d => if s.now < max u.blkFree r.since + blockCost s d ∨ s.seq.stopped then .next s else .next (processBlock s floor d r.blk)

/-! ### The commit barrier (R278, R284) -/

/-- T_upd of a floor. -/
def tUpd (s : State) (f : Nat) : Nat :=
  let ds := denseDescs s f
  1000 + max (ceilDiv (ds.foldl (fun n d => n + ownElems d) 0) 16) (ds.foldl (fun n d => n + (if blockRule d then blockNum d * blockCost s d else 0)) 0)

/-- Whether every record of every floor's directory is written. -/
def denseReady (s : State) : Bool :=
  (upTo 10).all (fun f =>
    let ds := denseDescs s f
    ds.isEmpty || (ds.all (fun d => (getTensor s f d.tensor).written) && decide ((getDen s f).busyFrom.getD s.now + tUpd s f ≤ s.now)))

/-- UPD_STAT and UPD_TIME at a commit release; the engines are ready for the next step. -/
def commitDense (s : State) : State :=
  let cap (n w : Nat) : Nat := satTo (2 ^ w - 1) n
  let s := (upTo 10).foldl (fun s f =>
    let u := getDen s f
    let s := regPut (regPut s (rUpdStat f) 31 0 (cap u.elements 32)) (rUpdStat f) 47 32 (cap u.blocks 16)
    regPut (regPut s (rUpdTime f) 31 0 (cap (if u.busyFrom.isSome then tUpd s f else 0) 32)) (rUpdTime f) 63 32 (cap u.bufWait 32)) s
  { s with den := {} }

/-! ### Checks at load (R279) -/

/-- Whether a parity window holds `n` bytes from `a`. -/
def inWindow (s : State) (a n : Nat) : Bool :=
  (upTo 64).any (fun i =>
    let w := regGet s (rUpdPwin i)
    decide (granule * bits w 19 0 ≤ a) && decide (a + n ≤ granule * (bits w 19 0 + bits w 55 40)))

/-- Whether both banks of a record lie near floor f, or pinned there, in every 256-B granule (R272). -/
def onFloor (s : State) (f a n : Nat) : Bool :=
  let near (p : Nat) : Bool := match locate s p with
    | .stack => (match chanOf s p with | some (id, _) => decide (id / 64 = f) | none => false)
    | .pinned => decide (p % 2 ^ 40 / (64 * mib) / 2 = f)
    | _ => false
  let all (q : Nat → Nat) : Bool := (upTo (ceilDiv n 256)).all (fun i => near (q (a + 256 * i))) && near (q (a + n - 1))
  all (parityAddr s false) && all (parityAddr s true)

/-- One descriptor's own checks (R279), and those of its parameter block (R300). -/
def denseDescOk (s : State) (f step : Nat) (d : DenseDesc) : Bool :=
  let p := paramsAt s d.params
  let block (lo hi top : Nat) : Bool := decide (lo % 128 = 0) && (decide (hi % 128 = 0) || decide (hi = top))
  d.reserved && decide (1 ≤ d.rule ∧ d.rule ≤ 4) && decide (d.k0 < d.k1 ∧ d.k1 ≤ d.k ∧ d.n0 < d.n1 ∧ d.n1 ≤ d.n) &&
    (!(blockRule d) || (block d.k0 d.k1 d.k && block d.n0 d.n1 d.n)) && decide (p.t0 ≤ step) && paramsOk (paramBytes s d.params) d.rule &&
    decide (d.state % 64 = 0) && inWindow s d.state (recordBytes d p.ema) && onFloor s f d.state (recordBytes d p.ema)

/-- What fails the checks at load or at a restore, as its floor and its tensor or table (R279, R300): the first update descriptor of the module that is not
well formed for a first step, or whose tensor or record another has; else the first table whose parameter block is malformed. -/
def denseLoadBad (s : State) (step : Nat) : Option (Nat × Nat) :=
  let all := (((upTo 10).map (fun f => (denseDescs s f).map (fun d => (f, d)))).flatten).zipIdx
  let len (d : DenseDesc) : Nat := recordBytes d (paramsAt s d.params).ema
  match all.find? (fun x => !(denseDescOk s x.1.1 step x.1.2) || all.any (fun y => decide (y.2 < x.2) &&
    (decide (x.1.2.tensor = y.1.2.tensor) || overlaps x.1.2.state (len x.1.2) y.1.2.state (len y.1.2)))) with
  | some x => some (x.1.1, x.1.2.tensor)
  | none => ((validTables s).find? (fun t =>
      let d := tableDesc s t
      decide (d.rule ≠ 0) && !(paramsOk (paramBytes s d.params) d.rule))).map (fun t => (rowCellar s (tableDesc s t).params / 2, t))

/-- UPDATE_FORMAT, recorded for the floor and the tensor or table concerned (R300). -/
def denseRefused (s : State) (x : Nat × Nat) : State := raiseFault s (rUpdFault x.1) 16 codeUpdateFormat (unitId 4 x.1) [(x.2, 2), (0, 8)]

end Sys2Proof.Machine
end

