-- ==== Sys2Proof/Machine/Wire.lean ====
section
/-!
DEFINITION. The conversions of the fabric's send and receive paths (Table 2.7, R312, R360, R361).
-/
namespace Sys2Proof.Machine

/-- Whether the send path offers a pair of formats. -/
def sendOffers (sf wire : Nat) : Bool :=
  if sf = wire then decide (sf ≤ 8) else decide (sf ≤ 1) && decide (wire ≤ 5)

/-- Bytes of one element of a format, in half bytes. -/
def halfBytes (fmt : Nat) : Nat := if fmt = 0 ∨ fmt = 8 then 8 else if fmt = 1 then 4 else if fmt = 7 then 1 else 2

/-- Encode block by block, the last block filled with codes 0x00 (R39): the codes of all blocks, then one scale a block (log 31). -/
def blockWire (fmt b : Nat) (vs : List FV) : List Byte × CaseCounts :=
  let t : Fp8 := if fmt = 4 then .e4m3 else .e5m2
  let es := (chunks b (vs.length + 1) vs).map (fun v => encodeBlock t false (fun _ => 0) v)
  ((es.map (fun e => (e.2.1 ++ List.replicate (b - e.2.1.length) 0).map (BitVec.ofNat 8))).flatten ++ es.map (fun e => BitVec.ofNat 8 e.1), es.foldl (fun c e => c.add e.2.2) {})

/-- The send path: wire bytes, the exponent carried, and the cases met. Codes of a stream sent unchanged carry the stream's latched exponent
(Table 14.3). -/
def wireOut (s : State) (sf wire blk stream : Nat) (bs : List Byte) : State × List Byte × Int × CaseCounts :=
  if sf = wire then (s, bs, if wire = 2 ∨ wire = 3 then (getStream s stream).x else 0, {})
  else
    let vs := tensorVals sf bs
    if wire = 4 ∨ wire = 5 then let r := blockWire wire (blockSize blk) vs; (s, r.1, 0, r.2)
    else if wire = 2 ∨ wire = 3 then streamConvert s stream (if wire = 2 then .e4m3 else .e5m2) (vs.map (fun v => (toB32 v).1))
    else let r := wideCodes wire vs; (s, r.1, 0, r.2)

/-- The exact values of wire bytes; of block-scaled ones, all that their blocks hold. -/
def wireVals (wire blk : Nat) (exp : Int) (bs : List Byte) : List FV :=
  if wire = 4 ∨ wire = 5 then
    let b := blockSize blk
    let n := bs.length / (b + 1) * b
    let sc := bs.drop n
    ((bs.take n).zipIdx).map (fun c => decodeBlockElem (if wire = 4 then .e4m3 else .e5m2) ((sc.getD (c.2 / b) 0).toNat) c.1.toNat)
  else (tensorVals wire bs).map (fun v => if wire = 2 ∨ wire = 3 then fvScale v exp else v)

/-- Whether the receive path converts a wire format to a destination format. -/
def receiveOffers (wire dfmt : Nat) : Bool := if wire = dfmt then true else decide (2 ≤ wire) && decide (wire ≤ 5) && decide (dfmt ≤ 1)

/-- The receive path. -/
def wireIn (wire dfmt blk : Nat) (exp : Int) (bs : List Byte) : List Byte × CaseCounts :=
  if wire = dfmt then (bs, {}) else wideCodes dfmt (wireVals wire blk exp bs)

/-- Report the cases of a conversion on the fabric's paths of a floor (R61). -/
def fabricCases (s : State) (f key : Nat) (c : CaseCounts) (items : Items) : State := unitCases s c (2 ^ 59 + key) (unitId 5 f) items

end Sys2Proof.Machine
end

