-- ==== Sys2Proof/Machine/Collect.lean ====
section
/-!
DEFINITION. Groups and collectives (R302, R303, R312 to R320, R323 to R325).
-/
namespace Sys2Proof.Machine

def codeShardVersion : Nat := 0x0540
def codeCollFormat : Nat := 0x0541
def codeCollMismatch : Nat := 0x0542

/-- A fault of a collective (R328): the tensor, the rank, and the step. -/
def collFault (s : State) (f code tensor rk : Nat) : State := recordFault s code (unitId 5 f) [(tensor, 2), (rk, 2)]
def collStop (s : State) (f code tensor rk : Nat) : State := sendAbort (collFault s f code tensor rk) code

/-! ### Groups and shares (R302, R303) -/

/-- The ranks of a group in position order. -/
def groupRanks (g : GroupEnt) : List Nat :=
  ((upTo g.n2).map (fun b => (upTo g.n1).map (fun a => g.base + a * g.s1 + b * g.s2))).flatten

/-- count(p) and offset(p) of Q units over P positions. -/
def shareCount (q p i : Nat) : Nat := q / p + (if i < q % p then 1 else 0)
def shareOff (q p i : Nat) : Nat := i * (q / p) + min i (q % p)

/-! ### Descriptors (Table 12.5) -/

/-- Formats allowed by kind. -/
def wireAllowed (kind wire dest : Nat) : Bool :=
  match kind with
  | 1 => decide (wire ∈ [0, 1, 4, 5]) && decide (dest ≤ 1)
  | 2 => decide (wire ≤ 1) && decide (dest = 0)
  | 3 => decide (wire ≤ 3) && decide (dest = 0)
  | 4 => decide (wire ≤ 1) && decide (dest = 0)
  | 5 => decide (wire ∈ [0, 1, 4, 5]) && decide (dest ≤ 1)
  | _ => false

def reducing (kind : Nat) : Bool := decide (kind = 2 ∨ kind = 3 ∨ kind = 4)

/-- A descriptor as a collective of a room; none when R317 refuses it. -/
def collOf (s : State) (room tk : Nat) (reduce : Bool) (b : List Byte) : Option Coll :=
  let n (o k : Nat) : Nat := leNat ((b.drop o).take k)
  let im := s.seq.image
  let kind := n 1 1
  let q := n 0x20 4
  let list := n 0x38 8
  match im.groups[n 4 2]? with
  | none => none
  | some g =>
    let ms := groupRanks g
    let p := ms.length
    let counts := n 6 2
    let shareOk := if counts = 0xFFFF then decide (q % p = 0)
      else (match im.counts.find? (fun c => decide (c.id = counts)) with | some c => decide (c.q = q) && decide (c.group = n 4 2) | none => false)
    let moveOnly := decide (n 0x0C 4 = 0 ∧ n 0x10 8 = 0 ∧ n 0x18 8 = 0)
    if n 0 1 ≠ 0xC0 ∨ reduce ≠ reducing kind ∨ !(wireAllowed kind (n 8 1) (n 9 1)) ∨ 4 ≤ n 0x0A 1 ∨ n 0x0B 1 ≠ 0 ∨ n 0x34 4 ≠ 0 ∨ !shareOk ∨
        rank s ∉ ms ∨ (reducing kind ∧ !moveOnly) then none
    else
      let es := if reduce then (upTo q).map (fun i => let w := memNat s (list + 8 * i) 8; (nbits w 23 0, nbits w 47 24, nbits w 50 48)) else []
      some {
        room := room, tk := tk, floor := (getRoom s room).floor, kind := kind, tensor := n 2 2, group := n 4 2, counts := counts, wire := n 8 1,
        dest := n 9 1, blk := n 0x0A 1, unit := n 0x0C 4, src := n 0x10 8, dst := n 0x18 8, nslices := q, close := n 0x24 2, stream := n 0x26 2,
        foldRanks := n 0x30 4, slices := es, members := ms, pos := ms.idxOf (rank s), step := stepNo s }

def collSize (c : Coll) : Nat := c.members.length
def chunkOff (c : Coll) (i : Nat) : Nat := shareOff c.nslices (collSize c) i
def chunkCount (c : Coll) (i : Nat) : Nat := shareCount c.nslices (collSize c) i
def collId (c : Coll) : Nat := c.room * 64 + c.tk

def getColl (s : State) (id : Nat) : Option Coll := s.col.live.find? (fun c => decide (collId c = id))
def setColl (s : State) (c : Coll) : State :=
  { s with col := { s.col with live := s.col.live.map (fun x => if collId x = collId c then c else x) } }
def dropColl (s : State) (id : Nat) : State := { s with col := { s.col with live := s.col.live.filter (fun c => decide (collId c ≠ id)) } }

/-! ### Frames -/

/-- The arguments of a COLLECTIVE transfer (Table 14.4). -/
def collArgs (c : Coll) (round : Nat) : List Byte :=
  leBytes 1 c.kind ++ leBytes 1 c.blk ++ leBytes 2 c.tensor ++ leBytes 2 c.group ++ leBytes 2 c.counts ++ leBytes 4 c.nslices ++ leBytes 2 c.pos ++
    leBytes 2 round

def argNat (x : Transfer) (o k : Nat) : Nat := leNat ((x.args.drop o).take k)

/-- Send a frame of a round to a position. -/
def sendFrame (s : State) (c : Coll) (to_ round wire stamp : Nat) (exp : Int) (data : List Byte) : State :=
  sendXfer s { t := { mkTransfer s c.floor (c.members.getD to_ 0) c.floor 7 wire (ofSigned 8 exp) (collArgs c round) data with step := stamp } }

/-- Whether a frame agrees with a member's own descriptor (R320). -/
def frameAgrees (c : Coll) (x : Transfer) : Bool :=
  decide (argNat x 0 1 = c.kind) && decide (argNat x 6 2 = c.counts) && decide (argNat x 8 4 = c.nslices) &&
    decide (c.members[argNat x 12 2]? = some x.srank) && (decide (x.wire = c.wire) || (decide (c.kind = 4) && decide (collSize c ≤ argNat x 14 2)))

/-- Whether a frame is for a member: same floor, tensor and group, and not one it has. -/
def frameFor (c : Coll) (x : Transfer) : Bool :=
  decide (c.floor = x.dfloor ∧ c.tensor = argNat x 2 2 ∧ c.group = argNat x 4 2) && (reducing c.kind == reducing (argNat x 0 1)) &&
    decide (argNat x 14 2 ∉ c.used) && !(c.frames.any (fun f => decide (f.1 = argNat x 14 2)))

/-! ### Rings (R318) -/

/-- The lanes of a chunk that this member's room has formed, once they are all here. -/
def ownChunk (c : Coll) (i : Nat) : Option (List Lane) :=
  if chunkOff c i + chunkCount c i ≤ c.own.length then some (((c.own.drop (chunkOff c i)).take (chunkCount c i)).flatten) else none

def laneBytes (wire : Nat) (xs : List Lane) : List Byte × CaseCounts := if wire = 1 then wideCodes 1 (xs.map b32) else ((xs.map (fun x => leBytes 4 x.toNat)).flatten, {})
def lanesOf (wire blk : Nat) (exp : Int) (bs : List Byte) : List Lane := (wireVals wire blk exp bs).map (fun v => (toB32 v).1)

/-- The next position of the ring. -/
def nextPos (c : Coll) : Nat := (c.pos + 1) % collSize c

/-- Queue the slices of a chunk for the floor's engine; `done` when the collective owes it no more. An empty last chunk marks the end of an all-reduce; a
position that owes no slice gets nothing. -/
def deliverChunk (s : State) (c : Coll) (i at_ : Nat) (xs : List Lane) (done : Bool) : State :=
  let n := chunkCount c i
  let ds := (upTo n).foldl (fun (a : List Delivery × List Lane) k =>
    let e := c.slices.getD (chunkOff c i + k) (0, 0, 0)
    let w := 64 * 2 ^ e.2.2
    (a.1 ++ [{ cid := collId c, floor := c.floor, at_ := at_, tensor := c.tensor, i := e.1, j := e.2.1, lg := e.2.2, vals := a.2.take w,
               last := done && decide (k + 1 = n) }], a.2.drop w)) (([], xs) : List Delivery × List Lane)
  let ds := if done ∧ n = 0 ∧ c.kind = 4 then [{ cid := collId c, floor := c.floor, at_ := at_, tensor := c.tensor, i := 0, j := 0, lg := 0, vals := [], last := true }] else ds.1
  { s with den := { s.den with queue := s.den.queue ++ ds } }

/-- Send a chunk's partial or result of a round on to the next position, reporting what the wire format met. -/
def sendLanes (s : State) (c : Coll) (round wire : Nat) (xs : List Lane) : State :=
  let b := laneBytes wire xs
  let s := sendFrame (fabricCases s c.floor c.tensor b.2 [(c.tensor, 2)]) c (nextPos c) round wire (stepNo s) 0 b.1
  match getColl s (collId c) with
  | some c' => setColl s { c' with sent := c'.sent ++ [round] }
  | none => s

/-- Report the cases of a collective's sums. -/
def sumCases (s : State) (c : Coll) (n : CaseCounts) : State := fabricCases s c.floor c.tensor n [(c.tensor, 2), (c.stream, 2)]

/-- Use one frame of a ring, if what it needs is here. -/
def useFrame (s : State) (c : Coll) (f : Nat × Nat × Nat × Int × List Byte) : Option State :=
  let p := collSize c
  let r := f.1
  let mark (s : State) : State := match getColl s (collId c) with
    | some c' => setColl s { c' with frames := c'.frames.filter (fun g => decide (g.1 ≠ r)), used := c'.used ++ [r] }
    | none => s
  if r < p then
    let ch := (c.pos + 2 * p - 1 - r) % p
    match ownChunk c ch with
    | none => none
    | some own =>
      let sum := addsN (lanesOf c.wire c.blk f.2.2.2.1 f.2.2.2.2) own {}
      let xs := sum.1
      let s := sumCases s c sum.2
      if r = p - 1 then
        let s := deliverChunk (mark s) c ch s.now xs (decide (c.kind = 2 ∨ (c.used.filter (fun u => decide (p ≤ u))).length = p - 1))
        some (if c.kind = 4 then sendLanes s c p 0 xs else s)
      else some (sendLanes (mark s) c (r + 1) c.wire xs)
  else
    let h := r + 1 - p
    let ch := (c.pos + p - h) % p
    let xs := lanesOf 0 c.blk 0 f.2.2.2.2
    let full := decide (p - 1 ∈ c.used) && decide ((c.used.filter (fun u => decide (p ≤ u))).length = p - 2)
    let s := deliverChunk (mark s) c ch s.now xs full
    some (if h < p - 1 then sendLanes s c (r + 1) 0 xs else s)

/-- Everything a ring can do now. -/
def ringStep (s : State) (c : Coll) : Option State :=
  let p := collSize c
  let first : Option State :=
    if 1 ∈ c.sent then none
    else match ownChunk c ((c.pos + p - 1) % p) with
      | some xs => some (sendLanes s c 1 c.wire xs)
      | none => none
  match first with
  | some s' => some s'
  | none => (c.frames.filterMap (fun f => useFrame s c f)).head?

/-- A ring of one member delivers each slice as it is taken. -/
def soloStep (s : State) (c : Coll) : Option State :=
  let k := c.sent.length
  match c.own[k]? with
  | none => none
  | some xs =>
    let e := c.slices.getD k (0, 0, 0)
    let q : Delivery := { cid := collId c, floor := c.floor, at_ := s.now, tensor := c.tensor, i := e.1, j := e.2.1, lg := e.2.2, vals := xs,
                          last := decide (k + 1 = c.nslices) }
    some (setColl { s with den := { s.den with queue := s.den.queue ++ [q] } } { c with sent := c.sent ++ [k] })

/-! ### RS_DIRECT (R318, R323, R325) -/

/-- Send the chunk of an owner, or keep it here when this module is the owner. -/
def directStep (s : State) (c : Coll) : Option State :=
  match (upTo (collSize c)).find? (fun o => decide (o ∉ c.sent) && (ownChunk c o).isSome) with
  | none => none
  | some o =>
    let xs := (ownChunk c o).getD []
    let w := wireOut s 0 c.wire c.blk c.stream ((xs.map (fun x => leBytes 4 x.toNat)).flatten)
    let s := fabricCases w.1 c.floor c.tensor w.2.2.2 [(c.tensor, 2)]
    let c' := { c with sent := c.sent ++ [o] }
    let s := setColl s c'
    if o = c.pos then
      some { s with col := { s.col with partials := s.col.partials ++ [{
        floor := c.floor, tensor := c.tensor, group := c.group, pos := c.pos, rank := rank s, origin := c.step, counts := c.counts,
        nslices := c.nslices, wire := c.wire, exp := w.2.2.1, data := w.2.1 }] } }
    else some (sendFrame s c o 0 c.wire c.step w.2.2.1 w.2.1)

/-- One action of a reducing collective, if it has any. -/
def collStep (s : State) (c : Coll) : Option State :=
  if c.kind = 3 then directStep s c else if collSize c = 1 then soloStep s c else ringStep s c

/-- Run a collective as far as it goes. -/
def collRun (id : Nat) : Nat → State → State
  | 0, s => s
  | k + 1, s =>
    match getColl s id with
    | none => s
    | some c =>
      match (if reducing c.kind then collStep s c else none) with
      | some s' => collRun id k s'
      | none => s

/-- Whether a collective has nothing more to do. -/
def collOver (s : State) (c : Coll) : Bool :=
  let p := collSize c
  if c.kind = 3 then c.closed && decide (c.sent.length = p)
  else if reducing c.kind then
    (if p = 1 then decide (c.sent.length = c.nslices) else decide (c.used.length = (if c.kind = 4 then 2 * (p - 1) else p - 1)) && decide (1 ∈ c.sent))
  else (match (getRoom s c.room).ops.find? (fun o => decide (o.f.tk.toNat = c.tk)) with | some o => decide (o.left = 0) | none => true)

def collFuel (c : Coll) : Nat := 2 * collSize c + c.nslices + 2

/-- Run a collective and let go of it when it is over. -/
def collAdvance (s : State) (id : Nat) : State :=
  match getColl s id with
  | none => s
  | some c =>
    let s := collRun id (collFuel c) s
    match getColl s id with
    | some c' => if collOver s c' then dropColl s id else s
    | none => s

/-- The reducing collectives take what their rooms have drained (R269, R270); one with a slice that waits for a block buffer holds its room back (R282). -/
def collTake (s : State) : State :=
  s.col.live.foldl (fun s c =>
    if !(reducing c.kind) then s
    else
      match getColl s (collId c) with
      | none => s
      | some c =>
        let q := getRoom s c.room
        let waits := s.den.queue.any (fun d => decide (d.cid = collId c) && d.waitFrom.isSome)
        let n := if waits then 0 else min q.slices.length (c.nslices - c.own.length)
        if n = 0 then s
        else
          let s := modRoom s c.room (fun q => { q with slices := q.slices.drop n })
          let s := opLeft s c.room c.tk n
          collAdvance (setColl s { c with own := c.own ++ q.slices.take n }) (collId c)) s

/-- A partial is dropped: counted, and recorded (R323, R325). -/
def dropPartial (s : State) (f tensor rk : Nat) : State :=
  collFault { s with col := { s.col with dropped := s.col.dropped + 1 } } f codeFoldDropped tensor rk

/-- Whether a partial that arrives was already decided to be dropped: it would be three steps late, or its position was beyond FOLD_RANKS at a release since
it was formed (R323, R325). -/
def partialDropped (s : State) (f tensor group rk origin : Nat) : Bool :=
  s.col.decided.any (fun e => decide (e.floor = f ∧ e.tensor = tensor ∧ e.group = group) &&
    ((decide (e.step = origin + 2) && decide (rk ∈ e.absent)) || (decide (origin ≤ e.step) && decide (rk ∈ e.beyond))))

/-- The partials of a collective that its owner decides at a close release, in the order of R318. -/
def partialsOf (s : State) (c : Coll) : List Partial :=
  (s.col.partials.filter (fun p => decide (p.floor = c.floor ∧ p.tensor = c.tensor ∧ p.group = c.group))).mergeSort
    (fun a b => decide ([a.pos, a.origin] ≤ [b.pos, b.origin]))

/-- The release of the barrier that closes an RS_DIRECT: the owner sums what R323 applies, holds the rest, and drops what is too late or beyond
FOLD_RANKS. -/
def directClose (absent : List Nat) (s : State) (c : Coll) : State :=
  let ps := partialsOf s c
  let gone := (upTo (collSize c)).filter (fun i => decide (c.members.getD i 0 ∈ absent))
  let kept := gone.take c.foldRanks
  let drop (p : Partial) : Bool := decide (p.rank ∈ absent) && (decide (p.origin + 2 ≤ stepNo s) || decide (p.pos ∉ kept))
  let apply := ps.filter (fun p => decide (p.rank ∉ absent))
  let s := (ps.filter drop).foldl (fun s p => dropPartial s c.floor c.tensor p.rank) s
  let s := { s with col := { s.col with decided := (s.col.decided.filter (fun (e : DirectDecision) => decide (stepNo s < e.step + 3))) ++ [({
    floor := c.floor, tensor := c.tensor, group := c.group, step := stepNo s, absent := absent,
    beyond := (gone.drop c.foldRanks).map (fun i => c.members.getD i 0) } : DirectDecision)] } }
  let s := { s with col := { s.col with partials := s.col.partials.filter (fun p => decide (p ∉ apply) && !(decide (p ∈ ps) && drop p)) } }
  let n := ((upTo (chunkCount c c.pos)).map (fun k => 64 * 2 ^ (c.slices.getD (chunkOff c c.pos + k) (0, 0, 0)).2.2)).sum
  let sum := (apply.foldlM (fun a p => addsN a (lanesOf p.wire c.blk p.exp p.data)) (List.replicate n (0 : Lane)) : Num (List Lane)) {}
  let s := deliverChunk (sumCases s c sum.2) c c.pos (s.now + ceilDiv (collSize c * (4 * n)) 128) sum.1 true
  collAdvance (setColl s { c with closed := true }) (collId c)

/-- Every RS_DIRECT that a released barrier closes. -/
def closeDirect (s : State) (sync : Nat) (absent : List Nat) : State :=
  s.col.live.foldl (fun s c => if c.kind = 3 ∧ c.close = sync ∧ !c.closed then
    (match getColl s (collId c) with | some c => directClose absent s c | none => s) else s) s

/-- Whether partials sent are not yet acknowledged (R324). -/
def partialsOut (s : State) : Bool := s.fab.out.any (fun x => decide (x.t.kind = 7) && decide (argNat x.t 0 1 = 3))

/-! ### Shares (R312 to R315) -/

/-- Bytes of a position's share in DEST format, and where it lies in the room store. -/
def shareBytes (c : Coll) (i : Nat) : Nat := chunkCount c i * c.unit
def shareAt (c : Coll) (i : Nat) : Nat := c.dst + chunkOff c i * c.unit

/-- Write a decoded share into the member's store; one share fewer is awaited. -/
def putShare (s : State) (c : Coll) (i : Nat) (exp : Int) (bs : List Byte) : State :=
  let w := wireIn c.wire c.dest c.blk exp bs
  let s := fabricCases s c.floor c.tensor w.2 [(c.tensor, 2)]
  let x := writeSide s (unitId 5 c.floor) (.own c.room (shareAt c i)) 0 (w.1.take (shareBytes c i))
  let s := x.2.foldl (fun s e => failPart s c.room c.tk e.2 (runOf (ceilDiv (shareBytes c i) 64) e.1)) x.1
  opLeft s c.room c.tk 1

/-- A share comes round the ring: it is written, and passed on unchanged. -/
def takeShare (s : State) (c : Coll) (f : Nat × Nat × Nat × Int × List Byte) : State :=
  let p := collSize c
  let s := setColl s { c with frames := c.frames.filter (fun g => decide (g.1 ≠ f.1)), used := c.used ++ [f.1] }
  let s := putShare s c ((c.pos + p - f.1) % p) f.2.2.2.1 f.2.2.2.2
  if f.1 + 1 < p then sendFrame s c (nextPos c) (f.1 + 1) c.wire f.2.2.1 f.2.2.2.1 f.2.2.2.2 else s

/-- The step stamp of a source address (R314): the TAG of the dense record it lies in, else the step in progress. -/
def shareStamp (s : State) (a : Nat) : Nat :=
  match (upTo 10).findSome? (fun f => (denseDescs s f).find? (fun d =>
      decide (d.state ≤ a) && decide (a < d.state + recordBytes d (paramsAt s d.params).ema))) with
  | some d => memNat s d.state 8
  | none => stepNo s

/-- A frame reaches its member. -/
def frameIn (s : State) (c : Coll) (x : Transfer) : State :=
  if !(frameAgrees c x) then collStop s c.floor codeCollMismatch c.tensor x.srank
  else
    let f := (argNat x 14 2, argNat x 12 2, x.step, toSigned 8 x.exp, x.data)
    if reducing c.kind then collAdvance (setColl s { c with frames := c.frames ++ [f] }) (collId c)
    else collAdvance (takeShare s c f) (collId c)

/-- The frames that came before a member was bound or armed reach it now. -/
def takeEarly (s : State) (id : Nat) : State :=
  let es := s.col.early
  es.foldl (fun s x =>
    match getColl s id with
    | some c =>
      if frameFor c x then frameIn { s with col := { s.col with early := eraseFirst (fun y => decide (y = x)) s.col.early } } c x else s
    | none => s) s

/-- Whether a partial of the step that came before its owner was bound agrees with the owner's descriptor (R320). -/
def partialAgrees (s : State) (c : Coll) (p : Partial) : Bool :=
  !(decide (p.floor = c.floor ∧ p.tensor = c.tensor ∧ p.group = c.group ∧ p.origin = stepNo s)) ||
    (decide (c.kind = 3 ∧ p.counts = c.counts ∧ p.nslices = c.nslices ∧ p.wire = c.wire) && decide (c.members[p.pos]? = some p.rank))

/-- The absent list of the barrier that closes an RS_DIRECT, when it has released without this module, whose rooms still run its phase (R131). -/
def closedWithout (s : State) (c : Coll) : Option (List Nat) :=
  match s.seq.barrier.notice with
  | some n => if c.kind = 3 ∧ s.seq.barrier.released = true ∧ s.seq.sync = c.close then some n.absent else none
  | none => none

/-- An MREDUCE reaches the collectives (R316). -/
def submitReduce (s : State) (room : Nat) (o : Elastic) : State :=
  let tk := o.f.tk.toNat
  let f := (getRoom s room).floor
  let x := fetchDescriptor s room o.src (unitId 5 f)
  let s := x.1
  if x.2.2 ≠ 0 then failOp s room tk x.2.2
  else
  match collOf s room tk true x.2.1 with
  | none => failOp (collFault s f codeCollFormat (leNat ((x.2.1.drop 2).take 2)) (rank s)) room tk codeCollFormat
  | some c =>
    let s := modOp s room tk (fun o => { o with accepted := true, left := c.nslices })
    let s := { s with col := { s.col with live := s.col.live ++ [c] } }
    let s := match s.col.partials.find? (fun p => !(partialAgrees s c p)) with
      | some p => collStop s f codeCollMismatch c.tensor p.rank
      | none => s
    let s := match closedWithout s c with | some absent => directClose absent s c | none => s
    collAdvance (takeEarly s (collId c)) (collId c)

/-- An MRECV whose descriptor is a collective's arms its member (R316, R317). -/
def armShares (s : State) (room tk : Nat) (b : List Byte) : State :=
  match collOf s room tk false b with
  | none => failOp (collFault s (getRoom s room).floor codeCollFormat (leNat ((b.drop 2).take 2)) (rank s)) room tk codeCollFormat
  | some c =>
    let s := modOp s room tk (fun o => { o with accepted := true, left := collSize c })
    let s := { s with col := { s.col with live := s.col.live ++ [c] } }
    let n := shareBytes c c.pos
    let x := readSide s (unitId 5 c.floor) (.dev c.src) 0 n
    let s := x.2.2.foldl (fun s e => failPart s room tk e.2 (runOf (ceilDiv n 64) e.1)) x.1
    let w := wireOut s c.dest c.wire c.blk 0 x.2.1
    let s := fabricCases w.1 c.floor c.tensor w.2.2.2 [(c.tensor, 2)]
    let s := putShare s c c.pos w.2.2.1 w.2.1
    let s := if collSize c = 1 then s
      else sendFrame s c (nextPos c) 1 c.wire (if c.kind = 1 then shareStamp s c.src else stepNo s) w.2.2.1 w.2.1
    collAdvance (takeEarly s (collId c)) (collId c)

/-- COLLECTIVE_RECEIVE (R318): a member receives a collective transfer: it forwards, sums, writes or keeps it. -/
def execCollectiveReceive (x : Transfer) (s : State) : Host.Outcome State Fault Refusal :=
  if x.kind ≠ 7 then .next s
  else
    .next (deliver s x (fun s =>
      if argNat x 0 1 = 1 ∧ x.step ≠ stepNo s then (collStop s x.dfloor codeShardVersion (argNat x 2 2) x.srank, some stDone)
      else if argNat x 0 1 = 3 then
        let bad := s.col.live.any (fun c => decide (c.floor = x.dfloor ∧ c.tensor = argNat x 2 2 ∧ c.group = argNat x 4 2) && reducing c.kind && !(frameAgrees c x))
        if bad then (collStop s x.dfloor codeCollMismatch (argNat x 2 2) x.srank, some stDone)
        else if partialDropped s x.dfloor (argNat x 2 2) (argNat x 4 2) x.srank x.step then
          (dropPartial s x.dfloor (argNat x 2 2) x.srank, some stDone)
        else
          ({ s with col := { s.col with partials := s.col.partials ++ [{
            floor := x.dfloor, tensor := argNat x 2 2, group := argNat x 4 2, pos := argNat x 12 2, rank := x.srank, origin := x.step,
            counts := argNat x 6 2, nslices := argNat x 8 4, wire := x.wire, exp := toSigned 8 x.exp, data := x.data }] } }, some stDone)
      else
        match s.col.live.find? (fun c => frameFor c x) with
        | some c => (frameIn s c x, some stDone)
        | none => ({ s with col := { s.col with early := s.col.early ++ [x] } }, some stDone)))

/-- A frame that no collective of the step has taken when the module arrives at its commit barrier: its sender's descriptor agrees with none of this
member's (R320, log 157). -/
def strayFrame (s : State) : Option Transfer := s.col.early.find? (fun x => decide (x.step = stepNo s))

/-- The module stops on a stray frame. -/
def strayStop (s : State) (x : Transfer) : State :=
  collStop { s with col := { s.col with early := [] } } x.dfloor codeCollMismatch (argNat x 2 2) x.srank

/-- At a commit release the step's collectives are over. -/
def commitColls (s : State) : State := { s with col := { s.col with live := s.col.live.filter (fun c => decide (c.kind = 3) && !(collOver s c)), early := [] } }

end Sys2Proof.Machine
end

