-- ==== Sys2Proof/Machine/Sends.lean ====
section
/-!
DEFINITION. Sends, receives and peer writes (R360 to R363), acknowledgements, resends and transfer ids (R358, R359).
-/
namespace Sys2Proof.Machine

/-! ### The source's side (R359, R360) -/

/-- What becomes of a transfer that fails (R359): an MSEND's part fails, and every other kind stops the step. -/
def xferFails (s : State) (x : Xfer) (code : Nat) : State :=
  let s := fabFault s code x.link [(x.t.drank, 2), (x.t.kind, 1)]
  if x.t.kind = 1 ∨ x.t.kind = 2 then
    (match x.owner with
    | some (room, tk) => modOp s room tk (fun o => { o with left := 0, fault := firstCode o.fault code, parts := allParts })
    | none => s)
  else sendAbort s code

/-- The fault that a STATUS names (R359). -/
def statusCode (st : Nat) : Nat :=
  if st = stDenied then codePeerDenied else if st = stUnarmed then codeUnarmed else if st = stOverrun then codeOverrun else codeFabricDesc

/-- The transfer of a source floor with an XID that waits for its acknowledgement. -/
def outXfer (s : State) (f xid : Nat) : Option Xfer := s.fab.out.find? (fun x => decide (x.t.sfloor = f ∧ x.t.xid = xid) && !x.waiting)

def dropXfer (s : State) (f xid : Nat) : State :=
  { s with fab := { s.fab with out := s.fab.out.filter (fun x => x.waiting || !(decide (x.t.sfloor = f ∧ x.t.xid = xid))) } }

/-- One tuple of an acknowledgement flit: rank, floor, XID, STATUS (R358). -/
def ackOne (s : State) (a : Nat × Nat × Nat × Nat) : State :=
  if a.1 ≠ rank s then s
  else
    match outXfer s a.2.1 a.2.2.1 with
    | none => s
    | some x =>
      let s := dropXfer s a.2.1 a.2.2.1
      if a.2.2.2 = 0 then (match x.owner with | some (room, tk) => opLeft s room tk 1 | none => s)
      else xferFails s x (statusCode a.2.2.2)

/-- Whether a fabric descriptor is well formed (R360, Table 14.5). -/
def sendDescOk (s : State) (b : List Byte) : Bool :=
  let n (o k : Nat) : Nat := leNat ((b.drop o).take k)
  (decide (n 0 1 = 0xA1) || decide (n 0 1 = 0xA2)) && decide (n 1 1 ≤ 1) && decide (n 2 2 < s.seq.image.modules) && decide (n 4 1 < 10) &&
    sendOffers (n 5 1) (n 6 1) && decide (n 7 1 < 4) && decide (n 0x10 4 ≤ 2 ^ 24) && decide (n 0x10 4 % 64 = 0) &&
    (b.drop 0x20).all (fun x => decide (x = 0))

/-- Submit an MSEND (R360): its descriptor is checked, its source read and converted, and one transfer sent. -/
def submitSend (s : State) (room : Nat) (o : Elastic) : State :=
  let f := (getRoom s room).floor
  let tk := o.f.tk.toNat
  let b := fetchDescriptor s room o.src (unitId 5 f)
  let s := b.1
  let n (k w : Nat) : Nat := leNat ((b.2.1.drop k).take w)
  if b.2.2 ≠ 0 then failOp s room tk b.2.2
  else if !(sendDescOk s b.2.1) then failOp (fabFault s codeFabricDesc (5 * f) [(n 2 2, 2), (room, 2)]) room tk codeFabricDesc
  else
    let s := modOp s room tk (fun o => { o with accepted := true, left := 1 })
    let len := n 0x10 4
    let r := readSide s (unitId 5 f) (if n 1 1 = 1 then .dev (n 8 8) else .own room (n 8 8)) 0 len
    let s := r.2.2.foldl (fun s e => failPart s room tk e.2 (runOf (ceilDiv len 64) e.1)) r.1
    let w := wireOut s (n 5 1) (n 6 1) (n 7 1) (n 0x16 2) r.2.1
    let s := fabricCases w.1 f room w.2.2.2 [(room, 2), (n 2 2, 2)]
    let kind := if n 0 1 = 0xA1 then 1 else 2
    let args := if kind = 1 then leBytes 2 (n 0x14 2) ++ leBytes 1 (n 7 1) else leBytes 8 (n 0x18 8) ++ leBytes 1 (n 7 1)
    sendXfer s { t := mkTransfer s f (n 2 2) (n 4 1) kind (n 6 1) (ofSigned 8 w.2.2.1) args w.2.1, owner := some (room, tk) }

/-! ### The destination's side (R361, R363) -/

/-- Whether a receive descriptor is well formed (R361, Table 14.6). -/
def recvDescOk (b : List Byte) : Bool :=
  let n (o k : Nat) : Nat := leNat ((b.drop o).take k)
  decide (n 2 2 < 4096) && decide (n 6 1 ≤ 1) && decide (n 0x10 4 % 64 = 0)

def slotAt (s : State) (f slot : Nat) : Option RecvSlot := smGet none s.fab.slots (f * 4096 + slot)
def setSlot (s : State) (f slot : Nat) (v : Option RecvSlot) : State :=
  { s with fab := { s.fab with slots := smSet none s.fab.slots (f * 4096 + slot) v } }

/-- Submit an MRECV (R317, R361): it arms a receive slot, or a member of a collective. -/
def submitRecv (s : State) (room : Nat) (o : Elastic) : State :=
  let f := (getRoom s room).floor
  let tk := o.f.tk.toNat
  let b := fetchDescriptor s room o.src (unitId 5 f)
  let s := b.1
  let n (k w : Nat) : Nat := leNat ((b.2.1.drop k).take w)
  if b.2.2 ≠ 0 then failOp s room tk b.2.2
  else if n 0 1 = 0xC0 then armShares s room tk b.2.1
  else if n 0 1 ≠ 0xA0 ∨ recvDescOk b.2.1 = false ∨ (n 0x10 4 ≠ 0 ∧ (slotAt s f (n 2 2)).isSome = true) then
    failOp (fabFault s codeFabricDesc (5 * f) [(n 4 2, 2), (room, 2)]) room tk codeFabricDesc
  else if n 0x10 4 = 0 then modOp s room tk (fun o => { o with kind := .done 0 0 })
  else
    let s := modOp s room tk (fun o => { o with accepted := true, left := 1 })
    setSlot s f (n 2 2) (some {
      room := room, tk := tk, dev := decide (n 1 1 % 2 = 1), srank := n 4 2, dfmt := n 6 1, dst := n 8 8, len := n 0x10 4, at_ := s.now })

/-- A SEND meets its receive slot (R361). A slot armed in the same cycle is seen unarmed (R375). -/
def receiveSend (s : State) (x : Transfer) : State × Option Nat :=
  let slot := argNat x 0 2
  let at_ := [(x.srank, 2), (slot, 2)]
  match (if slot < 4096 then slotAt s x.dfloor slot else none) with
  | none => (fabFault s codeUnarmed (5 * x.dfloor) at_, some stUnarmed)
  | some r =>
    if s.now ≤ r.at_ then (fabFault s codeUnarmed (5 * x.dfloor) at_, some stUnarmed)
    else if r.srank ≠ 0xFFFF ∧ r.srank ≠ x.srank then (fabFault s codePeerDenied (5 * x.dfloor) at_, some stDenied)
    else if receiveOffers x.wire r.dfmt = false then (s, some stFormat)
    else
      let w := wireIn x.wire r.dfmt (argNat x 2 1) (toSigned 8 x.exp) x.data
      if r.len < w.1.length then (fabFault s codeOverrun (5 * x.dfloor) at_, some stOverrun)
      else
        let s := fabricCases s x.dfloor r.room w.2 [(r.room, 2), (x.srank, 2)]
        let y := writeSide s (unitId 5 x.dfloor) (if r.dev then .dev r.dst else .own r.room r.dst) 0 w.1
        let s := y.2.foldl (fun s e => failPart s r.room r.tk e.2 (runOf (ceilDiv w.1.length 64) e.1)) y.1
        (opLeft (setSlot s x.dfloor slot none) r.room r.tk 1, some stDone)

/-- Whether the lines that a SEND is to be written to wait (R180). -/
def sendWaits (s : State) (x : Transfer) : Bool :=
  match slotAt s x.dfloor (argNat x 0 2) with
  | some r => r.dev && accessWaits s r.dst r.len
  | none => false

/-- SEND_RECEIVE: every flit of a SEND has arrived at its destination. -/
def execSendReceive (x : Transfer) (s : State) : Host.Outcome State Fault Refusal :=
  if x.kind ≠ 1 then .next s else .next (deliverUnless (sendWaits s x) s x (fun s => receiveSend s x))

/-- Whether permission entry `i` admits a source rank's write of `n` bytes at `a` (R363). -/
def permits (s : State) (rk a n i : Nat) : Bool :=
  let base := regBits s (rFabPermA i) 63 12 * 4096
  let b := regGet s (rFabPermB i)
  decide (bits b 23 0 ≠ 0) && decide (base ≤ a) && decide (a + n ≤ base + bits b 23 0 * 4096) && decide (bits b 39 24 ≤ rk) && decide (rk ≤ bits b 55 40)

/-- PEER_WRITE_RECEIVE (R363): admitted by one entry, the data land unchanged; otherwise nothing is written. -/
def execPeerWriteReceive (x : Transfer) (s : State) : Host.Outcome State Fault Refusal :=
  if x.kind ≠ 2 then .next s
  else
    .next (deliverUnless (accessWaits s (argNat x 0 8) x.data.length) s x (fun s =>
      let a := argNat x 0 8
      if (upTo 64).any (permits s x.srank a x.data.length) then (noteWritten (sendBytes s a x.data (unitId 5 x.dfloor)).1 a x.data.length, some stDone)
      else (fabFault s codePeerDenied (5 * x.dfloor) [(x.srank, 2), (a, 8)], some stDenied)))

/-- Whether the device memory that a fabric request reads as it starts waits for a channel that retrains (R180) or for the commit release (R291): an
MSEND's source, a data-moving collective's own share, a reduction's slice list. -/
def fabricWaits (s : State) (room : Nat) (o : Elastic) : Bool :=
  let b := (roomDescriptor s room o.src).1
  let n (k w : Nat) : Nat := leNat ((b.drop k).take w)
  let reads (a len : Nat) : Bool := accessWaits s a len || shardHeld s a len
  match o.kind with
  | .msend => decide (n 1 1 = 1) && sendDescOk s b && reads (n 8 8) (n 0x10 4)
  | .mrecv =>
    if n 0 1 ≠ 0xC0 then false
    else match collOf s room o.f.tk.toNat false b with | some c => reads c.src (shareBytes c c.pos) | none => false
  | .mreduce => reads (n 0x38 8) (8 * n 0x20 4)
  | _ => false

/-! ### Acknowledgements, resends and XIDs (R358) -/

/-- ACK_RECEIVE (R358): an acknowledgement flit's tuples of (rank, floor, XID, STATUS). -/
def execAckReceive (acks : List (Nat × Nat × Nat × Nat)) (s : State) : Host.Outcome State Fault Refusal := .next (acks.foldl ackOne s)

/-- E2E_TIMEOUT (R358, R359): a transfer unacknowledged for the timeout is sent again whole, or is unreachable. -/
def execE2eTimeout (floor xid : Nat) (s : State) : Host.Outcome State Fault Refusal :=
  match outXfer s floor xid with
  | none => .next s
  | some x =>
    if s.now < x.lastSent + e2eTimeout s then .next s
    else if x.tries ≤ regBits s rFabE2e 18 16 then
      let y := putOnLink s { x with tries := x.tries + 1 }
      .next (pumpLink { s with fab := { s.fab with out := modifyFirst (fun z => decide (z = x)) (fun _ => y) s.fab.out } } y.link)
    else .next (xferFails (dropXfer s floor xid) x codeUnreachable)

/-- XID_RELEASE (R358): (RETRIES + 1) × TIMEOUT cycles after a transfer's first send its XID may serve again, and a transfer that waits for
one is sent. -/
def execXidRelease (floor xid : Nat) (s : State) : Host.Outcome State Fault Refusal :=
  let k := floor * 16384 + xid
  let free := smGet 0 s.fab.xids k
  if 16384 ≤ xid ∨ free = 0 ∨ s.now < free ∨ (outXfer s floor xid).isSome then .next s
  else
    let s := { s with fab := { s.fab with xids := smSet 0 s.fab.xids k 0, done := s.fab.done.filter (fun d => decide (s.now < d.expiry)) } }
    match s.fab.out.find? (fun x => x.waiting && decide (x.t.sfloor = floor)) with
    | none => .next s
    | some x =>
      let r := startXfer s x
      .next (pumpLink { r.1 with fab := { r.1.fab with out := modifyFirst (fun z => decide (z = x)) (fun _ => r.2) r.1.fab.out } } r.2.link)

end Sys2Proof.Machine
end

