-- ==== Sys2Proof/Machine/Sessions.lean ====
section
/-!
DEFINITION. Host sessions (R377 to R384, R389 to R398): keys, RDMA under them, doorbells, command slots and completion records, notices; and the
RoCE queue pairs they use (R371, R372, R374).
-/
namespace Sys2Proof.Machine

def codeTorn : Nat := 0x0601
def codeDoorbell : Nat := 0x0602
def codeCommandFormat : Nat := 0x0603
def codeCommandRefused : Nat := 0x0604
def codeWindowRange : Nat := 0x0605
def codeStagingLocked : Nat := 0x0606
def codeBatchFormat : Nat := 0x0607
def codeUndelivered : Nat := 0x0608
def codeDetached : Nat := 0x0609
def codePlacement : Nat := 0x060A
def codePorchDown : Nat := 0x0620
def codeRetryOut : Nat := 0x0621
def codeNoKey : Nat := 0x0920

def getSess (s : State) (k : Nat) : Session := smGet {} s.por.sessions k
def modSess (s : State) (k : Nat) (g : Session → Session) : State :=
  { s with por := { s.por with sessions := smModify {} s.por.sessions k g } }
def getQueue (s : State) (q : Nat) : Queue := smGet {} s.por.queues q
def setQueue (s : State) (q : Nat) (v : Queue) : State := { s with por := { s.por with queues := smSet {} s.por.queues q v } }
def getQp (s : State) (n : Nat) : Option Qp := smGet none s.por.qps n
def setQp (s : State) (n : Nat) (v : Option Qp) : State := { s with por := { s.por with qps := smSet none s.por.qps n v } }
def porchOut (s : State) (m : PorchOut) : State := { s with por := { s.por with out := s.por.out ++ [m] } }

/-- WIN_SESS.STATE: 0 CLOSED, 1 OPEN, 2 DETACHED; and ROLE: 0 FEEDER, 1 CONTROL, 2 OBSERVER (R377). -/
def sessState (s : State) (k : Nat) : Nat := regBits s (rWinSess k) 1 0
def sessRole (s : State) (k : Nat) : Nat := regBits s (rWinSess k) 3 2
def sessGen (s : State) (k : Nat) : Nat := regBits s (rWinSess k) 31 16

/-- A fault of a session (R402). -/
def winFault (s : State) (slot code : Nat) (items : Items) : State :=
  let s := if regBits s rWinFault 22 22 = 0 then
    regPut (regPut (regPut s rWinFault 15 0 code) rWinFault 21 16 slot) rWinFault 22 22 1 else s
  recordFault s code (unitId 7 slot) items

/-- A fault of a queue (R402), with the command or doorbell value concerned. -/
def lbxFault (s : State) (q code v : Nat) : State :=
  let s := if regBits s (rLbxFault q) 16 16 = 0 then
    regPut (regPut (regPut s (rLbxFault q) 15 0 code) (rLbxFault q) 63 32 v) (rLbxFault q) 16 16 1 else s
  recordFault s code (unitId 8 q) [(q, 2), (v % 2 ^ 32, 4)]

/-- A fault of a port. -/
def prcFault (s : State) (p code : Nat) (items : Items) : State := raiseFault s (rPrcFault p) 16 code (unitId 6 p) items

/-! ### Notices (R397, R398) -/

def lbxGet (s : State) (va n : Nat) : List Byte := smGetList 0 s.por.lbx va n
def lbxPut (s : State) (va : Nat) (bs : List Byte) : State := { s with por := { s.por with lbx := smSetList 0 s.por.lbx va bs } }

def noticeVa (k n : Nat) : Nat := 0x200000 + k * 0x4000 + (n % 256) * 64

/-- The notice region of a session (R380). -/
def noticeRegion (s : State) (k : Nat) : Option Region := (getSess s k).regions.find? (fun r => decide (r.purpose = 1))

/-- A request goes out on a QP, which waits for its acknowledgement from the first it has not seen acknowledged. -/
def qpSends (s : State) (n host : Nat) (bs : List Byte) : State :=
  match getQp s n with
  | some q => porchOut (setQp s n (some { q with sentAt := some (q.sentAt.getD s.now) })) (.write n host bs)
  | none => s

/-- Form a notice for a session that is not CLOSED: in its device ring, and, for an OPEN session with a notice region, its first host write. -/
def sendNotice (s : State) (k kind a0 a1 : Nat) : State :=
  if sessState s k = 0 then s
  else
    let n := regBits s (rWinNotice k) 47 0
    let body := leBytes 8 n ++ leBytes 2 kind ++ leBytes 2 (sessGen s k) ++ zeros 4 ++ leBytes 8 (stepNo s) ++ leBytes 8 a0 ++ leBytes 8 a1 ++ zeros 23
    let s := lbxPut s (noticeVa k n) (body ++ leBytes 1 ((n / 256) % 255 + 1))
    let s := regPut s (rWinNotice k) 47 0 (n + 1)
    match noticeRegion s k, (getSess s k).qps.head? with
    | some r, some qp =>
      if sessState s k = 1 then
        modSess (qpSends s qp (r.host + (n % (r.len / 64)) * 64) body) k (fun e => { e with writes := e.writes ++ [(n, false)] })
      else s
    | _, _ => s

/-- Send a notice to every session of the given roles that is not CLOSED. -/
def noticeRoles (s : State) (roles : List Nat) (kind a0 a1 : Nat) : State :=
  ((upTo 64).filter (fun k => decide (sessRole s k ∈ roles))).foldl (fun s k => sendNotice s k kind a0 a1) s

/-- Notices whose writes fail (R398). -/
def undeliver (s : State) (k : Nat) : State :=
  let ws := (getSess s k).writes
  let s := ws.foldl (fun s w => winFault (regCount s (rWinNotice k) 63 48 1) k codeUndelivered [(w.1, 8)]) s
  modSess s k (fun e => { e with writes := [] })

/-- NOTICE_WRITE_ACK (R398): the acknowledgement of a notice's first write issues the write of its MARK, and that of the second delivers it. -/
def execNoticeWriteAck (slot nseq : Nat) (s : State) : Host.Outcome State Fault Refusal :=
  match (getSess s slot).writes.find? (fun w => decide (w.1 = nseq)), noticeRegion s slot, (getSess s slot).qps.head? with
  | some w, some r, some qp =>
    let others := (getSess s slot).writes.filter (fun v => decide (v.1 ≠ nseq))
    let s := (match getQp s qp with
      | some q => setQp s qp (some { q with tries := 0, rnr := false, sentAt := if others.isEmpty && w.2 then none else some s.now })
      | none => s)
    if w.2 then .next (modSess s slot (fun e => { e with writes := others }))
    else
      let m := r.len / 64
      let s := qpSends s qp (r.host + (nseq % m) * 64 + 0x3F) (leBytes 1 ((nseq / m) % 255 + 1))
      .next (modSess s slot (fun e => { e with writes := e.writes.map (fun v => if v.1 = nseq then (nseq, true) else v) }))
  | _, _, _ => .next s

/-! ### Sessions that detach (R381) -/

/-- A session's QP enters the error state: an OPEN session becomes DETACHED. -/
def qpError (s : State) (n : Nat) : State :=
  match getQp s n with
  | none => s
  | some q =>
    if q.err then s
    else
      let s := setQp s n (some { q with err := true, sentAt := none })
      if sessState s q.slot = 1 then undeliver (winFault (regPut s (rWinSess q.slot) 1 0 2) q.slot codeDetached [(n, 4)]) q.slot else s

/-- A request that is answered with a NAK (R371, R379, R383). -/
def nakQp (s : State) (n slot kind : Nat) : State := qpError (porchOut (regCount s (rWinStat slot) 47 32 1) (.nak n kind)) n

/-- A NAK Remote Access Error, recorded as WINDOW_RANGE. -/
def rangeNak (s : State) (n slot va : Nat) : State := nakQp (winFault s slot codeWindowRange [(n, 4), (va, 8)]) n slot 2

/-! ### Queues: completion records (R395, R396) -/

def qC (s : State) (q : Nat) : Nat := regBits s (rLbxPtr q) 31 0
def qP (s : State) (q : Nat) : Nat := regBits s (rLbxPtr q) 63 32
def qDone (s : State) (q : Nat) : Nat := regBits s (rLbxCq q) 31 0
def qH (s : State) (q : Nat) : Nat := regBits s (rLbxCq q) 63 32
/-- 0 idle, 1 running, 2 stopped. -/
def qState (s : State) (q : Nat) : Nat := regBits s (rLbxOwner q) 8 7
def setQState (s : State) (q v : Nat) : State := regPut s (rLbxOwner q) 8 7 v
def qOwner (s : State) (q : Nat) : Nat := regBits s (rLbxOwner q) 5 0
def qOwned (s : State) (q : Nat) : Bool := decide (regBits s (rLbxOwner q) 6 6 = 1)

/-- `b` counted forward from `a`, modulo 2^32. -/
def ahead (a b : Nat) : Nat := (b + 2 ^ 32 - a) % 2 ^ 32

/-- The layout of Table 15.6. `status` 0 is done. -/
def completionRecord (seq status op tag result detail : Nat) : List Byte :=
  leBytes 4 seq ++ leBytes 2 status ++ leBytes 2 op ++ leBytes 8 tag ++ leBytes 8 result ++ leBytes 4 detail ++ zeros 3 ++
    leBytes 1 ((seq / 256) % 254 + 1)

/-- A field of a command slot (Table 15.5). -/
def cmdNat (c : List Byte) (off n : Nat) : Nat := leNat ((c.drop off).take n)

/-- A queue is freed (R378, R381). -/
def freeQueue (s : State) (q : Nat) : State := regSet (setQueue s q {}) (rLbxOwner q) 0

/-- The running command of queue `q` ends: its record is written, the queue is idle, and a COMPLETION notice goes out when asked for. The
management channel's reply is the record and `extra`. -/
def finish (s : State) (q status result detail : Nat) (extra : List Byte := []) : State :=
  match (getQueue s q).cmd with
  | none => s
  | some c =>
    let seq := qDone s q
    let r := completionRecord seq status (cmdNat c 0 2) (cmdNat c 8 8) result detail
    let s := if q = 16 then { s with por := { s.por with mgmtReply := r ++ extra ++ s.por.challenge } } else lbxPut s (0x80000 + q * 0x2000 + (seq % 256) * 32) r
    let s := regPut s (rLbxCq q) 31 0 (seq + 1)
    let fr := (getQueue s q).freeing
    let s := setQState (setQueue s q { getQueue s q with cmd := none, next := none, freeing := false }) q 0
    let s := regCount s (rLbxStat q) 31 0 1
    let s := if q ≠ 16 ∧ cmdNat c 2 1 % 2 = 1 then sendNotice s (qOwner s q) 4 q seq else s
    if fr then freeQueue s q else s

/-- The running command fails: the fault is recorded, and nothing else changes. -/
def failCmd (s : State) (q code : Nat) (detail : Nat := 0) : State := finish (lbxFault s q code (qDone s q)) q code 0 detail

/-- The opcodes of Table 15.7. -/
def opcodes : List Nat :=
  [0x0001, 0x0002, 0x0003, 0x0004, 0x0010, 0x0011, 0x0012, 0x0013, 0x0020, 0x0021, 0x0030, 0x0031, 0x0032, 0x0033, 0x0034, 0x0035, 0x0040, 0x0041,
   0x0050, 0x0051]

/-- A queue takes a command. One whose opcode is reserved fails at once (R399). -/
def takeCmd (s : State) (q : Nat) (c : List Byte) : State :=
  let s := regPut s (rLbxPtr q) 31 0 (qC s q + 1)
  let s := setQState (setQueue s q { cmd := some c, torn := none }) q 1
  if decide (cmdNat c 0 2 ∈ opcodes) then s else failCmd s q codeCommandFormat

/-- The command in slot `C mod 256`, and whether its check passes (R391). -/
def slotCmd (s : State) (q : Nat) : List Byte × Bool :=
  let c := lbxGet s (q * 0x8000 + (qC s q % 256) * 0x80) 128
  (c, decide (crcFold ((sessGen s (qOwner s q)) <<< 48 + q <<< 32 + qC s q) (c.take 0x7C) = cmdNat c 0x7C 4))

/-- Whether a queue may read its next command (R393). -/
def mayConsume (s : State) (q : Nat) : Bool :=
  decide (q < 16) && qOwned s q && decide (qState s q = 0) && decide (qC s q ≠ qP s q) && decide (ahead (qH s q) (qC s q) < 256)

/-- COMMAND_CONSUME (R393): a queue reads its next slot; one that fails its check is read again. -/
def execCommandConsume (q : Nat) (s : State) : Host.Outcome State Fault Refusal :=
  if !(mayConsume s q) || (getQueue s q).torn.isSome then .next s
  else
    let c := slotCmd s q
    if c.2 then .next (takeCmd s q c.1) else .next (setQueue s q { getQueue s q with torn := some (0, s.now) })

/-- COMMAND_REREAD (R393): every 250 ns (325 cycles) a torn slot is read again, up to 8 times. -/
def execCommandReread (q : Nat) (s : State) : Host.Outcome State Fault Refusal :=
  match (getQueue s q).torn with
  | none => .next s
  | some (k, t) =>
    if !(mayConsume s q) then .next (setQueue s q { getQueue s q with torn := none })
    else if s.now < t + 325 then .next s
    else
      let c := slotCmd s q
      if c.2 then .next (takeCmd (regCount s (rLbxStat q) 47 32 1) q c.1)
      else if k + 1 < 8 then .next (setQueue s q { getQueue s q with torn := some (k + 1, s.now) })
      else
        let s := setQState (setQueue s q { getQueue s q with torn := none }) q 2
        .next (sendNotice (lbxFault (regCount s (rLbxStat q) 63 48 1) q codeTorn (qC s q)) (qOwner s q) 5 q (qC s q))

/-! ### Doorbells (R392) -/

def lbxOpen (s : State) : Bool := decide (regBits s rLbxCtrl 0 0 = 1)

/-- A PRODUCER value. -/
def ringProducer (s : State) (q v : Nat) : State :=
  if !(lbxOpen s) then s
  else if 2 ^ 31 ≤ ahead (qP s q) v then s
  else if 256 < ahead (qC s q) v then lbxFault s q codeDoorbell v
  else regPut s (rLbxPtr q) 63 32 v

/-- A RESUME value. -/
def ringResume (s : State) (q v : Nat) : State :=
  if !(lbxOpen s) ∨ qState s q ≠ 2 then s
  else if v = qC s q then setQState s q 0
  else lbxFault s q codeDoorbell v

/-- A CQ_CONSUMER value. -/
def ringCq (s : State) (q v : Nat) : State :=
  if !(lbxOpen s) then s
  else if ahead (qH s q) v ≤ ahead (qH s q) (qDone s q) then regPut s (rLbxCq q) 63 32 v
  else lbxFault s q codeDoorbell v

/-- PRODUCER_WRITE, RESUME_WRITE, CQ_CONSUMER_WRITE: single aligned 8-B doorbell writes to queue `q`. -/
def execProducerWrite (q v : Nat) (s : State) : Host.Outcome State Fault Refusal :=
  if 16 ≤ q ∨ qOwned s q = false then .next s else .next (ringProducer s q (v % 2 ^ 32))

def execResumeWrite (q v : Nat) (s : State) : Host.Outcome State Fault Refusal :=
  if 16 ≤ q ∨ qOwned s q = false then .next s else .next (ringResume s q (v % 2 ^ 32))

def execCqConsumerWrite (q v : Nat) (s : State) : Host.Outcome State Fault Refusal :=
  if 16 ≤ q ∨ qOwned s q = false then .next s else .next (ringCq s q (v % 2 ^ 32))

/-! ### RDMA (R379, R382, R383, R389, R390) -/

/-- Whether a port's frames reach its QPs: enabled, up, and with MACsec only when it is keyed (R373). -/
def portCarries (s : State) (p : Nat) : Bool :=
  decide (regBits s (rPrcCtrl p) 0 0 = 1) && decide (regBits s (rPrcStatus p) 0 0 = 1) &&
    (decide (regBits s (rPrcCtrl p) 5 5 = 0) || decide (regBits s (rPrcStatus p) 1 1 = 1))

/-- A packet marked CE sends a CNP to its QP's source, at most one per 50 µs, 65,000 cycles (R372). -/
def noteCe (s : State) (n : Nat) (ce : Bool) : State :=
  match getQp s n with
  | some q =>
    if ce && decide ((q.cnpAt.map (fun t => t + 65000)).getD 0 ≤ s.now) then porchOut (setQp s n (some { q with cnpAt := some s.now })) (.cnp n) else s
  | none => s

/-- The session of a QP that may be served, if any. -/
def qpSession (s : State) (n : Nat) : Option Nat :=
  match getQp s n with
  | some q => if q.err = false ∧ portCarries s q.port then some q.slot else none
  | none => none

/-- Whether `[a, a + n)` touches a locked staging slot of any session (R389). -/
def touchesLocked (s : State) (a n : Nat) : Bool :=
  (upTo 64).any (fun k =>
    let w := regGet s (rWinStageCtl k)
    decide (bits w 63 48 ≠ 0) && (upTo (bits w 28 24)).any (fun i =>
      let lo := regBits s (rWinStageBase k) 63 12 * 4096 + i * (bits w 23 0 * 4096)
      (bits w 63 48).testBit i && decide (a < lo + bits w 23 0 * 4096) && decide (lo < a + n)))

/-- The Window address of a request, when it lies in the Window and in the stack region. -/
def windowAddr (s : State) (k va n : Nat) : Option Nat :=
  let a := unit64 * regBits s (rWinBase k) 40 26 + va
  if va + n ≤ unit64 ∧ a + n ≤ stackBytes s then some a else none

/-- Place a Window write (R383, R389). -/
def windowWrite (s : State) (n k a : Nat) (bs : List Byte) : State :=
  if touchesLocked s a bs.length then
    let s := regCount s (rWinStat k) 63 48 1
    let s := if s.por.lockSeen then s else winFault { s with por := { s.por with lockSeen := true } } k codeStagingLocked [(a, 8)]
    porchOut s (.ack n)
  else porchOut (regCount (noteWritten (sendBytes s a bs (unitId 7 k)).1 a bs.length) (rWinStat k) 31 0 1) (.ack n)

/-- Whether session `k` owns queue `q` of the host's sixteen. -/
def ownsQueue (s : State) (k q : Nat) : Bool := decide (q < 16) && qOwned s q && decide (qOwner s q = k)

/-- A write under the Letterbox key (R390, R392). -/
def letterboxWrite (s : State) (n k va : Nat) (bs : List Byte) : State :=
  let q := va / 0x8000
  let d := (va - 0x100000) / 0x40
  if va < 0x80000 ∧ ownsQueue s k q ∧ va + bs.length ≤ (q + 1) * 0x8000 then porchOut (lbxPut s va bs) (.ack n)
  else if 0x100000 ≤ va ∧ va + bs.length ≤ 0x100400 ∧ ownsQueue s k d then
    let o := va % 0x40
    let v := leNat (bs.take 4)
    let s := if bs.length ≠ 8 ∨ va % 8 ≠ 0 ∨ 0x10 < o then (if lbxOpen s then lbxFault s d codeDoorbell v else s)
      else if o = 0 then ringProducer s d v
      else if o = 8 then ringResume s d v
      else ringCq s d v
    porchOut s (.ack n)
  else rangeNak s n k va


/-- STATE of queue `q` as the host reads it (Table 15.4). -/
def stateWord (s : State) (q : Nat) : List Byte :=
  leBytes 8 (qC s q + qState s q * 2 ^ 32 + (if qState s q = 2 then codeTorn * 2 ^ 48 else 0))

/-- What a read under the Letterbox key returns (R390). -/
def letterboxRead (s : State) (k va n : Nat) : Option (List Byte) :=
  let q := va / 0x8000
  let c := (va - 0x80000) / 0x2000
  let d := (va - 0x100000) / 0x40
  if va < 0x80000 ∧ ownsQueue s k q ∧ va + n ≤ (q + 1) * 0x8000 then some (lbxGet s va n)
  else if 0x80000 ≤ va ∧ va < 0x100000 ∧ ownsQueue s k c ∧ va + n ≤ 0x80000 + (c + 1) * 0x2000 then some (lbxGet s va n)
  else if 0x100000 ≤ va ∧ va < 0x100400 ∧ ownsQueue s k d ∧ va % 0x40 = 0x18 ∧ n ≤ 8 then some ((stateWord s d).take n)
  else if 0x200000 + k * 0x4000 ≤ va ∧ va + n ≤ 0x200000 + (k + 1) * 0x4000 then some (lbxGet s va n)
  else none

/-- The Window address of a request under its session's Window key. -/
def hostAddr (s : State) (k : Nat) (r : HostReq) : Option Nat :=
  if r.key = regBits s (rWinKeys k) 31 0 ∧ r.key ≠ 0 then windowAddr s k r.va r.n else none

/-- A SEND that reaches session `k` (R392): 128 B in slot format go to the session's lowest queue and ring its doorbell; any other SEND is invalid. -/
def takeSend (s : State) (k qp : Nat) (bs : List Byte) : State :=
  if bs.length ≠ 128 then nakQp s qp k 1
  else
    match (upTo 16).find? (ownsQueue s k) with
    | none => nakQp s qp k 1
    | some q =>
      if lbxOpen s then
        let seq := cmdNat bs 4 4
        porchOut (ringProducer (lbxPut s (q * 0x8000 + (seq % 256) * 0x80) bs) q ((seq + 1) % 2 ^ 32)) (.ack qp)
      else porchOut s (.ack qp)

/-- What a request of session `k` does (R379, R382, R383, R390, R392). -/
def hostRun (s : State) (k : Nat) (r : HostReq) : State :=
  if sessState s k ≠ 1 then s
  else if r.send then takeSend s k r.qp (r.bs.getD [])
  else
    match hostAddr s k r with
    | some a =>
      (match r.bs with
      | some bs => windowWrite s r.qp k a bs
      | none => let x := fetchBytes s a r.n (unitId 7 k); porchOut x.1 (.data r.qp x.2.1))
    | none =>
      if r.key = regBits s (rWinKeys k) 63 32 ∧ r.key ≠ 0 ∧ r.key ≠ regBits s (rWinKeys k) 31 0 then
        (match r.bs with
        | some bs => letterboxWrite s r.qp k r.va bs
        | none => (match letterboxRead s k r.va r.n with | some bs => porchOut s (.data r.qp bs) | none => rangeNak s r.qp k r.va))
      else rangeNak s r.qp k r.va

/-- Whether a request waits: for a channel that retrains (R180), for the commit release that ends the update window (R291), or behind an earlier request of
its QP that waits (R383). -/
def hostWaits (s : State) (k : Nat) (r : HostReq) : Bool :=
  s.por.held.any (fun h => decide (h.qp = r.qp)) ||
    !r.send && (match hostAddr s k r with
    | some a => accessWaits s a r.n || (r.bs.isNone && shardHeld s a r.n)
    | none => false)

/-- A request reaches the Porch, or is tried again. -/
def hostRequest (s : State) (r : HostReq) : State :=
  match qpSession s r.qp with
  | none => s
  | some k => if hostWaits s k r then { s with por := { s.por with held := s.por.held ++ [r] } } else hostRun s k r

/-- Requests that wait are tried again, oldest first. -/
def serveHost (s : State) : State :=
  s.por.held.foldl hostRequest { s with por := { s.por with held := [] } }

/-- RDMA_WRITE (R379, R382, R383): one packet under a key. -/
def execRdmaWrite (qp key va : Nat) (bs : List Byte) (ce : Bool) (s : State) : Host.Outcome State Fault Refusal :=
  .next (if (qpSession s qp).isNone then s
    else hostRequest (noteCe s qp ce) { qp := qp, key := key, va := va, n := bs.length, bs := some bs })

/-- RDMA_READ (R382, R390). -/
def execRdmaRead (qp key va n : Nat) (ce : Bool) (s : State) : Host.Outcome State Fault Refusal :=
  .next (if (qpSession s qp).isNone then s
    else hostRequest (noteCe s qp ce) { qp := qp, key := key, va := va, n := n, bs := none })

/-- ROCE_SEND (R383, R392): a SEND takes effect after every earlier request of its QP. -/
def execRoceSend (qp : Nat) (bs : List Byte) (ce : Bool) (s : State) : Host.Outcome State Fault Refusal :=
  .next (if (qpSession s qp).isNone then s
    else hostRequest (noteCe s qp ce) { qp := qp, key := 0, va := 0, n := bs.length, bs := some bs, send := true })

/-! ### Congestion, timeouts and errors of QPs (R371, R372, R374, R381) -/

/-- g of R372. -/
def ccG (s : State) (p : Nat) : Rat := 1 / (2 ^ (regBits s (rPrcCc p) 7 0) : Nat)

/-- CNP_RECEIVE (R372). -/
def execCnpReceive (qp : Nat) (s : State) : Host.Outcome State Fault Refusal :=
  match getQp s qp with
  | none => .next s
  | some q =>
    let g := ccG s q.port
    let low : Rat := ((regBits s (rPrcCc q.port) 47 32 * 1000 : Nat) : Rat)
    let s := regCount s (rPrcStat q.port) 47 32 1
    .next (setQp s qp (some {
      q with
      target := q.rate
      rate := max (q.rate * (1 - q.alpha / 2)) low
      alpha := (1 - g) * q.alpha + g
      cnt := 0
      ccAt := s.now }))

/-- CC_TIMER (R372): TIMER µs, 1,300 cycles each, without a CNP. -/
def execCcTimer (qp : Nat) (s : State) : Host.Outcome State Fault Refusal :=
  match getQp s qp with
  | none => .next s
  | some q =>
    if s.now < q.ccAt + 1300 * regBits s (rPrcCc q.port) 31 24 then .next s
    else
      let ai : Rat := ((regBits s (rPrcCc q.port) 23 8 : Nat) : Rat)
      let c := q.cnt + 1
      let t := if 5 < c then min (q.target + ai) 800000 else q.target
      .next (setQp s qp (some { q with alpha := (1 - ccG s q.port) * q.alpha, cnt := c, target := t, rate := (q.rate + t) / 2, ccAt := s.now }))

/-- ROCE_ACK_TIMEOUT (R371, R374): after 4.096 µs × 2^t, 5,324.8 × 2^t cycles, the QP sends again, until its retries run out. -/
def execRoceAckTimeout (qp : Nat) (s : State) : Host.Outcome State Fault Refusal :=
  match getQp s qp with
  | none => .next s
  | some q =>
    match q.sentAt with
    | none => .next s
    | some t =>
      if q.err ∨ 10 * s.now < 10 * t + 53248 * 2 ^ q.texp then .next s
      else if q.tries < q.retry then
        .next (porchOut (setQp (regCount s (rPrcStat q.port) 63 48 1) qp (some { q with tries := q.tries + 1, sentAt := some s.now })) (.resend qp))
      else .next (qpError (prcFault s q.port codeRetryOut [(qp, 4)]) qp)

/-- ROCE_NAK_RECEIVE (R371, R381): receiver-not-ready arms a retry; any other NAK puts the QP in the error state. -/
def execRoceNakReceive (qp : Nat) (rnr : Bool) (s : State) : Host.Outcome State Fault Refusal :=
  match getQp s qp with
  | none => .next s
  | some q =>
    if rnr ∧ q.tries < q.retry then
      .next (setQp s qp (some { q with rnr := true, tries := q.tries + 1, sentAt := q.sentAt.map (fun _ => s.now) }))
    else if rnr then .next (qpError (prcFault s q.port codeRetryOut [(qp, 4)]) qp)
    else .next (qpError s qp)

end Sys2Proof.Machine
end

