-- ==== Sys2Proof/Machine/Epochs.lean ====
section
/-!
DEFINITION. Checkpoint epochs (R403 to R410, R413, R414), the addresses of their content under the placement in force (R419), and the restoring of failed rows (R421).
-/
namespace Sys2Proof.Machine

/-! ### Settings (Table 16.8) -/

def fullEvery (s : State) : Nat := max 1 (regBits s rAttCtrl 28 21)
def rowLag (s : State) : Nat := max 2 (regBits s rAttCtrl 36 29)
def keepFull (s : State) : Nat := max 1 (regBits s rAttCtrl 40 37)

/-- An entry of the capture table (R404). -/
structure CapEnt where
  id : Nat
  cls : Nat
  addr : Nat
  len : Nat
  deriving DecidableEq, Repr

def captureTable (s : State) : List CapEnt :=
  (upTo (regBits s rAttCaptureN 15 0)).map (fun i =>
    let a := regBits s rAttCapture 63 6 * 64 + 32 * i
    { id := memNat s a 4, cls := memNat s (a + 4) 1, addr := memNat s (a + 8) 8, len := memNat s (a + 16) 8 })

/-- Where an allocation begins (R404): its placed address, or 0 for an ID the job does not place. -/
def allocBase (s : State) (id : Nat) : Nat := ((s.job.allocs.find? (fun a => decide (a.id = id))).map (fun a => a.addr)).getD 0

/-- A capture entry's content as records of at most 64 KiB, or none when a line of it is poisoned (R425, log 40). -/
def captureRange (s : State) (ty : Nat) (e : CapEnt) : Option (List AttRec) :=
  if (poisonMap s e.addr e.len).any (fun b => b) then none
  else some ((upTo (ceilDiv e.len chunkBytes)).map (fun i =>
    let n := min chunkBytes (e.len - i * chunkBytes)
    let a := e.addr + i * chunkBytes
    let bs := captureBytes s a n
    let pk := inPacked s a
    attRec s ty e.id (e.addr - allocBase s e.id + i * chunkBytes) (b2n pk) (if pk then atticBlocks (translate s a) bs else bs)))

def captureRanges (s : State) (ty cls : Nat) : Option (List AttRec) :=
  ((captureTable s).filter (fun e => decide (e.cls = cls))).foldl (fun acc e =>
    match acc, captureRange s ty e with
    | some l, some r => some (l ++ r)
    | _, _ => none) (some [])

/-- What reading the ranges of a class leaves behind. -/
def noteRanges (s : State) (cls : Nat) : State :=
  ((captureTable s).filter (fun e => decide (e.cls = cls))).foldl (fun t e => noteCapture t e.addr e.len) s

/-- Whether a range of a class waits for a channel that retrains (R180). -/
def rangesWait (s : State) (cls : Nat) : Bool := (captureTable s).any (fun e => decide (e.cls = cls) && accessWaits s e.addr e.len)

/-! ### Engine state and held contributions (Table 16.1, log 41) -/

/-- A list of ranks, after its length. -/
def rankBytes (l : List Nat) : List Byte := leBytes 2 l.length ++ (l.map (leBytes 2)).flatten

/-- The payload of EPOCH_BEGIN. -/
def engineBytes (s : State) : List Byte :=
  leBytes 8 s.att.captured ++ leBytes 8 (regGet s rSchSeed).toNat ++ leBytes 4 (epochPeriod s) ++ leBytes 1 (regBits s rSchStretch 20 16) ++
    leBytes 1 s.seq.tauNext ++ leBytes 2 s.cel.live.length ++ leBytes 2 s.seq.streams.length ++ zeros 2 ++ leBytes 4 s.job.allocs.length ++
    leBytes 4 s.att.pend.length ++ zeros 4 ++
    (s.cel.live.map (leBytes 2)).flatten ++
    (s.seq.streams.map (fun x => leBytes 2 x.1 ++ leBytes 2 (ofSigned 16 x.2.x) ++ leBytes 1 (b2n x.2.e5) ++ zeros 1)).flatten ++
    (s.job.allocs.map (fun a => leBytes 4 a.id ++ leBytes 8 a.addr)).flatten ++
    (s.att.pend.map (fun p => leBytes 2 p.table ++ leBytes 8 p.row ++ leBytes 8 p.step)).flatten ++
    (let ts := validTables s
     leBytes 4 ts.length ++ (ts.map (fun t => leBytes 2 t ++ ((upTo 4).map (fun v => leBytes 1 (verState s (tableDesc s t) v))).flatten)).flatten) ++
    leBytes 4 s.ldr.switched.length ++ (s.ldr.switched.map (fun w => leBytes 2 w.table ++ leBytes 8 w.step)).flatten ++
    leBytes 2 s.ldr.absents.length ++ (s.ldr.absents.map (fun x => leBytes 8 x.1 ++ rankBytes x.2)).flatten ++
    leBytes 2 s.col.decided.length ++ (s.col.decided.map (fun d =>
      leBytes 1 d.floor ++ leBytes 2 d.tensor ++ leBytes 2 d.group ++ leBytes 8 d.step ++ rankBytes d.absent ++ rankBytes d.beyond)).flatten

/-- A held partial's bytes. -/
def partialBytes (p : Partial) : List Byte :=
  leBytes 2 p.tensor ++ leBytes 2 p.group ++ leBytes 2 p.pos ++ leBytes 2 p.rank ++ leBytes 8 p.origin ++ leBytes 1 p.wire ++
    leBytes 2 p.counts ++ leBytes 2 p.nslices ++ leBytes 2 (ofSigned 16 p.exp) ++ leBytes 4 p.data.length ++ p.data

/-- A late transfer's bytes. -/
def lateBytes (t : Transfer) : List Byte :=
  leBytes 1 t.sfloor ++ leBytes 2 t.drank ++ leBytes 1 t.dfloor ++ leBytes 1 t.kind ++ leBytes 1 t.wire ++ leBytes 1 t.exp ++ leBytes 8 t.step ++
    t.args ++ leBytes 4 t.data.length ++ t.data

/-- The HELD records: each cellar's queue, each floor's partials, and the late contributions this source still owes (R326). -/
def heldRecords (s : State) : List AttRec :=
  let qs := (upTo 20).map (fun c => (c, (queueRecords s c).flatten))
  let ps := (upTo 10).map (fun f => (0x100 + f, ((s.col.partials.filter (fun p => decide (p.floor = f))).map partialBytes).flatten))
  let late := s.fab.out.filter (fun x => decide (x.t.kind = 5 ∨ x.t.kind = 7) && decide (x.t.step ≤ s.att.captured))
  ((qs ++ ps ++ [(0x200, (late.map (fun (x : Xfer) => lateBytes x.t)).flatten)]).filter (fun (p : Nat × List Byte) => !p.2.isEmpty)).map (fun (p : Nat × List Byte) => attRec s 6 p.1 0 0 p.2)

/-! ### An epoch's course -/

/-- The order of addresses. -/
def sortOwed (l : List Owed) : List Owed := l.mergeSort (fun a b => decide (a.addr ≤ b.addr))

/-- At the commit release of step n an epoch may begin (R403, R407): it takes the dirty map as its owed set and clears it. -/
def beginEpoch (s : State) (n : Nat) : State :=
  let p := epochPeriod s
  if p = 0 ∨ (n + 1) % p ≠ 0 then s
  else
    let num := (n + 1) / p
    let full := decide (num % fullEvery s = 0)
    let all := ((validTables s).map (shardChunks s)).flatten
    let owed := sortOwed (all.filter (fun o => full || decide (o.addr ∈ s.att.dirty) || decide (o.table ∈ s.att.whole)))
    let s := regPut s rAttEpoch 31 0 num
    { s with att := { s.att with
      active := true, captured := n, full := full, owed := owed, dirty := [], whole := [], patches := [], recs := [],
      shadowDone := false, denseDone := false, placed := 0 } }

/-- A step that stops abandons the epoch in progress (R425). -/
def abandonEpoch (s : State) : State :=
  if s.att.active then
    { regPut s rAttEpoch 31 0 0 with
      att := { s.att with active := false, owed := [], patches := [], recs := [], placed := 0 } }
  else s

/-- A capture meets a poisoned line in DENSE or PLAIN content (R425). -/
def captureFails (s : State) : State := sendAbort (attFault s codeCaptureFailed 7) codeCaptureFailed

/-- EPOCH_SHADOW_COPY_DONE (R405): engine state, PLAIN and HELD are in the shadow region. -/
def execEpochShadowCopyDone (s : State) : Host.Outcome State Fault Refusal :=
  if !s.att.active || s.att.shadowDone || rangesWait s 1 then .next s
  else
    match captureRanges s 2 1 with
    | none => .next (captureFails (noteRanges s 1))
    | some rs =>
      let s := noteRanges s 1
      .next { s with att := { s.att with shadowDone := true, recs := s.att.recs ++ [attRec s 1 0 0 0 (engineBytes s)] ++ rs ++ heldRecords s } }

/-- DENSE_COPY_DONE (R406): every DENSE bank is in the shadow region. -/
def execDenseCopyDone (s : State) : Host.Outcome State Fault Refusal :=
  if !s.att.active || !s.att.shadowDone || s.att.denseDone || decide (stepNo s ≠ s.att.captured + 1) || rangesWait s 0 then .next s
  else
    match captureRanges s 3 0 with
    | none => .next (captureFails (noteRanges s 0))
    | some rs =>
      let s := noteRanges s 0
      .next { s with att := { s.att with denseDone := true, recs := s.att.recs ++ rs } }

/-! ### Records (R413) and the export ring (R410) -/

/-- The bytes of a record: its header, CHECK included, its payload, and zeros to a multiple of 4 KiB. -/
def recordBytesOf (r : AttRec) : List Byte :=
  let head (check : Nat) : List Byte :=
    leBytes 2 r.ty ++ leBytes 2 r.flags ++ leBytes 4 r.body.length ++ leBytes 8 r.epoch ++ leBytes 8 r.step ++ leBytes 4 r.id ++ leBytes 2 r.rank ++
      zeros 2 ++ leBytes 8 r.off ++ leBytes 8 r.base ++ zeros 8 ++ leBytes 8 check
  let b := head (crc64 (leBytes 8 r.epoch ++ head 0 ++ r.body)) ++ r.body
  b ++ zeros (roundUp b.length 4096 - b.length)

def recordUnits (r : AttRec) : Nat := ceilDiv (64 + r.body.length) 4096

def expSize (s : State) : Nat := regBits s rAttExportCtl 23 0

/-- Place records in the export ring while they fit; a ring of size 0 takes none and holds none back (log 42). -/
def placeRecords : List AttRec → State → State
  | [], s => s
  | r :: rs, s =>
    let u := recordUnits r
    if expSize s = 0 then placeRecords rs { s with att := { s.att with placed := s.att.placed + 1 } }
    else if expSize s < s.att.expPlaced - s.att.expTaken + u + 1 then s
    else
      let head := regBits s rAttExportPtr 31 0
      let base := regBits s rAttExport 63 12 * 4096
      let s := ((chunks 4096 (u + 1) (recordBytesOf r)).zipIdx).foldl (fun s c =>
        (sendBytes s (base + ((head + c.2) % expSize s) * 4096) c.1 (unitId 9 0)).1) s
      let s := regPut s rAttExportPtr 31 0 ((head + u) % expSize s)
      let done := s.att.expPlaced + u
      placeRecords rs { s with att := { s.att with
        placed := s.att.placed + 1, expPlaced := done,
        exported := if r.ty = 8 then s.att.exported ++ [(done, r.epoch)] else s.att.exported } }

/-- The full epoch that an epoch builds on: the newest full one of its rank at or before it. -/
def chainBase (s : State) (num : Nat) (full : Bool) : Nat :=
  if full then num else (s.att.epochs.filter (fun e => e.full && decide (e.rank = rank s) && decide (e.num < num))).foldl (fun m e => max m e.num) 0

/-! ### Retention (R414) -/

/-- Bytes of an epoch's records as the ring holds them. -/
def epochBytes (e : Epoch) : Nat := e.recs.foldl (fun n r => n + recordUnits r * 4096) 0

/-- A segment's data capacity (R413). -/
def segBytes : Nat := 0x4000000

/-- The segments of the ring: those of the array after the superblocks, less the journal area's share (R413). -/
def ringSegs (s : State) : Nat :=
  let ds := members s
  let least := ds.foldl (fun m d => min m (regBits s (rDrvCap d) 47 0)) (2 ^ 48)
  let segs := (least - 256) * 4096 / unitBytes * unitBytes * dataUnits ds.length / segBytes
  if ds.isEmpty then 0 else segs - segs * satTo 100 (regBits s rAttScrub 39 32) / 100

/-- An array address `n` bytes into the ring from `pos`. -/
def ringAddr (s : State) (pos n : Nat) : Nat := if ringSegs s = 0 then pos + n else (pos + n) % (ringSegs s * segBytes)

/-- The segments that `n` bytes from an array address lie in. -/
def segsOf (ring pos n : Nat) : List Nat := (upTo (ceilDiv (pos % segBytes + n) segBytes)).map (fun i => (pos / segBytes + i) % ring)

/-- The records of an epoch with the array addresses they stand at. -/
def recPlaces (s : State) (pos : Nat) (rs : List AttRec) : List (Nat × AttRec) :=
  (rs.foldl (fun (a : Nat × List (Nat × AttRec)) r => (a.1 + recordUnits r * 4096, a.2 ++ [(ringAddr s pos a.1, r)])) (0, [])).2

/-- Whether every unit of a record can be read, by reconstruction where a drive has failed. -/
def recReadable (s : State) (p : Nat × AttRec) : Bool :=
  (upTo (recordUnits p.2)).all (fun i => addrReadable s (ringAddr s p.1 (4096 * i)))

/-- The newest epoch from which a row that failed in step f is restored: c + P ≤ f − 1, and the row not pending restore in it (R421). -/
def pendingIn (e : Epoch) (t row : Nat) : Bool :=
  match e.recs.find? (fun r => decide (r.ty = 1)) with
  | none => false
  | some r =>
    let n (o k : Nat) : Nat := leNat ((r.body.drop o).take k)
    let at_ := 40 + 2 * n 22 2 + 6 * n 24 2 + 12 * n 28 4
    (upTo (n 32 4)).any (fun i => decide (n (at_ + 18 * i) 2 = t) && decide (n (at_ + 18 * i + 2) 8 = row))

def rowSource (s : State) (p : PendRow) : Option Epoch :=
  (s.att.epochs.filter (fun e => decide (e.rank = rank s) && decide (e.step + epochPeriod s + 1 ≤ p.step) && !(pendingIn e p.table p.row))).foldl
    (fun m e => match m with | none => some e | some (x : Epoch) => if x.num < e.num then some e else some x) none

/-- Whether an epoch is retained. -/
def retained (s : State) (e : Epoch) : Bool :=
  let fulls := ((s.att.epochs.filter (fun x => x.full && decide (x.rank = e.rank))).map (fun x => x.num)).mergeSort (fun a b => decide (b ≤ a))
  let oldest := ((fulls.take (keepFull s)).getLast?).getD 0
  decide (oldest ≤ e.num) || s.att.pend.any (fun p => match rowSource s p with | some (x : Epoch) => decide (x.base ≤ e.num ∧ e.num ≤ x.num) | none => false)

/-- Before `n` bytes go into the ring, free retained full chains, oldest first, while a segment they would overwrite holds a retained epoch (R414). -/
def freeRing (n : Nat) : Nat → State → State
  | 0, s => s
  | k + 1, s =>
    let ring := ringSegs s
    let pos := s.att.ringHead
    let next := (segsOf ring pos n).drop (if pos % segBytes = 0 then 0 else 1)
    let meets (e : Epoch) : Bool := (segsOf ring e.pos (epochBytes e)).any (fun g => decide (g ∈ next))
    if ring = 0 ∨ (n ≤ ring * segBytes ∧ s.att.epochs.any meets = false) then s
    else
      let bases := (s.att.epochs.map (fun e => e.base)).mergeSort (fun a b => decide (a ≤ b))
      match bases.head?, bases.getLast? with
      | some b, some z =>
        if b = z then moduleFailure (attFault s codeAtticFull 7) codeAtticFull
        else freeRing n k (attFault { s with att := { s.att with epochs := s.att.epochs.filter (fun e => decide (e.base ≠ b)) } } codeAtticFull 7)
      | _, _ => moduleFailure (attFault s codeAtticFull 7) codeAtticFull

/-- Keep an epoch in the attic, at the ring's head: an earlier epoch of its number gives way, and what R414 no longer retains is freed. -/
def keepEpoch (s : State) (e : Epoch) : State :=
  let n := epochBytes e
  let s := { s with att := { s.att with epochs := s.att.epochs.filter (fun (x : Epoch) => !(decide (x.num = e.num ∧ x.rank = e.rank))) } }
  let s := freeRing n (s.att.epochs.length + 1) s
  let es := (s.att.epochs ++ [{ e with pos := s.att.ringHead }]).mergeSort (fun a b => decide (a.num ≤ b.num))
  let s := { s with att := { s.att with epochs := es, ringHead := ringAddr s s.att.ringHead n } }
  { s with att := { s.att with epochs := s.att.epochs.filter (retained s) } }

/-- Capture everything the epoch still owes, in ascending order. -/
def captureAll : Nat → State → State
  | 0, s => s
  | k + 1, s => match s.att.owed with | [] => s | o :: _ => captureAll k (captureChunk s o)

/-- Whether the attic takes writes: enough members are ONLINE for the array (Table 16.3). -/
def atticWrites (s : State) : Bool :=
  let ds := members s
  let up := ds.filter (fun d => decide (drvState s d = 1 ∨ drvState s d = 2))
  decide (0 < up.length) && decide (ds.length ≤ up.length + (if 1 < ds.length then 1 else 0))

/-- EPOCH_COMPLETE (R409, R410): the owed chunks are captured, the records and then EPOCH_END are in the attic and in the export ring. A full
export ring holds the epoch. -/
def execEpochComplete (s : State) : Host.Outcome State Fault Refusal :=
  if !s.att.active || !s.att.shadowDone || !s.att.denseDone || !(atticWrites s) || s.att.owed.any (fun o => accessWaits s o.addr o.len) then .next s
  else
    let num := regBits s rAttEpoch 31 0
    let s := captureAll s.att.owed.length s
    let base := chainBase s num s.att.full
    let s := if s.att.recs.any (fun r => decide (r.ty = 8)) then s
      else
        let list := ((recPlaces s s.att.ringHead s.att.recs).map (fun p => leBytes 8 p.1 ++ leBytes 4 p.2.ty ++ leBytes 4 p.2.id)).flatten
        { s with att := { s.att with recs := s.att.recs ++ [{ attRec s 8 0 0 0 list with base := base }] } }
    let s := placeRecords (s.att.recs.drop s.att.placed) s
    if s.att.placed < s.att.recs.length then .next s
    else
      let e : Epoch := { num := num, step := s.att.captured, rank := rank s, full := s.att.full, base := base, recs := s.att.recs }
      let s := keepEpoch s e
      let s := regPut (regPut s rAttEpoch 31 0 0) rAttLast 31 0 num
      .next (latchIrq { s with att := { s.att with active := false, patches := [], recs := [], placed := 0 } } 258)

/-- The step that an epoch of this rank captured. -/
def epochStep (s : State) (num : Nat) : Nat := ((s.att.epochs.find? (fun e => decide (e.num = num ∧ e.rank = rank s))).map (fun e => e.step)).getD 0

/-- EXPORT_TAIL_ADVANCE (R410): the storage host holds the records up to TAIL; the newest epoch whose EPOCH_END it holds is the replica, and
firmware journals each CHECKPOINT. A TAIL past the records placed is stored, and nothing new counts as consumed (log 140). -/
def execExportTailAdvance (tail : Nat) (s : State) : Host.Outcome State Fault Refusal :=
  let n := expSize s
  let old := regBits s rAttExportPtr 63 32
  if n = 0 then .next (regPut s rAttExportPtr 63 32 tail)
  else
    let taken := s.att.expTaken + (tail % n + n - old % n) % n
    let s := regPut s rAttExportPtr 63 32 tail
    if s.att.expPlaced < taken then .next s
    else
      let done := s.att.exported.filter (fun x => decide (x.1 ≤ taken))
      let s := match done.getLast? with | some x => regPut s rAttLast 63 32 x.2 | none => s
      let s := done.foldl (fun s x => journalAppend s 9 1 (epochStep s x.2) (leBytes 8 x.2 ++ zeros 8)) s
      .next { s with att := { s.att with
        expTaken := taken, exported := s.att.exported.filter (fun x => decide (taken < x.1)),
        epochs := s.att.epochs.map (fun e => if done.any (fun x => decide (x.2 = e.num)) && decide (e.rank = rank s) then { e with replica := true } else e) } }

/-! ### Holds of the checkpoint engine (R405, R406, R409) -/

/-- Whether the engine lets the module arrive at the start barrier of the step in progress. -/
def shadowReady (s : State) : Bool := !s.att.active || s.att.shadowDone

/-- Whether it lets the module arrive at the commit barrier of the step in progress. -/
def epochReady (s : State) : Bool :=
  !s.att.active || (s.att.denseDone && decide (stepNo s < s.att.captured + epochPeriod s))

/-! ### Restoring rows (R421) -/

/-- The epochs of a chain from its full epoch to `e`, oldest first. -/
def chainOf (s : State) (e : Epoch) : List Epoch :=
  (s.att.epochs.filter (fun (x : Epoch) => decide (x.rank = e.rank ∧ e.base ≤ x.num ∧ x.num ≤ e.num))).mergeSort (fun a b => decide (a.num ≤ b.num))

/-- The data bytes of a record, packed blocks unpacked (FLAGS PACKED), its poison bitmap apart: one bit a line (FLAGS POISON). None where a packed block is
malformed. -/
def recordData (r : AttRec) : Option (List Byte) :=
  let poison := r.flags / 2 % 2
  if r.flags % 2 = 1 then openBlocks (8 * poison) 0 (r.body.length / 64 + 1) r.body
  else some (if poison = 1 then r.body.take (r.body.length * 512 / 513) else r.body)

def chunkData (r : AttRec) : List Byte := (recordData r).getD []

/-- The payload of an epoch's EPOCH_BEGIN (log 41). -/
def beginBody (e : Epoch) : List Byte := ((e.recs.find? (fun r => decide (r.ty = 1))).map (fun r => r.body)).getD []

/-- The captured placement, as (allocation, address). -/
def beginAllocs (b : List Byte) : List (Nat × Nat) :=
  let off := 40 + 2 * fld b 22 2 + 6 * fld b 24 2
  (upTo (fld b 28 4)).map (fun i => (fld b (off + 12 * i) 4, fld b (off + 12 * i + 4) 8))

/-- A device address of the captured placement, translated to the one in force. -/
def rehome (s : State) (old : List (Nat × Nat)) (a : Nat) : Nat :=
  match old.find? (fun o =>
    let n := ((s.job.allocs.find? (fun e => decide (e.id = o.1))).map (fun e => e.len)).getD 0
    decide (o.2 ≤ a) && decide (a < o.2 + n)) with
  | some o => allocBase s o.1 + (a - o.2)
  | none => a

/-- Translate the 8-B address that memory holds at `a`. -/
def rehomeAt (s : State) (old : List (Nat × Nat)) (a : Nat) : State :=
  let v := memNat s a 8
  if rehome s old v = v then s else writeNat s a 8 (rehome s old v)

/-- The addresses in the table directory, version records, update directories and pack descriptors. -/
def rehomePlain (s : State) (old : List (Nat × Nat)) : State :=
  let b := translate s (regBits s rLdrTdir 63 6 * 64)
  let ts := ((s.mem.filter (fun c => decide (b ≤ c.1) && decide (c.1 < b + 64 * 65536))).map (fun c => (c.1 - b) / 64)).eraseDups
  let s := ts.foldl (fun s t =>
    let a := tableAddr s t
    let s := rehomeAt (rehomeAt (rehomeAt s old (a + 0x18)) old (a + 0x20)) old (a + 0x28)
    let d := tableDesc s t
    (upTo 4).foldl (fun s v =>
      if verState s d v = 0 then s
      else rehomeAt (rehomeAt (rehomeAt s old (verAddr d v + 0x10)) old (verAddr d v + 0x18)) old (verAddr d v + 0x20)) s) s
  let s := (upTo 10).foldl (fun s f => (dirAddrs s f).foldl (fun s a => rehomeAt (rehomeAt s old (a + 32)) old (a + 40)) s) s
  s.cel.packed.foldl (fun s a => rehomeAt (rehomeAt (rehomeAt s old a) old (a + 0x10)) old (a + 0x20)) s

/-- The state with an epoch's PLAIN content in place, its addresses under the placement in force (R419), to resolve a row under it (R421). -/
def plainView (s : State) (e : Epoch) : State :=
  rehomePlain ((e.recs.filter (fun r => decide (r.ty = 2))).foldl (fun s r => putBytes s (translate s (allocBase s r.id + r.off)) (chunkData r)) s)
    (beginAllocs (beginBody e))

/-- A row's captured bytes in a chain, by its table and offset in the shard: the newest capture of each of its chunks. -/
def chainRow (es : List Epoch) (t off n : Nat) : Option (List Byte) :=
  let rs := ((es.map (fun e => e.recs)).flatten.filter (fun r => decide (r.ty = 4 ∨ r.ty = 5) && decide (r.id = t))).reverse
  (upTo (ceilDiv n 64)).foldl (fun acc i =>
    match acc, rs.find? (fun r => decide (r.off ≤ off + 64 * i) && decide (off + 64 * i < r.off + (chunkData r).length)) with
    | some bs, some r => some (bs ++ ((chunkData r).drop (off + 64 * i - r.off)).take 64)
    | _, _ => none) (some [])

/-- The stored form that a pending row is given: from its epoch, or zeros when no epoch holds it. -/
def restoreForm (s : State) (p : PendRow) : List Byte :=
  let n := strideBytes (tableDesc s p.table)
  match rowSource s p with
  | none => zeros n
  | some e =>
    let v := plainView s e
    let d := tableDesc v p.table
    let m := rowMapOf v d
    let place := (resolveWith v [] true d m (curSlot v d) p.row).1
    if place.home ≠ rank s then zeros n
    else ((chainRow (chainOf s e) p.table (placeAddr v d m (curSlot v d) place - verShard v d (curSlot v d)) n).getD (zeros n)).take n

/-- At the release of step n's commit barrier each row whose lag is over is written whole at its home in force. -/
def restoreRows (s : State) (n : Nat) : State :=
  let due := s.att.pend.filter (fun p => decide (p.step + rowLag s ≤ n))
  let s := due.foldl (fun s p =>
    let d := tableDesc s p.table
    let m := rowMapOf s d
    let v := curSlot s d
    let place := resolve s d m v p.row
    if place.home ≠ rank s then s
    else
      let a := placeAddr s d m v place
      regCount (writeRow s (rowCellar s a / 2) d v a (restoreForm s p)) rAttRows 31 0 1) s
  let s := { s with att := { s.att with pend := s.att.pend.filter (fun p => decide (n < p.step + rowLag s)) } }
  let s := regPut s rAttRows 63 32 s.att.pend.length
  regPut s rLdrRqPtr 63 32 (regBits s rLdrRqPtr 31 0)

end Sys2Proof.Machine
end

