-- ==== Sys2Proof/Machine/Security.lean ====
section
/-!
DEFINITION. Security (R461 to R470): configuration and repair parts, the identity of the module, its measurement registers and its random source.
-/
namespace Sys2Proof.Machine

/-- A field of the loaded configuration part (Table 18.4). -/
def confBytes (s : State) (off n : Nat) : List Byte := smGetList 0 s.sec.conf off n
def confNat (s : State) (off n : Nat) : Nat := leNat (confBytes s off n)

/-- An ASCII string's bytes. -/
def ascii (x : String) : List Byte := x.toList.map (fun c => BitVec.ofNat 8 c.toNat)

def xofText (x : String) (bs : List Byte) (n : Nat) : List Byte := shake256 (ascii x ++ bs) n

/-! ### Keys -/

/-- The public key of an entry of SCHED_KEYS (base 0x0040, 8 entries) or MGMT_KEYS (0x38C0, 4 entries) with a key id; an id of 0 is unused. -/
def keyById (s : State) (base n id : Nat) : Option (List Byte) :=
  if id = 0 then none
  else ((upTo n).find? (fun i => decide (confNat s (base + 1808 * i) 8 = id))).map (fun i => confBytes s (base + 1808 * i + 8) 1793)

/-- The key driven out of the seed for signing, and the wrap key (R468); none without an identity. -/
def idSeed (s : State) : Option (List Byte) := s.sec.seed.map (fun x => xofText "GK20-ID" x 64)
def wrapKey (s : State) : Option (List Byte) := s.sec.seed.map (fun x => xofText "GK20-WRAP" x 32)

/-! ### Measurement registers (R469) -/

def mrBytes (s : State) (i : Nat) : List Byte := ((upTo 8).map (fun j => leBytes 8 (regGet s (rSecMr i j)).toNat)).flatten
def mrSet (s : State) (i : Nat) (bs : List Byte) : State :=
  (upTo 8).foldl (fun s j => regSet s (rSecMr i j) (BitVec.ofNat 64 (leNat ((bs.drop (8 * j)).take 8)))) s

/-- MR := SHAKE256(MR ‖ D). -/
def mrExtend (s : State) (i : Nat) (d : List Byte) : State := mrSet s i (digest64 (mrBytes s i ++ d))

/-! ### The random source -/

/-- Bytes of the random source, which no rule gives: free values. -/
def randomBytes (s : State) (n : Nat) : State × List Byte :=
  ({ s with freeCount := s.freeCount + n }, (upTo n).map (fun i => (Config.freeWord (s.freeCount + i)).setWidth 8))

/-! ### Wrapped CAKs (R462) -/

def cakIv (serial generation : List Byte) (port : Nat) : List Byte := xofText "GK20-CAK" (serial ++ generation ++ leBytes 1 port) 12

/-- The 64-B entry of a port: CKN, the wrapped CAK, the tag. -/
def wrapCakEntry (key serial generation : List Byte) (port : Nat) (ckn cak : List Byte) : List Byte :=
  let r := Config.gcmSeal key (cakIv serial generation port) (ckn ++ leBytes 1 port) cak
  ckn ++ r.1.take 32 ++ zeros (32 - r.1.length) ++ r.2.take 16 ++ zeros (16 - r.2.length)

/-- Whether the loaded part holds a usable CAK for a port. -/
def cakUsable (s : State) (port : Nat) : Bool :=
  let e := confBytes s (0x5500 + 64 * port) 64
  let ckn := e.take 16
  match wrapKey s with
  | none => false
  | some k =>
    !(ckn.all (fun b => decide (b = 0))) &&
      (Config.gcmOpen k (cakIv (confBytes s 0x18 8) (confBytes s 0x10 8) port) (ckn ++ leBytes 1 port) ((e.drop 16).take 32) (e.drop 48)).isSome

end Sys2Proof.Machine
end

