-- ==== Sys2Proof/Machine/Attic.lean ====
section
/-!
DEFINITION. The attic's drives (R411, R412, R415 to R417) and the import of a rank's replicas (R420).
-/
namespace Sys2Proof.Machine

/-- Failures beyond the array's protection make a module failure (R417). -/
def checkArray (s : State) (d : Nat) : State :=
  if survives s then s else moduleFailure (attFault s codeAtticUnavailable d) codeAtticUnavailable

/-- A drive fails (R417). -/
def driveFails (s : State) (d : Nat) : State :=
  if 4 ≤ d ∨ drvState s d = 0 ∨ drvState s d = 3 then s
  else
    let s := attFault (setDrvState s d 3) codeDriveFailed d
    if (getDrive s d).member then checkArray s d else s

/-- A unit of drive `d` cannot be read, or fails its check: it is reconstructed from the stripe's other units, and the stripe is relocated. -/
def mediaError (s : State) (d : Nat) : State :=
  let s := regCount s (rDrvErr d) 15 0 1
  if 1 < (members s).length ∧ (members s).length ≤ (readable s).length then attFault (regCount s (rDrvErr d) 63 48 1) codeMediaError d
  else moduleFailure (attFault s codeAtticUnavailable d) codeAtticUnavailable

/-- ATTIC_IO_COMPLETE (R411): an entry of completion queue `queue` of a drive; `status`: 0 done, 1 Unrecovered Read Error or a record that fails its
check, 2 a failed write. -/
def execAtticIoComplete (drive queue status : Nat) (s : State) : Host.Outcome State Fault Refusal :=
  if 4 ≤ drive ∨ 16 ≤ queue ∨ drvState s drive = 0 ∨ drvState s drive = 3 then .next s
  else
    let k := 16 * drive + queue
    let s := { s with att := { s.att with cqs := smSet 0 s.att.cqs k (smGet 0 s.att.cqs k + 1) } }
    if status = 1 then .next (mediaError s drive)
    else if status = 2 then .next (regCount s (rDrvErr drive) 31 16 1)
    else .next s

/-- ATTIC_COMMAND_TIMEOUT (R417): a command was aborted after 2 s; the third within a minute fails the drive. -/
def execAtticCommandTimeout (drive : Nat) (s : State) : Host.Outcome State Fault Refusal :=
  if 4 ≤ drive ∨ drvState s drive = 0 ∨ drvState s drive = 3 then .next s
  else
    let v := getDrive s drive
    let ts := v.timeouts.filter (fun t => decide (s.now ≤ t + 60 * 1300000000)) ++ [s.now]
    let s := setDrive (regCount s (rDrvErr drive) 47 32 1) drive { v with timeouts := ts }
    .next (if 3 ≤ ts.length then driveFails s drive else s)

/-- The half of a root port that serves a drive, as ATT_PORT.LINK shows it. -/
def setDriveLink (s : State) (d : Nat) (up : Bool) : State := regPut s (rAttPort (d / 2)) (1 + d % 2) (1 + d % 2) (b2n up)

/-- ATTIC_DRIVE_LINK_LOST (R417). -/
def execAtticDriveLinkLost (drive : Nat) (s : State) : Host.Outcome State Fault Refusal :=
  if 4 ≤ drive then .next s else .next (driveFails (setDriveLink (setDrive s drive { getDrive s drive with lost := true }) drive false) drive)

/-- ATTIC_CONTROLLER_FATAL (R417). -/
def execAtticControllerFatal (drive : Nat) (s : State) : Host.Outcome State Fault Refusal := .next (driveFails s drive)

/-- ATTIC_HEALTH_POLL (R415): Percentage Used, Available Spare and its threshold, and Critical Warning with bit 3 for read-only media (log 67). -/
def execAtticHealthPoll (drive used spare threshold warn : Nat) (s : State) : Host.Outcome State Fault Refusal :=
  if 4 ≤ drive ∨ drvState s drive = 0 ∨ drvState s drive = 3 then .next s
  else
    let a := rDrvHealth drive
    let s := regPut (regPut (regPut s a 7 0 used) a 15 8 spare) a 23 16 warn
    let s := if warn.testBit 3 ∧ drvState s drive = 1 then setDrvState s drive 4 else s
    if (80 ≤ used ∨ spare < threshold) ∧ (getDrive s drive).worn = false then
      .next (attFault (setDrive s drive { getDrive s drive with worn := true }) codeWear drive)
    else .next s

/-- ATTIC_SCRUB (R416): outside an epoch, the next retained segment is read and checked; `bad`: its unit on `drive` fails. -/
def execAtticScrub (drive : Nat) (bad : Bool) (s : State) : Host.Outcome State Fault Refusal :=
  if s.att.active ∨ 4 ≤ drive ∨ drvState s drive ≠ 1 then .next s
  else
    let s := { s with att := { s.att with scrubAt := s.now } }
    .next (if bad then mediaError s drive else s)

/-! ### Adoption (R411, R417) -/

/-- The drives of the array that start-up adopts (R412): those that lead an unbifurcated port or sit on a bifurcated one, and have the features of
Table 16.2. `serial` and `blocks` as the drive reports them. -/
def adoptAtStart (s : State) (d serial blocks : Nat) (ok : Bool) : State :=
  if 4 ≤ d ∨ (d % 2 = 1 ∧ regBits s (rAttPort (d / 2)) 0 0 = 0) then s
  else
    let v := getDrive s d
    let s := regPut (setDriveLink s d true) (rDrvCap d) 47 0 blocks
    if ok = false ∨ (v.member = true ∧ v.serial ≠ serial) ∨ (v.member = false ∧ (members s).any (fun e => decide (d < e))) then
      attFault (setDrvState s d 3) codeDriveFailed d
    else setDrvState (setDrive s d { v with member := true, serial := serial, lost := false, timeouts := [], worn := false }) d 1

/-- ATT_DRV_STATE.ADOPT (R417): a drive that the array has lost, or that takes no writes, is adopted and rebuilt onto, if it has the features of Table
16.2 and the other units are there to rebuild from. -/
def adopt (s : State) (d serial blocks : Nat) (ok : Bool) : State :=
  let s := regPut s (rDrvState d) 3 3 0
  if (getDrive s d).member = false ∨ drvState s d = 1 ∨ drvState s d = 2 ∨ 4 ≤ d then s
  else if ok = false then attFault s codeDriveFailed d
  else
    let s := regPut (setDriveLink s d true) (rDrvCap d) 47 0 blocks
    setDrvState (setDrive s d { getDrive s d with serial := serial, lost := false, timeouts := [], worn := false }) d 2

/-- ATTIC_ADOPT: ADOPT of a drive is written. -/
def execAtticAdopt (drive serial blocks : Nat) (ok : Bool) (s : State) : Host.Outcome State Fault Refusal := .next (adopt s drive serial blocks ok)

/-- ATTIC_REBUILD_COMPLETE (R417): every retained stripe is on the drive, or its reconstruction cannot complete. -/
def execAtticRebuildComplete (drive : Nat) (ok : Bool) (s : State) : Host.Outcome State Fault Refusal :=
  if 4 ≤ drive ∨ drvState s drive ≠ 2 then .next s
  else if ok then .next (setDrvState s drive 1)
  else .next (moduleFailure (attFault s codeAtticUnavailable drive) codeAtticUnavailable)

/-- ATT_DRV_STATE.RETIRE marks a drive FAILED. -/
def retire (s : State) (d : Nat) : State :=
  let s := regPut s (rDrvState d) 4 4 0
  if 4 ≤ d ∨ drvState s d = 0 then s
  else
    let s := setDrvState s d 3
    if (getDrive s d).member then checkArray s d else s

/-- ATTIC_RETIRE: RETIRE of a drive is written. -/
def execAtticRetire (drive : Nat) (s : State) : Host.Outcome State Fault Refusal := .next (retire s drive)

/-! ### Import (R420) -/

/-- A record's header and payload (Table 16.4), when its CHECK passes: the record, and its 4 KiB units. -/
def parseRecord (b : List Byte) : Option (AttRec × Nat × Nat) :=
  let n (o k : Nat) : Nat := leNat ((b.drop o).take k)
  let len := n 4 4
  let body := (b.drop 64).take len
  if b.length < 64 + len then none
  else if crc64 (leBytes 8 (n 8 8) ++ b.take 0x38 ++ zeros 8 ++ body) = n 0x38 8 then
    some ({ ty := n 0 2, flags := n 2 2, epoch := n 8 8, step := n 0x10 8, id := n 0x18 4, rank := n 0x1C 2, off := n 0x20 8, base := n 0x28 8, body := body },
      ceilDiv (64 + len) 4096, n 0x1C 2)
  else none

/-- The records of a run of bytes of one rank, or none when one of them fails its CHECK or is another rank's. -/
def parseRun (rk : Nat) : Nat → List Byte → Option (List AttRec)
  | 0, _ => some []
  | k + 1, b =>
    if b.isEmpty then some []
    else
      match parseRecord b with
      | none => none
      | some (r, u, w) => if w ≠ rk then none else (parseRun rk k (b.drop (u * 4096))).map (fun l => r :: l)

/-- The epochs that records make: those whose EPOCH_END is among them. -/
def epochsOf (rk : Nat) (rs : List AttRec) : List Epoch :=
  (rs.filter (fun r => decide (r.ty = 8))).map (fun (z : AttRec) =>
    { num := z.epoch, step := z.step, rank := rk, full := decide (z.base = z.epoch), base := z.base,
      recs := rs.filter (fun r => decide (r.epoch = z.epoch) && decide (r.ty ≠ 9)), replica := true })

/-- A write of ATT_IMPORT: ATT_IMPORT_LEN units from an address are checked and appended; BUSY rises and falls. -/
def import_ (s : State) (addr : Nat) : State :=
  if schState s = 3 then s
  else
    let n := regBits s rAttImportLen 31 0 * 4096
    let a := addr / 4096 * 4096
    let r := readBytes s a n
    let s := latchIrq (noteFetch s a n (unitId 9 0)) 259
    match (if r.2 = 0 then parseRun (rank s) (n / 4096 + 1) r.1 else none) with
    | none => attFault s codeEpochCorrupt 7
    | some new =>
      let rs := s.att.imports ++ new
      let es := epochsOf (rank s) rs
      let s := { s with att := { s.att with imports := rs.filter (fun r => decide (r.ty ≠ 9) && !(es.any (fun (e : Epoch) => decide (e.num = r.epoch)))) } }
      es.foldl keepEpoch s

/-- ATTIC_IMPORT. -/
def execAtticImport (addr : Nat) (s : State) : Host.Outcome State Fault Refusal := .next (import_ s addr)

end Sys2Proof.Machine
end

