-- ==== Sys2Proof/Machine/Control.lean ====
section
/-!
DEFINITION. The control slot of a room (R92, R93, R95, R108 to R112, R115, R127, Table 4.9).
-/
namespace Sys2Proof.Machine

/-- A scalar result, ready in the next beat on the control port; writes to X0 are discarded (Table 4.2). -/
def scalarOut (s : State) (r lat d : Nat) (v : Word) : SlotRes := .ok (addResult s r (s.beat + lat) .ctl (.x d v))

/-- A scalar operation on X[a] and X[b]. -/
def scalarOp (s : State) (r : Nat) (f : ControlSlot) (q : Room) (fn : Word → Word → Word) : SlotRes :=
  scalarOut s r 1 (d24d f) (fn (xReg q (d24a f)) (xReg q (d24b f)))

/-- An address result, ready in the next beat on the address port. -/
def addressOut (s : State) (r d : Nat) (v : Word) : SlotRes := .ok (addResult s r (s.beat + 1) .addr (.a d v))

/-- A taken branch (R108). -/
def branchTo (s : State) (r : Nat) (q : Room) (target : Nat) : SlotRes :=
  if q.progLen ≤ target then .error { code := codeBounds } else .ok (modRoom s r (fun q => { q with addr := target }))

/-- WAIT (R109): a completed token releases it; otherwise it holds the sequencer. A room that another slot of the bundle has stopped stays stopped, here
and at PEND and HALT (R116). -/
def waitBody (s : State) (r : Nat) (f : ControlSlot) (q : Room) : SlotRes :=
  let tk := f.tk.toNat
  let t := token q tk
  let h : Hold := { tk := tk, w := s.beat, e := t.armed + f.d24.toNat, cf := f.cf.toNat, bundle := q.cur }
  match t.st with
  | .idle => .error { code := codeTokenUnarmed }
  | .pending => if q.run = .stopped then .ok s else .ok (modRoom s r (fun q => { q with run := .held, hold := some h }))
  | .complete => .ok (waitEnds s r h)

def tstatBody (s : State) (r : Nat) (f : ControlSlot) (q : Room) : SlotRes :=
  scalarOut s r 1 (d24d f) (token q f.tk.toNat).word

/-- LOOP: the count falls by one; while it is not 0 the branch is taken. -/
def loopBody (s : State) (r : Nat) (f : ControlSlot) (q : Room) : SlotRes :=
  let v := xReg q (d24brA f) - 1
  if v ≠ 0 then (branchTo s r q (d24target f)).bind (fun s => scalarOut s r 1 (d24brA f) v)
  else scalarOut s r 1 (d24brA f) v

def bnzBody (s : State) (r : Nat) (f : ControlSlot) (q : Room) : SlotRes :=
  if xReg q (d24brA f) ≠ 0 then branchTo s r q (d24target f) else .ok s

/-- SYNC (R127): the room arrives at its phase's END_SYNC. -/
def syncBody (s : State) (r : Nat) (f : ControlSlot) (q : Room) : SlotRes :=
  match phaseAt s q.phase with
  | some p =>
    if q.synced ∨ p.endSync ≠ d24sync f then .error { code := 0x0162 }
    else .ok (arriveRoom (reportLate (modRoom s r (fun q => { q with synced := true })) r) r)
  | none => .error { code := 0x0162 }

/-- SYNC's fault is recorded in SCH_FAULT too (R140). -/
def syncRun (s : State) (r : Nat) (f : ControlSlot) : State :=
  let s' := runSlot s r (controlLegal 16 0 f) (syncBody s r f)
  if issuing s r && controlLegal 16 0 f && (match syncBody s r f (getRoom s r) with | .error _ => true | .ok _ => false) then
    latchFault s' rSchFault 16 0x0162
  else s'

/-- The room's program is done for the phase: the next phase's fill starts, the room arrives unless it has, and a phase already
released begins; a room that halts only arrives at the end of that phase, unless it belongs to the next step (R127). -/
def endProgram (s : State) (r : Nat) (run : RunState) (ph : Nat) : State :=
  let q := getRoom s r
  let s := startFill (modRoom s r (fun q => { q with run := run, hold := none })) r ph
  let s := if q.synced then s else arriveRoom s r
  match q.waiting with
  | some (p, b) =>
    if run = .halted ∧ p ≠ 0 then arriveRoom (modRoom s r (fun q => { q with waiting := none, phase := p, phaseStart := b })) r
    else enterPhase (modRoom (startFill s r p) r (fun q => { q with waiting := none })) p r b
  | none => s

/-- PEND (R108): every token must have been waited on. -/
def pendBody (s : State) (r : Nat) (q : Room) : SlotRes :=
  if q.toks.any (fun t => t.2.st != .idle) then .error { code := codeTokenBusy }
  else if q.run = .stopped then .ok s
  else .ok (endProgram s r .ended (phaseAfter s q.phase))

/-- HALT (R127): the program stops for the rest of the step. -/
def haltBody (s : State) (r : Nat) : SlotRes := if (getRoom s r).run = .stopped then .ok s else .ok (endProgram s r .halted 0)

/-- The room status of Table 4.13. -/
def roomStatus (s : State) (q : Room) (sel : Nat) : Word :=
  match sel with
  | 0 => BitVec.ofNat 64 q.vflags
  | 1 => BitVec.ofNat 64 (q.vcounts.getD 0 0)
  | 2 => BitVec.ofNat 64 (q.vcounts.getD 1 0)
  | 3 => BitVec.ofNat 64 (q.vcounts.getD 2 0)
  | 4 => BitVec.ofNat 64 (q.vcounts.getD 3 0)
  | 5 => BitVec.ofNat 64 (q.vcounts.getD 4 0)
  | 8 => BitVec.ofNat 64 q.lateCycles
  | 9 => BitVec.ofNat 64 q.lateWaits
  | 10 => BitVec.ofNat 64 q.lateMax
  | 11 => q.firstLate
  | 16 => BitVec.ofNat 64 (s.beat - q.phaseStart)
  | _ => 0

/-- Clear the field that a selector names (R115). -/
def clearStatus (q : Room) (sel : Nat) : Room :=
  match sel with
  | 0 => { q with vflags := 0 }
  | 1 => { q with vcounts := listSet q.vcounts 0 0 }
  | 2 => { q with vcounts := listSet q.vcounts 1 0 }
  | 3 => { q with vcounts := listSet q.vcounts 2 0 }
  | 4 => { q with vcounts := listSet q.vcounts 3 0 }
  | 5 => { q with vcounts := listSet q.vcounts 4 0 }
  | 8 => { q with lateCycles := 0 }
  | 9 => { q with lateWaits := 0 }
  | 10 => { q with lateMax := 0 }
  | 11 => { q with firstLate := 0 }
  | _ => q

def rstatBody (s : State) (r : Nat) (f : ControlSlot) (q : Room) : SlotRes :=
  let v := roomStatus s q (d24sel f)
  let s := if f.cf = 1 then modRoom s r (fun q => clearStatus q (d24sel f)) else s
  scalarOut s r 2 (d24d f) v

/-! ### The control slot's instructions (Table 4.9) -/

/-- WAIT (R109): holds the sequencer until its token completes. -/
def execWait (room : Nat) (f : ControlSlot) (s : State) : Host.Outcome State Fault Refusal :=
  .next (runSlot s room (waitLegal f) (waitBody s room f))

/-- TSTAT (R107): X[d] := the status word of TK. -/
def execTstat (room : Nat) (f : ControlSlot) (s : State) : Host.Outcome State Fault Refusal :=
  .next (runSlot s room (controlLegal 5 0 f) (tstatBody s room f))

/-- XSET (R93): X[d] := the sign-extended immediate. -/
def execXset (room : Nat) (f : ControlSlot) (s : State) : Host.Outcome State Fault Refusal :=
  .next (runSlot s room (controlLegal 24 0 f) (fun _ => scalarOut s room 1 (d24d f) (d24imm19 f)))

/-- XADD (R93): X[d] := X[a] + X[b]. -/
def execXadd (room : Nat) (f : ControlSlot) (s : State) : Host.Outcome State Fault Refusal :=
  .next (runSlot s room (controlLegal 15 0 f) (fun q => scalarOp s room f q (fun a b => a + b)))

/-- XSUB (R93): X[d] := X[a] − X[b]. -/
def execXsub (room : Nat) (f : ControlSlot) (s : State) : Host.Outcome State Fault Refusal :=
  .next (runSlot s room (controlLegal 15 0 f) (fun q => scalarOp s room f q (fun a b => a - b)))

/-- XMUL (R93): X[d] := X[a] × X[b]. -/
def execXmul (room : Nat) (f : ControlSlot) (s : State) : Host.Outcome State Fault Refusal :=
  .next (runSlot s room (controlLegal 15 0 f) (fun q => scalarOp s room f q (fun a b => a * b)))

/-- XAND (R93): X[d] := X[a] AND X[b]. -/
def execXand (room : Nat) (f : ControlSlot) (s : State) : Host.Outcome State Fault Refusal :=
  .next (runSlot s room (controlLegal 15 0 f) (fun q => scalarOp s room f q (fun a b => a &&& b)))

/-- XOR (R93): X[d] := X[a] OR X[b], as the row of Table 4.9's operations and the command table give it (log 24). -/
def execXor (room : Nat) (f : ControlSlot) (s : State) : Host.Outcome State Fault Refusal :=
  .next (runSlot s room (controlLegal 15 0 f) (fun q => scalarOp s room f q (fun a b => a ||| b)))

/-- XSHL (R93): X[d] := X[a] shifted left by X[b][5:0]. -/
def execXshl (room : Nat) (f : ControlSlot) (s : State) : Host.Outcome State Fault Refusal :=
  .next (runSlot s room (controlLegal 15 0 f) (fun q => scalarOp s room f q (fun a b => a <<< bits b 5 0)))

/-- XSHR (R93): X[d] := X[a] shifted right logically by X[b][5:0]. -/
def execXshr (room : Nat) (f : ControlSlot) (s : State) : Host.Outcome State Fault Refusal :=
  .next (runSlot s room (controlLegal 15 0 f) (fun q => scalarOp s room f q (fun a b => a >>> bits b 5 0)))

/-- XADDI (R93): X[d] := X[a] + the sign-extended immediate. -/
def execXaddi (room : Nat) (f : ControlSlot) (s : State) : Host.Outcome State Fault Refusal :=
  .next (runSlot s room (controlLegal 24 0 f) (fun q => scalarOut s room 1 (d24d f) (xReg q (d24a f) + d24imm14 f)))

/-- AMOV (R95): A[d] := X[a]. -/
def execAmov (room : Nat) (f : ControlSlot) (s : State) : Host.Outcome State Fault Refusal :=
  .next (runSlot s room (amovLegal f) (fun q => addressOut s room (d24ad f) (xReg q (d24a f))))

/-- AADD (R95): A[d] := A[d] + X[a]. -/
def execAadd (room : Nat) (f : ControlSlot) (s : State) : Host.Outcome State Fault Refusal :=
  .next (runSlot s room (amovLegal f) (fun q => addressOut s room (d24ad f) (aReg q (d24ad f) + xReg q (d24a f))))

/-- LOOP (R108): X[a] falls by one and branches while it is not 0. -/
def execLoop (room : Nat) (f : ControlSlot) (s : State) : Host.Outcome State Fault Refusal :=
  .next (runSlot s room (controlLegal 17 0 f) (loopBody s room f))

/-- JMP (R108): the next bundle is the target. -/
def execJmp (room : Nat) (f : ControlSlot) (s : State) : Host.Outcome State Fault Refusal :=
  .next (runSlot s room (controlLegal 12 0 f) (fun q => branchTo s room q (d24target f)))

/-- BNZ (R108): branches when X[a] is not 0. -/
def execBnz (room : Nat) (f : ControlSlot) (s : State) : Host.Outcome State Fault Refusal :=
  .next (runSlot s room (controlLegal 17 0 f) (bnzBody s room f))

/-- SYNC (R127): the room arrives at END_SYNC. -/
def execSync (room : Nat) (f : ControlSlot) (s : State) : Host.Outcome State Fault Refusal :=
  .next (syncRun s room f)

/-- PEND (R108): the phase's program ends and the next fill starts. -/
def execPend (room : Nat) (f : ControlSlot) (s : State) : Host.Outcome State Fault Refusal :=
  .next (runSlot s room (controlLegal 0 0 f) (pendBody s room))

/-- HALT (R127): the room's program stops for the rest of the step. -/
def execHalt (room : Nat) (f : ControlSlot) (s : State) : Host.Outcome State Fault Refusal :=
  .next (runSlot s room (controlLegal 0 0 f) (fun _ => haltBody s room))

/-- RSTAT (R115): X[d] := the room status the selector names, which CF[0] = 1 clears. -/
def execRstat (room : Nat) (f : ControlSlot) (s : State) : Host.Outcome State Fault Refusal :=
  .next (runSlot s room (controlLegal 11 1 f) (rstatBody s room f))

/-- FTIME (R117): X[d] := fabric time in the issue cycle. -/
def execFtime (room : Nat) (f : ControlSlot) (s : State) : Host.Outcome State Fault Refusal :=
  .next (runSlot s room (controlLegal 5 0 f) (fun _ => scalarOut s room 1 (d24d f) (BitVec.ofNat 64 s.now)))

/-- WAIT_TIMEOUT (R112): a WAIT that has held the sequencer for longer than the phase's wait limit stops the room. -/
def execWaitTimeout (room : Nat) (s : State) : Host.Outcome State Fault Refusal :=
  let q := getRoom s room
  match q.hold, phaseAt s q.phase with
  | some h, some p =>
    if h.w + p.waitLimit < s.beat ∧ (q.run = .held ∨ (q.run = .running ∧ s.beat < q.resumeAt)) then
      .next (stopRoom s room codeWaitTimeout 0)
    else .next s
  | _, _ => .next s

/-- PROGRAM_FILL_DONE (R126): the program of the room's next phase is in its bundle buffer; a room that its phase awaits starts. -/
def execProgramFillDone (room : Nat) (s : State) : Host.Outcome State Fault Refusal :=
  let q := getRoom s room
  if q.filled ∨ s.now < q.fillEnd ∨ q.run = .running ∨ q.run = .held then .next s
  else
    let s := loadBundles s room q.fillPhase
    .next (if q.run = .filling then runRoom s room else s)

end Sys2Proof.Machine
end

