-- ==== Sys2Proof/Machine/ImageLoad.lean ====
section
/-!
DEFINITION. Loading a schedule image (R123 to R126, R136, R137, R302, R304, R489): its signature, its checks, and what loading
sets. Reserved fields are ignored (R6).
-/
namespace Sys2Proof.Machine

def codeImageFormat : Nat := 0x0160
def codeImageMismatch : Nat := 0x0161
def codeImageSignature : Nat := 0x0960

/-- A little-endian field of some bytes. -/
def at_ (b : List Byte) (off n : Nat) : Nat := leNat ((b.drop off).take n)

/-- Offset and length of section i (Table 5.1). -/
def secOff (b : List Byte) (i : Nat) : Nat := at_ b (0x40 + 16 * i) 8
def secLen (b : List Byte) (i : Nat) : Nat := at_ b (0x48 + 16 * i) 8
def secBytes (b : List Byte) (i : Nat) : List Byte := (b.drop (secOff b i)).take (secLen b i)

/-- The n-byte entries of a section. -/
def entries (b : List Byte) (i n cnt : Nat) : List (List Byte) := (chunks n cnt (secBytes b i)).take cnt

def imgModules (b : List Byte) : Nat := at_ b 0x18 4
def imgRooms (b : List Byte) : Nat := at_ b 0x1C 2
def imgPhases (b : List Byte) : Nat := at_ b 0x1E 2
def imgSyncs (b : List Byte) : Nat := at_ b 0x20 2
def imgStreams (b : List Byte) : Nat := at_ b 0x22 2

def within (lo hi x : Nat) : Bool := decide (lo ≤ x) && decide (x ≤ hi)

/-- The header's fields (Table 5.1). -/
def headerFieldsOk (b : List Byte) : Bool :=
  decide (b.take 8 = ascii "GK20SCHD") && decide (at_ b 8 2 = 1) && decide (at_ b 0xA 2 = 0x100) && decide (at_ b 0x10 8 = b.length) &&
    within 1 65536 (imgModules b) && within 1 4096 (imgRooms b) && within 1 1024 (imgPhases b) && within 1 4096 (imgSyncs b) &&
    within 0 4096 (imgStreams b) && within 1 32 (at_ b 0x24 2)

/-- The sections' places (R123): on 64-B boundaries beyond the header, within LENGTH, apart, the signature block last. -/
def sectionsOk (b : List Byte) : Bool :=
  (upTo 10).all (fun i => decide (secOff b i % 64 = 0) && decide (0x100 ≤ secOff b i) && decide (secOff b i + secLen b i ≤ b.length)) &&
    (upTo 10).all (fun i => (upTo 10).all (fun j => decide (i = j) || decide (secLen b i = 0) || decide (secLen b j = 0) ||
      !(overlaps (secOff b i) (secLen b i) (secOff b j) (secLen b j)))) &&
    decide (secOff b 9 + secLen b 9 = b.length) && (upTo 9).all (fun i => decide (secOff b i + secLen b i ≤ secOff b 9))

/-- Each section is long enough for its entries. -/
def lengthsOk (b : List Byte) : Bool :=
  decide (4 * imgRooms b ≤ secLen b 0) && decide (64 * imgPhases b ≤ secLen b 1) && decide (32 * imgSyncs b ≤ secLen b 2) &&
    decide (16 * imgPhases b * imgRooms b ≤ secLen b 4) && decide (8 * imgPhases b * imgRooms b ≤ secLen b 6) &&
    decide (4 * imgStreams b ≤ secLen b 7) && decide (64 ≤ secLen b 8) && decide (16 ≤ secLen b 9)

/-! ### Entries -/

def phaseOf (e : List Byte) : PhaseEnt :=
  { startSync := at_ e 0 2, endSync := at_ e 2 2, p := at_ e 4 4, traffic := at_ e 8 1 % 4, freeBanks := at_ e 9 1, mMax := at_ e 0xA 2,
    waitLimit := at_ e 0xC 4, gap := at_ e 0x10 4, dir := at_ e 0x18 8 }

/-- A sync point's members (Table 5.4): those of its list, or none listed for a MEMBERS of 0. -/
def memberList (b : List Byte) (m : Nat) : List Nat := if m = 0 then [] else (upTo (at_ b m 2)).map (fun i => at_ b (m + 2 + 2 * i) 2)

def syncEntOf (b e : List Byte) : SyncEnt :=
  { id := at_ e 0 2, scope := at_ e 2 1, policy := at_ e 3 1, role := at_ e 4 1, floor := at_ e 5 1, fanin := at_ e 6 1, theta := at_ e 8 4,
    members := memberList b (at_ e 0x10 8) }

def roomFloors (b : List Byte) : List Nat := (entries b 0 4 (imgRooms b)).map (fun e => at_ e 0 1)

/-- A member list within the signed bytes, without repeats, of rooms that exist and, for a floor sync point, lie on its floor (R489). -/
def membersOk (b e : List Byte) : Bool :=
  let m := at_ e 0x10 8
  let l := memberList b m
  decide (m = 0) ||
    (decide (m % 2 = 0) && decide (m + 2 ≤ secOff b 9) && decide (m + 2 + 2 * at_ b m 2 ≤ secOff b 9) && decide (0 < l.length) && decide l.Nodup &&
      l.all (fun r => decide (r < imgRooms b) && (decide (at_ e 2 1 ≠ 0) || decide ((roomFloors b).getD r 0 = at_ e 5 1))))

def phaseEntOk (b : List Byte) (ids : List Nat) (e : List Byte) : Bool :=
  decide (at_ e 0 2 ∈ ids) && decide (at_ e 2 2 ∈ ids) &&
    decide (at_ e 0x18 8 + imgRooms b ≤ imgPhases b * imgRooms b)

/-- A sync point's entry (Table 5.4, R489); a start or commit barrier is not tolerant (R321). -/
def syncEntOk (b e : List Byte) : Bool :=
  decide (at_ e 2 1 ≤ 2) && decide (at_ e 3 1 ≤ 1) && decide (at_ e 4 1 ≤ 2) && (decide (at_ e 3 1 = 0) || decide (at_ e 4 1 = 0)) && (decide (at_ e 2 1 ≠ 0) || decide (at_ e 5 1 ≤ 9)) &&
    (decide (at_ e 2 1 = 2) || (decide (at_ e 3 1 = 0) && decide (at_ e 4 1 = 0))) &&
    (decide (at_ e 2 1 ≠ 2) || decide (at_ e 6 1 ∈ [2, 4, 8, 16, 32, 64])) && membersOk b e

/-- The register-initialisation records of section 5. -/
def initRecords : Nat → List Byte → Option (List (List (Nat × Word)))
  | 0, _ => some []
  | k + 1, b =>
    if b.length < 4 then some []
    else
      let n := at_ b 0 4
      let es := (chunks 16 n ((b.drop 4).take (16 * n))).map (fun e => (at_ e 0 2, BitVec.ofNat 64 (at_ e 8 8)))
      if b.length < 4 + 16 * n then none
      else if es.any (fun e => decide (79 < e.1)) then none
      else (initRecords k (b.drop (4 + 16 * n))).map (fun rs => es :: rs)

def imgInits (b : List Byte) : Option (List (List (Nat × Word))) := initRecords (secLen b 5 + 1) (secBytes b 5)

def dirEntOk (b : List Byte) (inits : Nat) (e : List Byte) : Bool :=
  decide (at_ e 8 2 ≤ 4096) && decide (at_ e 0 8 + at_ e 8 2 ≤ secLen b 3 / 32) && (decide (at_ e 8 2 = 0) || decide (at_ e 10 4 < inits))

def liveEntOk (e : List Byte) : Bool :=
  decide (at_ e 0 4 % 64 = 0) && decide (at_ e 4 4 % 64 = 0) && decide (at_ e 0 4 + at_ e 4 4 ≤ 0x200000)

/-! ### Groups and count tables (R302, R304) -/

def groupOf (e : List Byte) : GroupEnt := { n1 := at_ e 4 4, n2 := at_ e 8 4, base := at_ e 12 4, s1 := at_ e 16 4, s2 := at_ e 20 4 }

def groupOk (b : List Byte) (i : Nat) (e : List Byte) : Bool :=
  let g := groupOf e
  let rs := groupRanks g
  decide (at_ e 0 2 = i) && decide (1 ≤ g.n1) && decide (1 ≤ g.n2) && decide (g.n1 * g.n2 ≤ imgModules b) &&
    rs.all (fun r => decide (r < imgModules b)) && decide rs.Nodup &&
    (decide (i ≠ 0) || (decide (g.n1 = imgModules b) && decide (g.n2 = 1) && decide (g.base = 0) && decide (g.s1 = 1)))

/-- The count tables that follow the groups, each checked against R303. -/
def countTables (groups : List GroupEnt) : Nat → List Byte → Option (List CountTab)
  | 0, _ => some []
  | k + 1, b =>
    let c : CountTab := { id := at_ b 0 2, kind := at_ b 2 1, group := at_ b 4 2, q := at_ b 8 8 }
    match groups[c.group]? with
    | none => none
    | some g =>
      let p := g.n1 * g.n2
      let len := 16 + roundUp (4 * p) 16
      if b.length < len ∨ 8 ≤ c.kind ∨ 2 ^ 32 ≤ c.q then none
      else if (upTo p).any (fun i => decide (at_ b (16 + 4 * i) 4 ≠ shareCount c.q p i)) then none
      else (countTables groups k (b.drop len)).map (fun cs => c :: cs)

/-! ### The whole image -/

/-- The image of some bytes, or none where a check of R123, R125, R302, R304 or R489 fails. -/
def parseImage (b : List Byte) : Option Image :=
  if !(headerFieldsOk b && sectionsOk b && lengthsOk b) then none
  else
    let syncs := entries b 2 32 (imgSyncs b)
    let ids := syncs.map (fun e => at_ e 0 2)
    let n := imgPhases b * imgRooms b
    let grp := secBytes b 8
    let ng := at_ grp 0 2
    let gs := (upTo ng).map (fun i => (grp.drop (64 + 32 * i)).take 32)
    let streams := entries b 7 4 (imgStreams b)
    match imgInits b with
    | none => none
    | some inits =>
      if !((entries b 0 4 (imgRooms b)).all (fun e => decide (at_ e 0 1 ≤ 9))) then none
      else if !((entries b 1 64 (imgPhases b)).all (phaseEntOk b ids) && syncs.all (syncEntOk b) && decide ids.Nodup) then none
      else if !((entries b 4 16 n).all (dirEntOk b inits.length) && (entries b 6 8 n).all liveEntOk) then none
      else if !(decide (streams.map (fun e => at_ e 0 2)).Nodup) then none
      else if !(decide (64 + 32 * ng ≤ grp.length) && decide (1 ≤ ng) && (gs.zipIdx).all (fun g => groupOk b g.2 g.1)) then none
      else
        let groups := gs.map groupOf
        match countTables groups (at_ grp 2 2) (grp.drop (64 + 32 * ng)) with
        | none => none
        | some cs =>
          if !(decide (cs.map (fun c => c.id)).Nodup) then none
          else
            let digest := digest64 (b.take (secOff b 9))
            some {
              modules := imgModules b, lrooms := imgRooms b, turnsMax := at_ b 0x24 2, switchTime := at_ b 0x28 8, marginE := at_ b 0x30 4,
              marginP := at_ b 0x34 4, barrierLimit := at_ b 0x38 8, roomMap := roomFloors b,
              phases := (entries b 1 64 (imgPhases b)).map phaseOf, syncs := syncs.map (syncEntOf b),
              dirs := (entries b 4 16 n).map (fun e => { off := at_ e 0 8, cnt := at_ e 8 2, init := at_ e 10 4 }),
              inits := inits, live := (entries b 6 8 n).map (fun e => (at_ e 0 4, at_ e 4 4)),
              streams := streams.map (fun e => (at_ e 0 2, toSigned 8 (at_ e 2 1))),
              groups := groups, counts := cs,
              programs := smSetList 0 [] 0 ((chunks 32 (secLen b 3 / 32) (secBytes b 3)).map (fun e => BitVec.ofNat 256 (leNat e))),
              copy := secBytes b 3 ++ secBytes b 4 ++ secBytes b 5 ++ secBytes b 6,
              digest := digest, microBatches := Config.microBatches digest, positions := Config.microPositions digest }

/-- Whether the signature block's signature verifies under the scheduling key that its key id names (R124). -/
def imageSigned (s : State) (b : List Byte) : Bool :=
  let g := b.drop (secOff b 9)
  let n := at_ g 8 2
  match keyById s 0x40 8 (at_ g 0 8) with
  | none => false
  | some k => decide (n ≤ 1280) && Config.falconVerify k (digest64 (b.take (secOff b 9))) ((g.drop 16).take n)

def imageFault (s : State) (code : Nat) : State := raiseFault s rSchFault 16 code unitSch []

/-- Whether LDR_JOB.CLOSE_SYNC names a job-scope barrier of role 0, where the job has a close barrier (R208). -/
def closeNamed (s : State) (im : Image) : Bool :=
  !(closeEn s) || im.syncs.any (fun y => decide (y.id = regBits s rLdrJob 15 0 ∧ y.scope = 2 ∧ y.role = 0))

/-- The locks of a loaded job (Tables 7.7, 8.11, 14.10). -/
def lockJob (s : State) (v : Nat) : State := regPut (regPut (regPut s rLdrJob 16 16 v) rFabJob 16 16 v) rCelZone 6 6 v

/-- An image that passed every check is loaded. -/
def takeImage (s : State) (im : Image) : State :=
  let s := { s with
    rooms := []
    job := { s.job with swaps := [], copies := [] }
    seq := { s.seq with
      image := im, streams := smSetList' im.streams, abort := none, stopped := false, inPhase := false, sync := 0, tPlan := none, barrier := {}, early := [],
      arrived := [] } }
  let s := mapRooms s
  let t := tauMod s
  let s := regPut s rSchTurns 13 8 t
  let s := { s with seq := { s.seq with tauNext := max 1 t } }
  let s := (allRooms s).foldl (fun s r => startFill s r 0) s
  lockJob (regPut (regSet s rSchStep 0) rSchState 2 0 2) 1
where
  /-- The streams of section 7 with their initial exponents. -/
  smSetList' (l : List (Nat × Int)) : List (Nat × Stream) := l.foldl (fun m e => smSet {} m e.1 { x := e.2 }) []

/-- SCH_CTRL.LOAD (R124, R125): the image at SCH_IMAGE is verified, checked and loaded; the fault code, 0 where it is. -/
def tryImage (s : State) : State × Nat :=
  if schState s = 3 then (s, 0)
  else
    let a := regBits s rSchImage 63 6 * 64
    let h := readBytes s a 0x100
    let len := at_ h.1 0x10 8
    let r := if h.2 ≠ 0 ∨ 2 ^ 41 < len then ([], 1) else readBytes s a len
    let b := r.1
    let s := noteFetch s a (if h.2 ≠ 0 ∨ 2 ^ 41 < len then 0x100 else len) unitSch
    let refuse (s : State) (code : Nat) : State × Nat :=
      (imageFault { lockJob (regPut s rSchState 2 0 0) 0 with seq := { s.seq with image := {} }, rooms := [] } code, code)
    if r.2 ≠ 0 ∨ b.length < 0x100 ∨ b.length < secOff b 9 then refuse s codeImageFormat
    else
      let s := mrExtend s 2 (digest64 (b.take (secOff b 9)))
      if imageSigned s b = false then refuse (regPut s rSecEvent 0 0 1) codeImageSignature
      else
        match parseImage b with
        | none => refuse s codeImageFormat
        | some im =>
          let t := takeImage s im
          if im.modules ≠ s.seq.jobModules ∨ im.turnsMax < tauMod t ∨ closeNamed s im = false then refuse s codeImageMismatch
          else (t, 0)

def loadImage (s : State) : State := (tryImage s).1

/-- SCH_CTRL_LOAD: firmware loads the image at SCH_IMAGE. -/
def execSchCtrlLoad (s : State) : Host.Outcome State Fault Refusal := .next (loadImage s)

end Sys2Proof.Machine
end

