-- ==== Sys2Proof/Machine/Placement.lean ====
section
/-!
DEFINITION. Placing a job's allocations (R138, R151, R152, R255, R400). Where in its tier an allocation goes is left to firmware: the model takes the
lowest place that is free (log 70).
-/
namespace Sys2Proof.Machine

/-- The allocation table of a JOB_LOAD, or none where an entry breaks R400. -/
def allocTable (s : State) (a n : Nat) : Option (List Alloc) :=
  let r := readBytes s a (32 * n)
  let es := (chunks 32 (n + 1) r.1).map (fun b =>
    let v (o k : Nat) : Nat := leNat ((b.drop o).take k)
    ({ id := v 0 4, flag := v 4 1, attr := v 5 1 % 4, wh := v 6 2, len := v 8 8, off := v 16 4, addr := 0 } : Alloc))
  let ok (e : Alloc) : Bool :=
    decide (e.flag ≤ 4) && decide (0 < e.len) &&
      (decide (e.attr % 2 = 0) || decide (e.flag = 2 ∨ e.flag = 3)) && (decide (e.attr / 2 = 0) || decide (e.flag = 2)) &&
      (decide (e.flag ≠ 4) || decide (e.len % granule = 0)) &&
      (decide (e.flag ≠ 0) || decide (e.wh < s.seq.image.lrooms)) && (decide (e.flag ≠ 1) || decide (e.wh < 20)) &&
      (decide (e.flag ≠ 2) || decide (e.wh < 10))
  if r.2 = 0 ∧ es.all ok = true then some es else none

/-- Ranges of device memory that registers and loads have set aside: staging rings, the shadow region, the export, journal and replay rings, the image,
and the allocation table. -/
def setAside (s : State) (table n : Nat) : List (Nat × Nat) :=
  (upTo 64).map (fun k => (regBits s (rWinStageBase k) 63 12 * 4096, regBits s (rWinStageCtl k) 28 24 * regBits s (rWinStageCtl k) 23 0 * 4096)) ++
    [(regBits s rAttShadow 63 16 * 65536, regBits s rAttShadowLen 31 0 * 65536),
     (regBits s rAttExport 63 12 * 4096, regBits s rAttExportCtl 23 0 * 4096),
     (regBits s rJrnlBase 63 12 * 4096, regBits s rJrnlCtl 23 0 * 4096),
     (regBits s rRplyBase 63 12 * 4096, regBits s rRplyCtl 23 0 * 4096),
     (regBits s rSchImage 63 6 * 64, leNat ((readBytes s (regBits s rSchImage 63 6 * 64 + 0x10) 8).1)), (table, 32 * n)]

/-- The lowest place for `n` bytes in [lo, hi), aligned to `al`, that meets no taken range. -/
def fitAt (taken : List (Nat × Nat)) (al n hi : Nat) : Nat → Nat → Option Nat
  | 0, _ => none
  | k + 1, a =>
    let a := roundUp a al
    if hi < a + n then none
    else
      match taken.find? (fun t => decide (t.1 < a + n) && decide (a < t.1 + t.2)) with
      | none => some a
      | some t => fitAt taken al n hi k (t.1 + t.2)

/-- The tier of a flag as a range of addresses (Table 6.3): the global zone for stack-global and floating ones. -/
def tierOf (s : State) (flag wh : Nat) : Nat × Nat :=
  if flag = 1 then (apertureBase + 64 * mib * wh, apertureBase + 64 * mib * wh + pinBytes s wh)
  else if flag = 2 then (nearZone s wh, nearZone s wh + nearBytes s wh)
  else (0, nearZone s 0)

/-- Alignment: 2 MiB for a floating allocation and for any whose length is a multiple of it, 4 KiB for others. -/
def alignOf (e : Alloc) : Nat := if e.flag = 4 ∨ e.len % granule = 0 then granule else 4096

/-- Place one allocation that is not a spill part. -/
def placeOne (s : State) (acc : List (Nat × Nat) × List Alloc) (e : Alloc) : Option (List (Nat × Nat) × List Alloc) :=
  if e.flag = 0 then
    let q := getRoom s e.wh
    if e.off + e.len ≤ storeBytes then some (acc.1, acc.2 ++ [{ e with addr := storeAddr q.floor q.pos e.off }]) else none
  else
    let t := tierOf s e.flag e.wh
    (fitAt acc.1 (alignOf e) e.len t.2 (acc.1.length + 2) t.1).map (fun a => (acc.1 ++ [(a, e.len)], acc.2 ++ [{ e with addr := a }]))

def placeAll (s : State) : List Alloc → List (Nat × Nat) × List Alloc → Option (List (Nat × Nat) × List Alloc)
  | [], acc => some acc
  | e :: es, acc => (placeOne s acc e).bind (placeAll s es)

/-- A swap slot (R138). -/
def swapSlotBytes : Nat := 2112 * 1024

/-- Swap slots of the rooms not resident in turn 0, in ascending logical room. -/
def placeSwaps (s : State) : List Nat → List (Nat × Nat) → List (Nat × Nat) → Option (List (Nat × Nat) × List (Nat × Nat))
  | [], taken, acc => some (taken, acc)
  | r :: rs, taken, acc =>
    let t := tierOf s 2 (getRoom s r).floor
    (fitAt taken 64 swapSlotBytes t.2 (taken.length + 2) t.1).bind (fun a => placeSwaps s rs (taken ++ [(a, swapSlotBytes)]) (acc ++ [(r, a)]))

/-- Bytes of a floor's near zone that nothing takes. -/
def nearFree (s : State) (taken : List (Nat × Nat)) (f : Nat) : Nat :=
  let lo := nearZone s f
  let hi := lo + nearBytes s f
  (hi - lo) - taken.foldl (fun n t => n + (min hi (t.1 + t.2) - max lo t.1)) 0

/-! ### The pantry (R252 to R255) -/

/-- The pantry plan of a logical room where it keeps to R252 and R254: slots and addresses in whole lines, the descriptor in the near zone of the room's
floor, and a spill part on that floor of PLANNED slots (log 160). -/
def pantryOf (s : State) (es : List Alloc) (r : Nat) : Option (PantryPlan × Alloc) :=
  (Config.pantryPlan s.seq.image.digest r).bind (fun p =>
    let f := (getRoom s r).floor
    (es.find? (fun e => decide (e.id = p.spill))).bind (fun e =>
      if e.flag = 2 ∧ 2 ≤ e.attr ∧ e.wh = f ∧ 0 < p.slotBytes ∧ p.slotBytes % 64 = 0 ∧ p.slotBytes < 2 ^ 32 ∧ p.planned < 65536 ∧
          e.len = p.planned * p.slotBytes ∧ p.desc % 64 = 0 ∧ p.log % 64 = 0 ∧ 0 < p.logCap ∧ p.logCap < 2 ^ 32 ∧
          nearZone s f ≤ p.desc ∧ p.desc + 64 ≤ nearZone s f + nearBytes s f then some (p, e)
      else none))

/-- The slot size of a spill part, one line where no room's plan names it. -/
def spillSlot (s : State) (es : List Alloc) (e : Alloc) : Nat :=
  (((allRooms s).findSome? (fun r => (pantryOf s es r).bind (fun x => if x.2.id = e.id then some x.1.slotBytes else none)))).getD 64

/-- The slots granted of a spill part of `n` planned ones: all of them, or their share of what the floor has left (R255). -/
def grantSlots (n free need : Nat) : Nat := if need ≤ free then n else n * free / need

/-- Spill parts, placed last at their granted size (R255), in whole slots. -/
def placeSpills (s : State) (all : List Alloc) (free need : Nat → Nat) : List Alloc → List (Nat × Nat) × List (Alloc × Nat) → List (Nat × Nat) × List (Alloc × Nat)
  | [], acc => acc
  | e :: es, acc =>
    let slot := spillSlot s all e
    let n := grantSlots (e.len / slot) (free e.wh) (need e.wh) * slot
    let t := tierOf s 2 e.wh
    match fitAt acc.1 64 n t.2 (acc.1.length + 2) t.1 with
    | some a => placeSpills s all free need es (acc.1 ++ [(a, n)], acc.2 ++ [({ e with addr := a }, n)])
    | none => placeSpills s all free need es (acc.1, acc.2 ++ [({ e with addr := t.1 }, 0)])

/-- A copy of sections 3 to 6 in stack-near memory on each of the floors (R126). -/
def placeCopies (s : State) (n : Nat) : List Nat → List (Nat × Nat) → List (Nat × Nat) → Option (List (Nat × Nat) × List (Nat × Nat))
  | [], taken, acc => some (taken, acc)
  | f :: fs, taken, acc =>
    let t := tierOf s 2 f
    (fitAt taken 64 n t.2 (taken.length + 2) t.1).bind (fun a => placeCopies s n fs (taken ++ [(a, n)]) (acc ++ [(f, a)]))

/-- A placement: allocations in table order, copies of the programs, swap slots, and granted sizes. -/
structure Placed where
  allocs : List Alloc
  copies : List (Nat × Nat)
  swaps : List (Nat × Nat)
  grants : List (Nat × Nat)
  deriving DecidableEq, Repr

/-- Place every allocation, none where they do not fit (R183, R400). -/
def placement (s : State) (es : List Alloc) (table n : Nat) : Option Placed :=
  let first := es.filter (fun e => decide (e.attr < 2))
  let spills := es.filter (fun e => decide (2 ≤ e.attr))
  if 256 < (es.filter (fun e => decide (e.flag = 4))).length ∨ es.any (fun e => decide (e.flag = 4 ∧ 65535 < e.len / granule)) = true then none
  else
    match placeAll s first (setAside s table n, []) with
    | none => none
    | some p =>
      match (placeCopies s s.seq.image.copy.length (upTo 10) p.1 []).bind (fun c =>
        (placeSwaps s ((allRooms s).filter (fun r => decide (0 < (getRoom s r).turn))) c.1 []).map (fun w => (c.2, w))) with
      | none => none
      | some (copies, w) =>
        let free := nearFree s w.1
        let need (f : Nat) : Nat := (spills.filter (fun e => decide (e.wh = f))).foldl (fun k e => k + e.len) 0
        let z := placeSpills s es free need spills (w.1, [])
        let byId (e : Alloc) : Alloc := ((p.2 ++ z.2.map (fun x => x.1)).find? (fun x => decide (x.id = e.id))).getD e
        some { allocs := es.map byId, copies := copies, swaps := w.2, grants := z.2.map (fun x => (x.1.id, x.2)) }

/-- Bytes an entry holds: a spill part's granted size, any other's length. -/
def grantOf (p : Placed) (e : Alloc) : Nat := ((p.grants.find? (fun g => decide (g.1 = e.id))).map (fun g => g.2)).getD e.len

/-- LOG_TOTAL of a pantry descriptor (Table 10.1). -/
def logTotal (s : State) (p : PantryPlan) : Nat := memNat s (p.desc + 0x1C) 4

/-- Firmware writes its fields of every room's pantry descriptor and notes the drop records already there (R254, R255, R261). -/
def writePantries (s : State) (p : Placed) : State :=
  let ps := (allRooms s).filterMap (fun r => (pantryOf s p.allocs r).map (fun x => (r, x.1, x.2)))
  let s := ps.foldl (fun s x =>
    (writeBytes s x.2.1.desc (leBytes 8 x.2.2.addr ++ leBytes 4 x.2.1.slotBytes ++ leBytes 2 x.2.1.planned ++
      leBytes 2 (grantOf p x.2.2 / x.2.1.slotBytes) ++ leBytes 8 x.2.1.log ++ leBytes 4 x.2.1.logCap)).1) s
  { s with job := { s.job with dropsRead := ps.map (fun x => (x.1, logTotal s x.2.1)) } }

/-- Take a placement: ADDRESS of each entry is written to the table, each floor gets its copy of
the programs, each pantry descriptor its firmware fields, the floating map names the floating ones at home, and ranges are reserved (R151,
R152, R156). -/
def takePlaced (s : State) (p : Placed) (table : Nat) : State :=
  let s := (p.allocs.zipIdx).foldl (fun s e => writeNat s (table + 32 * e.2 + 24) 8 e.1.addr) s
  let fl := p.allocs.filter (fun e => decide (e.flag = 4))
  let s := (upTo 256).foldl (fun s i =>
    match fl[i]? with
    | some e => regSet (regSet s (rCelFloatA i) (BitVec.ofNat 64 (e.addr / granule + (e.len / granule) * 2 ^ 20))) (rCelFloatB i) 0
    | none => regSet (regSet s (rCelFloatA i) 0) (rCelFloatB i) 0) s
  let s := p.copies.foldl (fun s c => (writeBytes s c.2 s.seq.image.copy).1) s
  let s := { s with
    cel := { s.cel with
      allocs := (p.allocs.filter (fun e => decide (e.flag ≠ 4))).map (fun e => (e.addr, grantOf p e)) ++
        p.copies.map (fun c => (c.2, s.seq.image.copy.length)) ++ p.swaps.map (fun w => (w.2, swapSlotBytes))
      packed := (p.allocs.filter (fun e => decide (e.attr % 2 = 1))).map (fun e => e.addr)
      moves := [] }
    job := { s.job with allocs := p.allocs, swaps := p.swaps, copies := p.copies, grants := p.grants, table := table } }
  writePantries s p

/-- The drop records of a room written since firmware last read LOG_TOTAL, `n` up to it (R254). -/
def dropBytes (s : State) (p : PantryPlan) (total n : Nat) : List Byte :=
  ((upTo n).map (fun i => (readBytes s (p.log + (total + 2 ^ 32 - n + i) % 2 ^ 32 % p.logCap * 8) 8).1)).flatten

/-- After the commit release of step n, firmware reads LOG_TOTAL and the new drop records of every pantry descriptor and journals them (R261, Table 13.6);
a room with none gets no record (log 160). -/
def journalDrops (s : State) (n : Nat) : State :=
  s.job.dropsRead.foldl (fun s x =>
    match pantryOf s s.job.allocs x.1 with
    | none => s
    | some (p, _) =>
      let s := noteFetch s p.desc 64 unitSch
      let total := logTotal s p
      let d := min ((total + 2 ^ 32 - x.2) % 2 ^ 32) p.logCap
      if d = 0 then s
      else
        let s := journalAppend s 7 1 n (leBytes 2 x.1 ++ leBytes 2 d ++ leBytes 4 total ++ zeros 8 ++ dropBytes s p total d)
        { s with job := { s.job with dropsRead := smSet 0 s.job.dropsRead x.1 total } }) s

end Sys2Proof.Machine
end

