-- ==== Sys2Proof/Machine/Barrier.lean ====
section
/-!
DEFINITION. Sync points and barriers (R122, R127 to R132, R137, R138, R346, R365), and what their releases bring about.
-/
namespace Sys2Proof.Machine

def codeBarrierTimeout : Nat := 0x0163
def codeSwapFailed : Nat := 0x0165

/-! ### The sync point awaited -/

def curSync (s : State) : Option SyncEnt := syncOf s s.seq.sync

/-- The barrier awaited, while the step runs. -/
def curBarrier (s : State) : Option SyncEnt :=
  match curSync s with
  | some y => if y.scope = 2 ∧ schState s = 3 ∧ s.seq.stopped = false then some y else none
  | none => none

def tPlanNow (s : State) : Nat := s.seq.tPlan.getD s.now

/-- Whether this module's rooms have all arrived; a sync point that ends no phase awaits no room. -/
def roomsArrived (s : State) (y : SyncEnt) : Bool := !s.seq.inPhase || allArrived s y

def isClose (s : State) (y : SyncEnt) : Bool := closeEn s && decide (y.id = regBits s rLdrJob 15 0)
def isPlan (s : State) (y : SyncEnt) : Bool := decide (jobCap s ≠ 0 ∧ y.id = regBits s rLdrMigCtl 31 16)

/-- Whether the batch of the step in progress is delivered (R30, R388): every staging session of the module has had its part accepted. -/
def batchReady (s : State) : Bool :=
  (upTo 64).all (fun k => decide (regBits s (rWinStageCtl k) 28 24 = 0) || (getSess s k).accepted.any (fun a => decide (a.2 = stepNo s)))

/-- The conditions beside R129's under which a module arrives: at a start barrier (R30, R119, R154, R346, R405), at the close barrier (R208) and at
the close of an RS_DIRECT (R324), and at a commit barrier (R212, R238, R278, R341, R406, R409). -/
def mayArrive (s : State) (y : SyncEnt) : Bool :=
  (if y.role = 1 then
    s.cel.moves.isEmpty && shadowReady s && batchReady s && s.seq.everLocked && replayReady s (stepNo s) else true) &&
  (if isClose s y then !(awaiting s 5) && !(partialsOut s) else true) &&
  (if s.col.live.any (fun c => decide (c.kind = 3 ∧ c.close = y.id)) then !(partialsOut s) else true) &&
  (if y.role = 2 then cellarsReady s && copiesDone s && denseReady s && journalSafe s (stepNo s) && epochReady s else true)

/-! ### The tree (R129) -/

def childrenOf (s : State) (y : SyncEnt) : List Nat :=
  ((upTo y.fanin).map (fun i => rank s * y.fanin + 1 + i)).filter (fun r => decide (r < s.seq.image.modules))

/-- Whether rank `r` lies in the subtree of rank `c`, with a fuel of the tree's depth. -/
def underRank (fanin c : Nat) : Nat → Nat → Bool
  | 0, r => decide (r = c)
  | k + 1, r => decide (r = c) || (decide (c < r) && decide (0 < fanin) && underRank fanin c k (treeParent fanin r))

def subtree (s : State) (y : SyncEnt) (c : Nat) : List Nat := (upTo s.seq.image.modules).filter (underRank y.fanin c 17)

/-! ### Barrier data (Table 14.7) -/

def proposalBytes (p : Proposal) : List Byte := leBytes 8 (p.row + p.table * 2 ^ 40) ++ leBytes 2 p.target ++ leBytes 2 p.source ++ zeros 4

def proposalsAt (b : List Byte) (n : Nat) : List Proposal :=
  (chunks 16 n b).map (fun e =>
    let w := leNat (e.take 8)
    { table := nbits w 55 40, row := nbits w 39 0, target := leNat ((e.drop 8).take 2), source := leNat ((e.drop 10).take 2) })

def arriveBytes (a : Arrival) : List Byte :=
  let v := a.sw.getD (0, 0)
  leBytes 1 a.req ++ leBytes 1 a.tau ++ leBytes 1 (b2n a.drained + 2 * b2n a.sw.isSome) ++ zeros 1 ++ leBytes 2 v.1 ++ zeros 2 ++ leBytes 8 v.2 ++
    leBytes 8 a.until_ ++ leBytes 4 a.props.length ++ zeros 4 ++ (a.props.map proposalBytes).flatten

def swAt (b : List Byte) (flags tbl ver : Nat) : Option (Nat × Nat) :=
  if leNat ((b.drop flags).take 1) / 2 % 2 = 1 then some (leNat ((b.drop tbl).take 2), leNat ((b.drop ver).take 8)) else none

def arrivalOf (b : List Byte) (ranks : List Nat) : Arrival :=
  let n (o k : Nat) : Nat := leNat ((b.drop o).take k)
  { req := n 0 1, tau := n 1 1, sw := swAt b 2 4 8, drained := decide (n 2 1 % 2 = 1), props := proposalsAt (b.drop 32) (n 24 4), ranks := ranks,
    until_ := n 16 8 }

def noticeBytes (n : Notice) : List Byte :=
  let v := n.sw.getD (0, 0)
  let lst := (n.absent.map (leBytes 2)).flatten
  leBytes 8 n.release ++ leBytes 1 n.k ++ leBytes 1 n.tau ++ leBytes 1 (b2n n.drained + 2 * b2n n.sw.isSome) ++ zeros 1 ++ leBytes 2 v.1 ++ leBytes 8 v.2 ++
    zeros 2 ++ leBytes 4 n.absent.length ++ leBytes 4 n.plan.length ++ lst ++ zeros (roundUp lst.length 16 - lst.length) ++ (n.plan.map proposalBytes).flatten

def noticeOf (sync : Nat) (b : List Byte) : Notice :=
  let n (o k : Nat) : Nat := leNat ((b.drop o).take k)
  let a := n 24 4
  { sync := sync, release := n 0 8, k := n 8 1, tau := n 9 1, sw := swAt b 10 12 14, drained := decide (n 10 1 % 2 = 1),
    absent := (upTo a).map (fun i => n (32 + 2 * i) 2), plan := proposalsAt (b.drop (32 + roundUp (2 * a) 16)) (n 28 4) }

/-- Send a barrier transfer to a rank on two links at once, TIME_LINK and BACKUP (R365). -/
def sendBarrier (s : State) (to_ sub sync : Nat) (data : List Byte) : State :=
  let t := mkTransfer s 0 to_ 0 8 0 0 (leBytes 1 sub ++ zeros 1 ++ leBytes 2 sync) data
  let go (s : State) (l : Nat) : State := sendXfer s { t := t, via := if linkState s l = 2 then some l else none }
  go (go s (regBits s rFabTimeCfg 13 8)) (regBits s rFabTimeCfg 19 14)

/-- Send to every child in a tree. -/
def sendDown (s : State) (y : SyncEnt) (sub sync : Nat) (data : List Byte) : State :=
  (childrenOf s y).foldl (fun s r => sendBarrier s r sub sync data) s

/-- An abort goes on in the commit barrier's tree (R132): up while it names no stop cycle, down once it does. -/
def passAbort (s : State) : State :=
  match s.seq.abort, commitSync s with
  | some a, some y =>
    if a.sent then s
    else
      let data := leBytes 2 a.code ++ leBytes 2 a.origin ++ zeros 4 ++ leBytes 8 (a.stop.getD 0)
      let s := { s with seq := { s.seq with abort := some { a with sent := true } } }
      if a.stop.isSome then sendDown s y 3 y.id data else sendBarrier s (treeParent y.fanin (rank s)) 3 y.id data
  | _, _ => s

/-! ### Arrivals (R122, R129, R137, R228, R229, R235, R236) -/

/-- What an arrival carries where the UNTIL of its subtree are not equal, for the root to see (R346, log 158). -/
def untilUnequal : Nat := 2 ^ 64 - 1

/-- Merge two subtrees' arrivals. -/
def mergeArrival (cap : Nat) (a b : Arrival) : Arrival :=
  { req := max a.req b.req, tau := max a.tau b.tau, sw := if a.sw = b.sw then a.sw else none, drained := a.drained && b.drained,
    props := mergeProposals cap [a.props, b.props], ranks := a.ranks ++ b.ranks, until_ := if a.until_ = b.until_ then a.until_ else untilUnequal }

/-- What this module's own arrival carries, and the samples that taking it makes. A stretch request and a turn count ride only on an arrival at a commit
barrier (R132). -/
def ownArrival (s : State) (y : SyncEnt) : State × Arrival :=
  let p := if isPlan s y then takeProposals s else (s, [])
  let s := p.1
  let s := if y.role = 2 then
    let s := regPut s rSchTurns 13 8 (tauMod s)
    sampleFloats { s with ldr := { s.ldr with retiring := slotsIn s 4 } } else s
  let commit (n : Nat) : Nat := if y.role = 2 then n else 0
  (s, { req := commit (satTo 16 (regBits s rSchStretch 12 8)), tau := commit (max 1 (tauMod s)), sw := if y.role = 2 ∧ replaying s = false then s.ldr.switch else none,
        drained := drainedNow s, props := p.2, ranks := [rank s],
        until_ := if y.role = 1 ∧ s.job.restored then (if replaying s then (regGet s rReplayUntil).toNat else s.job.first - 1) else 0 })

/-- The arrivals of children that have come for the barrier awaited. -/
def childArrivals (s : State) (y : SyncEnt) : List (Nat × Arrival) :=
  (s.seq.early.filter (fun x => decide (argNat x 0 1 = 1 ∧ argNat x 2 2 = y.id ∧ x.step = stepNo s ∧ x.srank ∈ childrenOf s y))).map (fun x =>
    (x.srank, arrivalOf x.data (subtree s y x.srank)))

def ownEntry (s : State) : List (Nat × Arrival) := s.seq.barrier.children

/-- The ranks that the recorded release of a replay lists absent (Table 13.4). -/
def recordedAbsent (s : State) (y : SyncEnt) : Option (List Nat × Nat) := if replaying s ∧ y.policy = 1 then replayAbsent s y.id else none

/-- Whether a child's whole subtree is listed absent, so that its arrival is not awaited. -/
def excused (s : State) (y : SyncEnt) (r : Nat) : Bool :=
  match recordedAbsent s y with
  | some (l, _) => (subtree s y r).all (fun q => decide (q ∈ l))
  | none => false

/-- Whether a replay's record lists this module absent, so that it counts as absent whether or not it arrives (Table 13.4). -/
def listedAbsent (s : State) (y : SyncEnt) : Bool := (recordedAbsent s y).any (fun x => decide (rank s ∈ x.1))

/-- Everything that has arrived here, merged; what a replay lists absent is left out. -/
def mergedArrival (s : State) (y : SyncEnt) : Option Arrival :=
  let own := if listedAbsent s y then [] else ownEntry s
  match (own ++ (childArrivals s y).filter (fun k => !(excused s y k.1))).map (fun x => x.2) with
  | [] => none
  | a :: as => some (as.foldl (mergeArrival (jobCap s)) a)

/-- Forward the subtree's arrival once this module and all its children have arrived. The root aborts the step where replay bounds are unequal (R346). -/
def forwardArrival (s : State) (y : SyncEnt) : State :=
  let b := s.seq.barrier
  let kids := childArrivals s y
  let own := b.own.isSome || listedAbsent s y
  if b.forwarded.isSome ∨ own = false ∨ (childrenOf s y).any (fun r => !(kids.any (fun k => decide (k.1 = r))) && !(excused s y r)) = true then s
  else
    match mergedArrival s y with
    | none => s
    | some m =>
      let s := { s with seq := { s.seq with barrier := { b with forwarded := some m, rootAt := if rank s = 0 then some s.now else none } } }
      if rank s = 0 then (if m.until_ = untilUnequal then journalFault s codeReplayDiverged [] else s)
      else sendBarrier s (treeParent y.fanin (rank s)) 1 y.id (arriveBytes m)

/-! ### Lateness (R130) -/

/-- Record a release in SCH_LAST_SYNC and SCH_LATE_TOTAL. -/
def noteSync (s : State) (y : SyncEnt) (absent : Bool) (late : Nat) (selfLate : Bool) : State :=
  let w := rSchLastSync
  let s := regPut (regPut (regPut s w 15 0 y.id) w 16 16 (b2n (decide (y.scope = 2)))) w 17 17 (b2n absent)
  let s := regPut (regPut s w 18 18 (b2n selfLate)) w 63 32 (satTo (2 ^ 32 - 1) late)
  if late = 0 then s else regCount (regCount s rSchLateTotal 47 0 late) rSchLateTotal 63 48 1

/-! ### Start barriers -/

/-- In a replay, the rows that the journal records as failed fail from the start barrier on (Table 13.4). -/
def failRecorded (s : State) : State :=
  if !(replaying s) then s
  else (replayFailed s).foldl (fun s p =>
    let d := tableDesc s p.1
    let m := rowMapOf s d
    let place := resolve s d m (curSlot s d) p.2
    if place.home = rank s then failHome s (rowCellar s (placeAddr s d m (curSlot s d) place) / 2) p.1 p.2 else s) s

/-- The logical maps recomputed (R136, R137). Where they change, turn 0 is resident, and each room of a later turn has a swap slot: the one it had, or
one in the lowest free place of its floor (log 142). -/
def remapRooms (s : State) : State :=
  let t := mapRooms s
  if t.rooms = s.rooms then s
  else
    let later := (allRooms t).filter (fun r => decide (0 < (getRoom t r).turn))
    let kept := t.job.swaps.filter (fun w => decide (w.1 ∈ later))
    let new := later.filter (fun r => !(kept.any (fun w => decide (w.1 = r))))
    let t := { t with seq := { t.seq with turn := 0 } }
    match placeSwaps t new (t.cel.allocs ++ setAside t t.job.table t.job.allocs.length) [] with
    | some p => { t with job := { t.job with swaps := kept ++ p.2 }, cel := { t.cel with allocs := t.cel.allocs ++ p.2.map (fun w => (w.2, swapSlotBytes)) } }
    | none => { t with job := { t.job with swaps := kept } }

/-- A start barrier's release in cycle `t`: the agreed stretch code and turn count come into force, with the logical maps under it, the release is the
origin of beats, and the step's update engines begin. -/
def startRelease (s : State) (t : Nat) : State :=
  let s := regPut s rSchStretch 4 0 (regBits s rSchStretch 20 16)
  let s := remapRooms (regPut s rSchTurns 5 0 s.seq.tauNext)
  let s := applyVoltages { s with job := { s.job with restored := false } }
  let s := latchIrq (failRecorded (denseStart s)) 33
  { s with seq := { s.seq with t0 := t } }

/-! ### Commit barriers -/

/-- Each running-maximum stream latches its exponent (R50). -/
def latchStreams (s : State) : State :=
  { s with seq := { s.seq with streams := s.seq.streams.map (fun x => (x.1, latchStream x.2)) } }

/-- Staging slot n mod k unlocks, and its feeder is told (R389). -/
def unlockStaging (s : State) (n : Nat) : State :=
  (upTo 64).foldl (fun s k =>
    let kk := regBits s (rWinStageCtl k) 28 24
    let lk := regBits s (rWinStageCtl k) 63 48
    if kk = 0 ∨ lk.testBit (n % kk) = false then s
    else
      let s := regPut s (rWinStageCtl k) 63 48 (lk - 2 ^ (n % kk))
      let s := modSess s k (fun e => { e with accepted := e.accepted.filter (fun a => decide (a.2 ≠ n)) })
      sendNotice s k 3 (n % kk) (n + kk)) s

/-- The switch that a commit applies: the agreed one, or in a replay the recorded one, whose version must be LOADED (R347). -/
def commitSwitch (s : State) (n : Notice) : State × Option (Nat × Nat) :=
  match (if replaying s then replaySwitch s (stepNo s) else none) with
  | some (some v) =>
    if (slotOf s (tableDesc s v.1) v.2 [2]).isSome then (s, some v)
    else (journalFault s codeReplayDiverged (replayItems s 3 (stepNo s) (fun _ => true)), none)
  | some none => (s, none)
  | none => (s, n.sw)

/-- Replay ends at the commit release of step UNTIL (R344). -/
def endReplay (s : State) (n : Nat) : State :=
  if replaying s ∧ n = (regGet s rReplayUntil).toNat then regPut (regPut s rReplay 1 1 0) rReplay 0 0 0 else s

/-- A commit barrier's release: step n commits (R26, R50, R122, R137, R210, R228, R229, R234, R237, R243, R276, R389, R403, R421). -/
def commitRelease (s : State) (nt : Notice) : State :=
  let n := stepNo s
  let s := journalCommit s n nt.k nt.tau nt.sw nt.drained nt.release
  let s := commitPlan (commitRows s)
  let sw := commitSwitch s nt
  let s := match sw.2 with | some v => applySwitch sw.1 v | none => sw.1
  let s := restoreRows (reclaim s nt.drained) n
  let s := flushUpdates (commitColls (commitDense s))
  let s := loadRecords s n
  let s := { regPut s rSchStretch 20 16 nt.k with
    seq := { s.seq with tauNext := max 1 nt.tau, early := s.seq.early.filter (fun x => decide (n < x.step)) } }
  let s := endReplay s n
  let s := regSet s rSchStep (BitVec.ofNat 64 (n + 1))
  let s := latchStreams (beginEpoch s n)
  let s := verSums (resetStepSets (forwardHeld s))
  let s := startPrefetches s
  let s := ageHeld (startFloats s)
  let s := { s with
    numSeen := [], fab := { s.fab with foreign := false, barriers := s.fab.barriers.filter (fun b => decide (n < b.2.2.2)) }
    por := { s.por with lockSeen := false } }
  let s := journalDrops (stretchPolicy (unlockStaging s n)) n
  latchIrq (noticeRoles s [1, 2] 1 nt.release 0) 34

/-! ### Releases -/

/-- Whether a notice's absent list differs from the module's own RELEASE record (R347). -/
def absentDiverges (s : State) (y : SyncEnt) (absent : List Nat) : Bool :=
  match recordedAbsent s y with
  | some (l, _) => decide (l ≠ absent)
  | none => false

/-- What every module does at a barrier's release. -/
def releaseBarrier (s : State) (y : SyncEnt) (nt : Notice) : State :=
  let plan := tPlanNow s
  let late := nt.release - plan
  let selfLate := match s.seq.barrier.own with | some t => decide (plan < t + 2 * horizon s y) | none => true
  let s := noteSync s y (!nt.absent.isEmpty) late selfLate
  let s := noteRelease s (upTo 10)
  let s := if absentDiverges s y nt.absent then 
      journalFault s codeReplayDiverged (replayItems s 2 (stepNo s) (fun b => decide (leNat ((b.drop 0x20).take 2) = y.id))) else s
  let s := journalRelease s y plan nt.release nt.absent
  let s := if isClose s y then closeRelease s nt.absent else s
  let s := closeDirect s y.id nt.absent
  let s := if isPlan s y then
    planRelease s y.id (match (if replaying s then replayPlan s else none) with
      | some rs => rs.map (fun r => { table := r.table, row := r.row, target := r.target, source := r.source })
      | none => nt.plan) else s
  if y.role = 1 then startRelease s nt.release else if y.role = 2 then commitRelease s nt else s

/-- The step goes on from a sync point released in cycle `t`. No phase starts on a module that has not locked since start-up (R119): it stays there. -/
def goOn (s : State) (y : SyncEnt) (t : Nat) : State :=
  if s.seq.everLocked then afterRelease s y.id t else { s with seq := { s.seq with barrier := { s.seq.barrier with released := true } } }

/-- The cycle that a standing notice names. -/
def noticeCycle (s : State) : Nat := match s.seq.barrier.notice with | some n => n.release | none => s.now

/-- In a replay the unit reads the records of the step in progress as firmware loads them, before its start barrier (R346). -/
def readReplay (s : State) : State :=
  if replaying s ∧ s.seq.abort = none then replayRead (stepNo s) (replayFuel s) s else s

/-- BARRIER_ARRIVAL (R129): the module arrives, once its rooms have and every hold is over, and forwards its subtree's arrival. A module that the
barrier was released without goes on. A module that needs more turns than the image allows cannot run it, and fails (R137). -/
def execBarrierArrival (s : State) : Host.Outcome State Fault Refusal :=
  match curBarrier s with
  | none => .next s
  | some y =>
    if !(roomsArrived s y) then .next s
    else if s.seq.barrier.released then .next (goOn s y (noticeCycle s))
    else if s.seq.barrier.own.isSome then .next s
    else
      let s := if y.role = 1 then readReplay s else s
      if !(mayArrive s y) then .next s
      else if y.role = 2 ∧ (strayFrame s).isSome then .next ((strayFrame s).elim s (strayStop s))
      else if y.role = 2 ∧ s.seq.image.turnsMax < tauMod s then .next (moduleFailure (sendAbort s codeImageMismatch) codeImageMismatch)
      else
        let r := ownArrival s y
        let s := { r.1 with seq := { r.1.seq with barrier := { r.1.seq.barrier with own := some s.now, children := [(rank s, r.2)] } } }
        .next (passAbort (forwardArrival s y))

/-! ### Transfers of barriers -/

/-- Whether a barrier transfer is the first copy of its (SRANK, SUB, SYNC, STEP) (R365). -/
def firstCopy (s : State) (x : Transfer) : Bool := !(s.fab.barriers.any (fun b => decide (b = (x.srank, argNat x 0 1, argNat x 2 2, x.step))))

def noteCopy (s : State) (x : Transfer) : State :=
  { s with fab := { s.fab with barriers := s.fab.barriers ++ [(x.srank, argNat x 0 1, argNat x 2 2, x.step)] } }

/-- Take a barrier transfer of one SUB once. -/
def takeBarrier (s : State) (x : Transfer) (sub : Nat) (act : State → State) : State :=
  if x.kind ≠ 8 ∨ argNat x 0 1 ≠ sub then s
  else deliver s x (fun s => if firstCopy s x then (act (noteCopy s x), some stDone) else (s, some stDone))

/-- BARRIER_ARRIVE_RECEIVE (R129, R236): a child's subtree has arrived. -/
def execBarrierArriveReceive (x : Transfer) (s : State) : Host.Outcome State Fault Refusal :=
  .next (takeBarrier s x 1 (fun s =>
    let s := { s with seq := { s.seq with early := s.seq.early ++ [x] } }
    match curBarrier s with
    | some y => passAbort (forwardArrival s y)
    | none => s))

/-- The notice of the barrier awaited is known. -/
def setNotice (s : State) (n : Notice) : State :=
  noteLate { s with seq := { s.seq with barrier := { s.seq.barrier with notice := some n } } }

/-- The notice of the barrier awaited is known, and goes down the tree. -/
def takeNotice (s : State) (y : SyncEnt) (n : Notice) : State := sendDown (setNotice s n) y 2 y.id (noticeBytes n)

/-- A notice comes before this module has reached its barrier: it goes down the tree at once, and stands until then. -/
def earlyNoticeIn (s : State) (x : Transfer) : State :=
  let s := noteLate { s with seq := { s.seq with early := s.seq.early ++ [x] } }
  match syncOf s (argNat x 2 2) with
  | some y => sendDown s y 2 y.id x.data
  | none => s

/-- BARRIER_NOTICE_RECEIVE (R129): the release notice comes from the parent and goes on to the children. -/
def execBarrierNoticeReceive (x : Transfer) (s : State) : Host.Outcome State Fault Refusal :=
  .next (takeBarrier s x 2 (fun s =>
    match curBarrier s with
    | some y =>
      if y.id = argNat x 2 2 ∧ x.step = stepNo s ∧ s.seq.barrier.notice = none then takeNotice s y (noticeOf y.id x.data)
      else earlyNoticeIn s x
    | none => earlyNoticeIn s x))

/-- BARRIER_ABORT_RECEIVE (R132): an abort on its way up, or down with its stop cycle. The root names the cycle. -/
def execBarrierAbortReceive (x : Transfer) (s : State) : Host.Outcome State Fault Refusal :=
  .next (takeBarrier s x 3 (fun s =>
    let n (o k : Nat) : Nat := leNat ((x.data.drop o).take k)
    if schState s ≠ 3 then s
    else if n 8 8 ≠ 0 then
      (if (s.seq.abort.bind (fun a => a.stop)).isSome then s
       else passAbort { s with seq := { s.seq with abort := some { code := n 0 2, origin := n 2 2, stop := some (n 8 8) } } })
    else if s.seq.abort.isSome then s
    else
      let stop := if rank s = 0 then some (s.now + (match commitSync s with | some y => horizon s y | none => 0)) else none
      passAbort { s with seq := { s.seq with abort := some { code := n 0 2, origin := n 2 2, stop := stop } } }))

/-! ### The root (R129, R131) -/

/-- The notice that the root forms. -/
def rootNotice (s : State) (y : SyncEnt) (release : Nat) (absent : List Nat) : Notice :=
  let a := (mergedArrival s y).getD {}
  { sync := y.id, release := release, absent := absent, k := if y.role = 2 then a.req else 0, tau := if y.role = 2 then a.tau else 1,
    sw := if y.role = 2 then a.sw else none, drained := decide (y.role = 2) && a.drained, plan := if isPlan s y then a.props else [] }

/-- ROOT_DEADLINE (R129): the root holds the whole tree's arrival at or after T_plan − H, and no abort came first. -/
def execRootDeadline (s : State) : Host.Outcome State Fault Refusal :=
  match curBarrier s with
  | none => .next s
  | some y =>
    match s.seq.barrier.rootAt with
    | none => .next s
    | some tc =>
      let h := horizon s y
      if s.seq.barrier.notice.isSome ∨ s.seq.abort.isSome ∨ s.now + h < tPlanNow s then .next s
      else
        let rel := if tc + h ≤ tPlanNow s then tPlanNow s else tc + h
        match recordedAbsent s y with
        | some (l, late) => .next (takeNotice s y (rootNotice s y (max rel (tPlanNow s + late)) l))
        | none => .next (takeNotice s y (rootNotice s y rel []))

/-- TOLERANT_RELEASE (R131): a tolerant barrier incomplete at T_plan + θ releases H later without the missing ranks, which its notice lists. -/
def execTolerantRelease (s : State) : Host.Outcome State Fault Refusal :=
  match curBarrier s with
  | none => .next s
  | some y =>
    if rank s ≠ 0 ∨ y.policy ≠ 1 ∨ s.seq.barrier.notice.isSome ∨ s.seq.barrier.rootAt.isSome ∨ s.seq.abort.isSome ∨ (recordedAbsent s y).isSome ∨
        s.now < tPlanNow s + y.theta then .next s
    else
      let here := ((ownEntry s ++ childArrivals s y).map (fun x => x.2.ranks)).flatten
      let absent := (upTo s.seq.image.modules).filter (fun r => !(here.contains r))
      .next (takeNotice s y (rootNotice s y (tPlanNow s + y.theta + horizon s y) absent))

/-- BARRIER_TIMEOUT (R131): a barrier of the wait policy, or one that a replay makes wait, incomplete at T_plan + BARRIER_LIMIT aborts the step. -/
def execBarrierTimeout (s : State) : Host.Outcome State Fault Refusal :=
  match curBarrier s with
  | none => .next s
  | some y =>
    if rank s ≠ 0 ∨ (y.policy = 1 ∧ (recordedAbsent s y).isNone) ∨ s.seq.barrier.notice.isSome ∨ s.seq.barrier.rootAt.isSome ∨ s.seq.abort.isSome ∨
        s.now < tPlanNow s + s.seq.image.barrierLimit then .next s
    else .next (passAbort (stopFault s rSchFault 16 codeBarrierTimeout unitSch [(y.id, 2)]))

/-- A notice for the barrier awaited that came before the module reached it. -/
def earlyNotice (s : State) (y : SyncEnt) : Option Transfer :=
  s.seq.early.find? (fun x => decide (argNat x 0 1 = 2 ∧ argNat x 2 2 = y.id ∧ x.step = stepNo s))

/-- BARRIER_RELEASE (R129, R130): in the cycle that the notice names, every module releases the barrier, applies the agreed results, and goes on. -/
def execBarrierRelease (s : State) : Host.Outcome State Fault Refusal :=
  match curBarrier s with
  | none => .next s
  | some y =>
    let s := match s.seq.barrier.notice, earlyNotice s y with
      | none, some x => setNotice s (noticeOf y.id x.data)
      | _, _ => s
    match s.seq.barrier.notice with
    | none => .next s
    | some n =>
      if s.seq.barrier.released ∨ s.now < n.release then .next s
      else
        let here := roomsArrived s y
        let s := releaseBarrier s y n
        if here then .next (goOn s y n.release) else .next { s with seq := { s.seq with barrier := { s.seq.barrier with released := true } } }

/-! ### Floor and module sync points (R128) -/

/-- SYNC_RELEASE (R128, R130): T_plan when the last member arrived at least 16 cycles before it, otherwise 16 cycles after the last arrival. -/
def execSyncRelease (s : State) : Host.Outcome State Fault Refusal :=
  match curSync s with
  | none => .next s
  | some y =>
    let rel := if s.seq.lastArrival + 16 ≤ tPlanNow s then tPlanNow s else s.seq.lastArrival + 16
    if y.scope = 2 ∨ schState s ≠ 3 ∨ s.seq.stopped ∨ s.seq.everLocked = false ∨ roomsArrived s y = false ∨ s.now < rel then .next s
    else
      let s := noteSync s y false (rel - tPlanNow s) (decide (tPlanNow s < s.seq.lastArrival + 16))
      let s := noteRelease s (if y.scope = 0 then [y.floor] else upTo 10)
      .next (goOn s y rel)

/-! ### Turns (R138) -/

/-- Whether every physical room has completed PEND with no token outstanding. -/
def turnOver (s : State) (y : SyncEnt) : Bool :=
  (syncMembers s y).all (fun r =>
    let q := getRoom s r
    decide (q.turn ≠ s.seq.turn) || ((decide (q.run = .ended) || decide (q.run = .halted) || decide (q.run = .idle)) &&
      q.toks.all (fun t => decide (t.2.st ≠ .pending))))

/-- TURN_SWAP (R138): at a turn boundary the departing rooms are saved and the next turn's rooms loaded and started; a swap that fails stops the
step. -/
def execTurnSwap (failed : Bool) (s : State) : Host.Outcome State Fault Refusal :=
  match curSync s with
  | none => .next s
  | some y =>
    if !s.seq.inPhase ∨ schState s ≠ 3 ∨ s.seq.stopped ∨ tau s ≤ s.seq.turnsDone + 1 ∨ turnOver s y = false then .next s
    else if failed then .next (stopFault s rSchFault 16 codeSwapFailed unitSch [])
    else
      let b := turnAt s s.seq.phase (s.seq.turnsDone + 1)
      let s := swapRooms s s.seq.phase b
      let s := { s with seq := { s.seq with turn := b, turnsDone := s.seq.turnsDone + 1 } }
      .next (startTurn s s.seq.phase (syncMembers s y))

/-! ### Stopping (R27, R132, R348, R425) -/

/-- STEP_STOP (R132): in the abort's stop cycle every room stops, the step is over, and nothing issues until a restore. A notice already sent stands: a
barrier whose release is due is released first, so that a commit counts and the abort stops the next step. -/
def execStepStop (s : State) : Host.Outcome State Fault Refusal :=
  match s.seq.abort.bind (fun a => a.stop.map (fun t => (a, t))) with
  | none => .next s
  | some (a, t) =>
    if schState s ≠ 3 ∨ s.now < t then .next s
    else
      let s := passAbort (nextOr s (execBarrierRelease s))
      let s := (allRooms s).foldl (fun s r => modRoom s r (fun q => if q.run = .stopped then q else { q with run := .stopped, stopBeat := s.beat })) s
      let s := journalAbort (abandonEpoch (flushUpdates s)) a.code a.origin t
      let s := regPut s rSchState 2 0 (if a.origin = rank s ∧ a.code ≠ 0 then 5 else 4)
      let s := { s with seq := { s.seq with stopped := true, barrier := {}, early := [] } }
      .next (noticeRoles s [1, 2] 2 a.code a.origin)

/-- SCH_CTRL.STOP: an abort with code 0 (R132). -/
def stopStep (s : State) : State := passAbort (sendAbort s 0)

/-- SCH_CTRL_STOP: firmware stops the step. -/
def execSchCtrlStop (s : State) : Host.Outcome State Fault Refusal := .next (stopStep s)

/-! ### Starting (R342, R344) -/

/-- Whether the JOB record of the replay ring, where it holds one, agrees with what is loaded. -/
def jobRecordAgrees (s : State) : Bool :=
  match s.jrnl.read.find? (fun r => decide (r.ty = 1)) with
  | none => true
  | some r =>
    decide (leNat ((r.bs.drop 0x20).take 8) = (regGet s rSchSeed).toNat) && decide (leNat ((r.bs.drop 0x28).take 4) = s.seq.image.modules) &&
      decide ((r.bs.drop 0x30).take 64 = s.seq.image.digest)

/-- SCH_CTRL.START: the module goes to the start barrier of step 0, or of the restored step. Arrivals of children that started before it stay. -/
def startJob (s : State) : State :=
  if schState s ≠ 2 then s
  else if regBits s rJrnlCtl 23 0 = 0 then journalFault s codeJournalFull []
  else
    match phaseAt s 0 with
    | none => s
    | some p =>
      let en := decide (regBits s rReplay 0 0 = 1)
      let t := { regPut (regPut s rSchState 2 0 3) rReplay 1 1 (b2n en) with seq := { s.seq with stopped := false, abort := none } }
      let t := readReplay (openSync t p.startSync 0 t.now)
      match (if jobRecordAgrees t then none else some (replayItems t 1 0 (fun _ => true))) with
      | some items => journalFault s codeReplayDiverged items
      | none => t

/-- SCH_CTRL_START: firmware starts the job. -/
def execSchCtrlStart (s : State) : Host.Outcome State Fault Refusal := .next (startJob s)

end Sys2Proof.Machine
end

