-- ==== Sys2Proof/Machine/Boot.lean ====
section
/-!
DEFINITION. What the boot ROM and Travar verify at start-up and in service mode (R460 to R469): Travar images, configuration parts, repair parts; and
the writing of a repair part.
-/
namespace Sys2Proof.Machine

def flashBytes (s : State) (a n : Nat) : List Byte := smGetList 0 s.sec.flash a n
def flashPut (s : State) (a : Nat) (bs : List Byte) : State := { s with sec := { s.sec with flash := smSetList 0 s.sec.flash a bs } }

/-- A run of some bytes. -/
def cut (b : List Byte) (off n : Nat) : List Byte := (b.drop off).take n

/-- A verification of Table 18.6 failed. -/
def sigFail (s : State) : State := regPut s rSecEvent 0 0 1

/-! ### Travar images (R466) -/

def slotA : Nat := 0x100000
def slotB : Nat := 0x900000

/-- The header and body of a Travar image in some bytes, when its key and signature verify. -/
def travarImage (b : List Byte) : Option (List Byte) :=
  let n := 256 + fld b 0xC 4
  let im := b.take n
  let g := b.drop n
  let len := fld g 1793 2
  if cut b 0 8 = ascii "GK20TRAV" ∧ fld b 0x10 1 ≤ 1 ∧ n ≤ b.length ∧ len ≤ 1280 ∧ digest64 (g.take 1793) = Config.romKey (fld b 0x10 1) ∧
      Config.falconVerify (g.take 1793) (digest64 im) (cut g 1795 len) = true then some im
  else none

/-- A slot's bytes, as many as its header calls for, within its 8 MiB. -/
def slotImage (s : State) (base : Nat) : Option (List Byte) :=
  let n := 256 + fld (flashBytes s base 16) 0xC 4 + 1795 + 1280
  if 0x800000 < n then none else travarImage (flashBytes s base n)

/-- A verified image is copied into SRAM, and its digest alone is in MR0 (R469). -/
def startImage (s : State) (im : List Byte) : State :=
  let s := { s with mem := smSetList 0 (smClear s.mem sramBase 0x600000) sramBase im }
  mrExtend (mrSet s 0 (zeros 64)) 0 (digest64 im)

/-- The boot ROM fails: service mode (R467). -/
def enterService (s : State) : State := { s with mgmt := { s.mgmt with service := true } }

/-- Slot A, or else slot B, is verified and started; none when both fail. -/
def bootTravar (s : State) : State × Bool :=
  let t := secFault (sigFail s) codeFirmwareSig [(0, 1)]
  (slotImage s slotA).elim
    ((slotImage t slotB).elim (enterService (secFault (secFault t codeFirmwareSig [(1, 1)]) codeBootFailed []), false) (fun im => (startImage t im, true)))
    (fun im => (startImage s im, true))

/-! ### Configuration parts (R461, Table 18.4) -/

def factoryAt : Nat := 0
def userAt : Nat := 0x40000
def repairA : Nat := 0x50000
def repairB : Nat := 0x51000

/-- A part of some bytes whose magic, version, length and check word pass. -/
def confPart (b : List Byte) : Option (List Byte) :=
  let len := fld b 0xC 4
  let p := b.take len
  if cut p 0 8 = ascii "GK20CONF" ∧ fld p 8 2 = 1 ∧ 0x5704 ≤ len ∧ len ≤ b.length ∧ crcFold (fld p 0x10 8) (p.take (len - 4)) = fld p (len - 4) 4 then some p
  else none

/-- The factory configuration part. -/
def factoryConf (s : State) : Option (List Byte) :=
  (confPart (flashBytes s factoryAt 0x40000)).filter (fun p => decide (fld p 0xA 2 % 2 = 1))

/-- A user part that carries the factory's serial number and the owner's signature (R461). -/
def userConf (fac : List Byte) (b : List Byte) : Option (List Byte) :=
  (confPart b).filter (fun p =>
    let key := cut p 0x5700 1793
    decide (fld p 0xA 2 % 2 = 0) && decide (cut p 0x18 8 = cut fac 0x18 8) && decide (digest64 key = cut fac 0x5700 64) && decide (fld p 0x5E08 2 ≤ 1280) &&
      Config.falconVerify key (digest64 (p.take 0x5700)) (cut p 0x5E10 (fld p 0x5E08 2)))

/-! ### The factory's identity area (Table 18.4) -/

def seedCheck (fac : List Byte) : List Byte := cut fac 0x5740 64
def helperData (fac : List Byte) : List Byte := cut fac 0x5780 4096
def certificate (fac : List Byte) : List Byte := cut fac 0x6782 (fld fac 0x6780 2)
/-- The identity public key that the certificate holds after SERIAL (R462). -/
def identityKey (fac : List Byte) : List Byte := cut (certificate fac) 8 1793

/-! ### Repair parts (R463, Table 18.5) -/

/-- A repair part of 4 KiB whose magic and check word pass. -/
def repairOk (p : List Byte) : Bool :=
  decide (cut p 0 8 = ascii "GK20RPMP") && decide (crcFold (fld p 8 8) (p.take 4092) = fld p 4092 4)

/-- A user repair part also carries the identity key's signature. -/
def repairSigned (fac p : List Byte) : Bool :=
  repairOk p && decide (fld p 0x700 2 ≤ 1280) && Config.falconVerify (identityKey fac) (digest64 (p.take 0x700)) (cut p 0x708 (fld p 0x700 2))

/-- The factory's repair part, at the next 4 KiB of the factory copy after its configuration part (log 65). -/
def factoryRepair (s : State) (fac : List Byte) : Option (List Byte) :=
  let p := flashBytes s (factoryAt + roundUp fac.length 4096) 4096
  if repairOk p then some p else none

/-- The slot of the newer valid user repair part, 0 A or 1 B (R464). -/
def repairSlot (s : State) (fac : List Byte) : Option Nat :=
  let a := flashBytes s repairA 4096
  let b := flashBytes s repairB 4096
  if repairSigned fac a then (if repairSigned fac b ∧ fld a 8 8 < fld b 8 8 then some 1 else some 0)
  else if repairSigned fac b then some 1
  else none

/-! ### The repair map in memory (R422, R463) -/

def repPut (s : State) (off v : Nat) : State :=
  { s with sec := { s.sec with rep := smSet 0 s.sec.rep off (BitVec.ofNat 8 v), repNew := true } }

def setActive (s : State) (f p : Nat) (on : Bool) : State :=
  let off := 0x10 + 17 * f + p / 8
  let b := repByte s off
  if b.testBit (p % 8) = on then s else repPut s off (if on then b + 2 ^ (p % 8) else b - 2 ^ (p % 8))

/-- A room retires: a spare position of its floor takes its place, where there is one (R18, Table 16.5). -/
def retireRoom (s : State) (k : Nat) : State :=
  let f := k / 256
  let s := repPut s (roomByteAt f (k % 256)) (roomByte s f (k % 256) % 128 + 128)
  let wasActive := posActive s f (k % 256)
  let s := setActive s f (k % 256) false
  match sparePos s f with
  | some p => if wasActive then setActive s f p true else s
  | none => s

/-- Apply a repair action to the map. -/
def applyRepair (s : State) (r : Repair) : State :=
  match r with
  | .array k a =>
    if watchStandsIn s (k / 256) (k % 256) then retireRoom s k
    else repPut s (roomByteAt (k / 256) (k % 256)) (roomByte s (k / 256) (k % 256) / 128 * 128 + a % 64)
  | .room k => retireRoom s k
  | .channel id =>
    let off := 0x60A + id / 8
    if (repByte s off).testBit (id % 8) then s else repPut s off (repByte s off + 2 ^ (id % 8))

/-- Whether a channel is marked out (R182). -/
def channelOut (s : State) (id : Nat) : Bool := (repByte s (0x60A + id / 8)).testBit (id % 8)

/-- Apply the actions that wait (R418). -/
def applyRepairs (s : State) : State :=
  let s := s.sec.pendRep.foldl applyRepair s
  regPut { s with sec := { s.sec with pendRep := [] }, seq := { s.seq with failedRooms := [] } } rCfgRepair 33 33 0

/-- Write the repair map as a new part, with GENERATION + 1 and the identity key's signature, over the older slot (R463). A write that fails sets
WRITE_ERR and is tried again at the next restore. -/
def writeRepair (s : State) (ok : Bool) : State :=
  match idSeed s with
  | none => s
  | some seed =>
    if s.sec.repNew = false then s
    else if ok = false then regPut s rCfgRepair 34 34 1
    else
      let body := smGetList 0 s.sec.rep 0 0x700
      let gen := fld body 8 8 + 1
      let head := body.take 8 ++ leBytes 8 gen ++ body.drop 16
      let sig := (Config.falconSign s.freeCount seed (digest64 head)).take 1280
      let p := head ++ leBytes 2 sig.length ++ zeros 6 ++ sig ++ zeros (1280 - sig.length) ++ zeros 1012
      let p := p ++ leBytes 4 (crcFold gen p)
      let slot := if regBits s rCfgStatus 2 2 = 1 then 0 else 1 - regBits s rCfgRepair 32 32
      let s := flashPut s (if slot = 0 then repairA else repairB) p
      let s := { s with freeCount := s.freeCount + 1, sec := { s.sec with rep := smSetList 0 [] 0 p, repNew := false } }
      regPut (regPut (regPut s rCfgRepair 31 0 (gen % 2 ^ 32)) rCfgRepair 32 32 slot) rCfgStatus 2 2 0

end Sys2Proof.Machine
end

