-- ==== Sys2Proof/Machine/Irq.lean ====
section
/-!
DEFINITION. The interrupt controller (R431 to R436, Table 17.2).
-/
namespace Sys2Proof.Machine

/-! ### Levels (Table 17.2) -/

def anyBit (s : State) (n : Nat) (reg : Nat → Nat) (b : Nat) : Bool := (upTo n).any (fun i => decide (regBits s (reg i) b b = 1))

/-- Sources 0 to 5. -/
def levelMp (s : State) (i : Nat) : Bool :=
  if i < 4 then decide (regBits s rMpCoreStat (4 + i) (4 + i) = 1)
  else if i = 4 then decide (regBits s rMpSram 23 0 ≠ 0)
  else if i = 5 then decide (regBits s rMpSram 39 24 ≠ 0)
  else false

/-- Sources 16 to 27. -/
def levelObs (s : State) (n : Nat) : Bool :=
  if n < 24 then decide (n ∈ s.irq.latched)
  else if n = 24 then decide (regBits s rEvrPtr 15 0 ≠ regBits s rEvrCursor 15 3 * 8)
  else if n = 25 then decide (regBits s rEvrStat 47 32 ≠ 0)
  else if n = 26 then anyBit s 32 (fun k => rCvu k 0x18) 17
  else if n = 27 then anyBit s 32 (fun k => rCvu k 0x18) 18
  else false

/-- 16-B units between TAIL and HEAD of a ring. -/
def ringFill (head tail cap : Nat) : Nat := if cap = 0 then 0 else (head + cap - tail % cap) % cap

/-- Sources 32 to 39. -/
def levelSch (s : State) (n : Nat) : Bool :=
  if n = 32 then decide (regBits s rSchFault 16 16 = 1)
  else if n = 35 then decide (schState s = 4 ∨ schState s = 5)
  else if n = 36 then
    let cap := 256 * regBits s rJrnlCtl 23 0
    decide (cap ≠ 0) && decide (3 * cap ≤ 4 * ringFill (regBits s rJrnlPtr 31 0) (regBits s rJrnlPtr 63 32) cap)
  else if n = 37 then
    decide (regBits s rReplay 1 1 = 1) && decide (ringFill (regBits s rRplyPtr 31 0) (regBits s rRplyPtr 63 32) (256 * regBits s rRplyCtl 23 0) < 4096)
  else if n = 38 then decide (regBits s rSchOffset 32 32 = 1)
  else decide ((n = 33 ∨ n = 34 ∨ n = 39) ∧ n ∈ s.irq.latched)

/-- Sources of floor `f`. -/
def levelFloor (s : State) (f i : Nat) : Bool :=
  match i with
  | 0 => decide (regBits s (rLdrFault f) 16 16 = 1)
  | 1 => decide (16 * (f + 3) + 1 ∈ s.irq.latched)
  | 2 => decide (regBits s (rUpdFault f) 16 16 = 1)
  | 3 => decide (regBits s (rUpdWatchLast f) 24 24 = 1)
  | 4 => decide (regBits s (rMemFault (2 * f)) 21 21 = 1)
  | 5 => decide (regBits s (rMemFault (2 * f + 1)) 21 21 = 1)
  | 6 => cellarHot s (2 * f)
  | 7 => cellarHot s (2 * f + 1)
  | 8 => decide (16 * (f + 3) + 8 ∈ s.irq.latched)
  | 9 => s.rooms.any (fun r => decide (r.2.floor = f ∧ r.2.run = .stopped))
  | 10 => floorHot s f
  | _ => false

/-- Sources 208 to 271. -/
def levelHost (s : State) (n : Nat) : Bool :=
  if n < 216 then decide (regBits s (rPrcFault (n - 208)) 16 16 = 1)
  else if n = 216 then decide (regBits s rWinFault 22 22 = 1)
  else if n = 217 ∨ n = 258 ∨ n = 259 then decide (n ∈ s.irq.latched)
  else if 224 ≤ n ∧ n ≤ 240 then decide (qP s (n - 224) ≠ qC s (n - 224))
  else if n = 241 then anyBit s 17 rLbxFault 16
  else if n = 256 then decide (regBits s rFabFault 22 22 = 1)
  else if n = 257 then decide (regBits s rAttExportPtr 31 0 ≠ regBits s rAttExportPtr 63 32)
  else if n = 260 then decide (regBits s rLdrRqPtr 31 0 ≠ regBits s rLdrRqPtr 63 32)
  else if n = 261 then decide (regBits s rAttFault 19 19 = 1)
  else false

/-- Whether a source's level is high. -/
def levelOf (s : State) (n : Nat) : Bool :=
  if n < 16 then levelMp s n
  else if n < 32 then levelObs s n
  else if n < 48 then levelSch s n
  else if n < 208 then levelFloor s ((n - 48) / 16) ((n - 48) % 16)
  else if n < 272 then levelHost s n
  else if n < 336 then decide (smGet 0 s.att.cqs (n - 272) ≠ 0)
  else if n = 336 then decide (regBits s rPwrAlarm 3 0 ≠ 0 ∨ regBits s rPwrFault 16 16 = 1)
  else if n = 337 then decide (regBits s rThmFault 20 20 = 1)
  else if n = 338 then decide (regBits s rSecEvent 2 0 ≠ 0)
  else if n = 339 then decide (regBits s rCfgStatus 0 0 = 1)
  else decide (512 ≤ n ∧ n ∈ s.irq.sw)

/-! ### Targets and stacks -/

def irqStack (s : State) (t : Nat) : List (Nat × Nat) := smGet [] s.irq.served t

/-- Set a core's stack, and with it IRQ_RPRI. -/
def setStack (s : State) (t : Nat) (st : List (Nat × Nat)) : State :=
  let s := { s with irq := { s.irq with served := smSet [] s.irq.served t st } }
  regPut (regPut s (rIrqRpri t) 4 0 (match st with | e :: _ => e.2 | [] => 16)) (rIrqRpri t) 9 5 st.length

def srcPrio (s : State) (n : Nat) : Nat := regBits s (rIrqSrc n) 3 0
def srcPending (s : State) (n : Nat) : Bool := decide (regBits s (rIrqSrc n) 11 11 = 1)
def srcActive (s : State) (n : Nat) : Bool := decide (regBits s (rIrqSrc n) 12 12 = 1)
def srcTarget (s : State) (n : Nat) : Nat := regBits s (rIrqSrc n) 15 13

/-- PENDING is LEVEL and EN. -/
def putPending (s : State) (n : Nat) : State :=
  regPut s (rIrqSrc n) 11 11 (regBits s (rIrqSrc n) 10 10 * regBits s (rIrqSrc n) 9 9)

/-- R433: whether a target may take a source. -/
def eligible (s : State) (n t : Nat) : Bool :=
  (regBits s (rIrqSrc n) 8 4).testBit t && decide (regBits s (rIrqTgt t) 0 0 = 1) &&
    (if t = 4 then (upTo 64).any (fun k => decide (sessState s k ≠ 0 ∧ sessRole s k = 1))
     else decide (srcPrio s n < regBits s (rIrqRpri t) 4 0))

/-- The hold-off of a group starts, or reloads (R432). -/
def startHold (s : State) (g : Nat) : State :=
  let h := regBits s (rIrqGrp g) 9 0
  if h = 0 then s
  else regPut { s with irq := { s.irq with hold := smSet 0 s.irq.hold g (s.now + 1300 * h) } } (rIrqGrp g) 10 10 1

/-- R433, R436: assign a source to the first eligible target after its group's last choice. Target 4 takes it at once. -/
def assignSource (s : State) (n : Nat) : State :=
  let g := n / 16
  if !(srcPending s n) || srcActive s n || decide (srcTarget s n ≠ 7) || decide (regBits s (rIrqGrp g) 10 10 = 1) then s
  else
    match ((upTo 5).map (fun i => (regBits s (rIrqGrp g) 13 11 + 1 + i) % 5)).find? (eligible s n) with
    | none => s
    | some t =>
      let s := regPut (regPut s (rIrqSrc n) 15 13 t) (rIrqGrp g) 13 11 t
      if t = 4 then startHold (noticeRoles (regPut s (rIrqSrc n) 12 12 1) [1] 6 n 0) g else s

/-- A source whose level has fallen, or whose target is no longer eligible, is unassigned. -/
def unassignSource (s : State) (n : Nat) : State :=
  if srcActive s n ∨ srcTarget s n = 7 then s
  else if srcPending s n && eligible s n (srcTarget s n) then s
  else regPut s (rIrqSrc n) 15 13 7

/-- Sources whose register does not hold its reset value, ascending: no other can be enabled, high, active or assigned. -/
def liveSources (s : State) : List Nat :=
  (s.regs.filter (fun r => decide (rIrqSrc 0 ≤ r.1) && decide (r.1 < rIrqSrc 1024))).map (fun r => (r.1 - rIrqSrc 0) / 8)

/-- Evaluate every source again (R433). -/
def reassign (s : State) : State :=
  let l := liveSources s
  l.foldl assignSource (l.foldl unassignSource s)

/-- KIND 1 triggers whose source has risen fire, in ascending number (R441). -/
def fireSourceTriggers (s : State) (n : Nat) : State :=
  (upTo 8).foldl (fun s t =>
    let w := regGet s (rEvrTrg t)
    if bitOf w 0 && decide (bits w 2 1 = 1) && decide (bits w 25 16 = n) then fireTrigger s t else s) s

/-- Take a source's level into IRQ_SRC. -/
def putLevel (s : State) (n : Nat) : State :=
  let l := levelOf s n
  if regBits s (rIrqSrc n) 10 10 = b2n l then s
  else
    let s := putPending (regPut s (rIrqSrc n) 10 10 (b2n l)) n
    reassign (if l then fireSourceTriggers s n else s)

/-- IRQ_LEVEL_CHANGE (R431, R433): a source's level changes; it is assigned, unassigned or delivered. -/
def execIrqLevelChange (source : Nat) (s : State) : Host.Outcome State Fault Refusal :=
  if 1024 ≤ source then .next s else .next (putLevel s source)

/-- IRQ_HOLDOFF_EXPIRY (R432). -/
def execIrqHoldoffExpiry (group : Nat) (s : State) : Host.Outcome State Fault Refusal :=
  if regBits s (rIrqGrp group) 10 10 = 0 ∨ 64 ≤ group ∨ s.now < smGet 0 s.irq.hold group then .next s
  else .next (reassign (regPut { s with irq := { s.irq with hold := smSet 0 s.irq.hold group 0 } } (rIrqGrp group) 10 10 0))

/-- The source a core's claim returns: the most urgent assigned one, and the lowest among equals. -/
def claimable (s : State) (t : Nat) : Option Nat :=
  ((liveSources s).filter (fun n => decide (srcTarget s n = t) && srcPending s n && !(srcActive s n) && levelOf s n)).foldl (fun b n =>
    match b with
    | none => some n
    | some m => if srcPrio s n < srcPrio s m then some n else some m) none

/-- A read of IRQ_CLAIMt (R434); target 4 reads 0. -/
def claimSource (s : State) (t : Nat) : State :=
  if 4 ≤ t then { s with lastRead := 0 }
  else
    match claimable s t with
    | none => { s with lastRead := 0 }
    | some n =>
      let p := srcPrio s n
      let s := setStack (regPut s (rIrqSrc n) 12 12 1) t ((n, p) :: irqStack s t)
      let s := reassign (startHold s (n / 16))
      { s with lastRead := BitVec.ofNat 64 (n + 2 ^ 10 + p * 2 ^ 11) }

/-- IRQ_CLAIM: core `target` reads its claim register. -/
def execIrqClaim (target : Nat) (s : State) : Host.Outcome State Fault Refusal := .next (claimSource s target)

def badEoi (s : State) : State := regCount (regPut s rIrqStat 0 0 1) rIrqStat 31 16 1

/-- A source is no longer active. Sources 217 and 259 name an event and no read that ends it: their level ends here (log 62). -/
def endActive (s : State) (n : Nat) : State :=
  let s := if n = 217 ∨ n = 259 then unlatchIrq s n else s
  let s := regPut (regPut s (rIrqSrc n) 12 12 0) (rIrqSrc n) 15 13 7
  reassign (putLevel s n)

/-- A write of IRQ_EOIt (R435, R436). -/
def endOfInterrupt (s : State) (t n : Nat) : State :=
  if t = 4 then (if srcActive s n && decide (srcTarget s n = 4) then endActive s n else badEoi s)
  else if 4 < t then s
  else
    match irqStack s t with
    | e :: st => if e.1 = n then endActive (setStack s t st) n else badEoi s
    | [] => badEoi s

/-- IRQ_EOI: target `target` ends source `source`. -/
def execIrqEoi (target source : Nat) (s : State) : Host.Outcome State Fault Refusal := .next (endOfInterrupt s target (source % 1024))

/-- IRQ_SWSET and IRQ_SWCLR: software levels of sources 512 to 1,023 (R431). -/
def softLevel (s : State) (n : Nat) (up : Bool) : State :=
  if n < 512 ∨ 1024 ≤ n then s
  else putLevel { s with irq := { s.irq with sw := if up then setInsert n s.irq.sw else setErase n s.irq.sw } } n

def execIrqSwset (source : Nat) (s : State) : Host.Outcome State Fault Refusal := .next (softLevel s (source % 1024) true)
def execIrqSwclr (source : Nat) (s : State) : Host.Outcome State Fault Refusal := .next (softLevel s (source % 1024) false)

end Sys2Proof.Machine
end

