-- ==== Sys2Proof/Machine/Recorder.lean ====
section
/-!
DEFINITION. The event recorder's ring and cursor, triggers and snapshots (R437 to R442), and what a register shows when it is read (R8, R9).
-/
namespace Sys2Proof.Machine

/-! ### What a register shows -/

def ringBytes : Nat := 65536
def evrHead (s : State) : Nat := regBits s rEvrPtr 15 0
def evrCursor (s : State) : Nat := 8 * regBits s rEvrCursor 15 3

/-- EVR_DATA: the 8 bytes at the cursor, zeros at HEAD (R440). -/
def evrWord (s : State) : Word :=
  if evrCursor s = evrHead s then 0 else BitVec.ofNat 64 (leNat (smGetList 0 s.evr.ring (evrCursor s) 8))

/-- SCH_ROOM_DATA: what SCH_ROOM_SEL selects (Table 5.9). -/
def roomData (s : State) : Word :=
  let w := regGet s rSchRoomSel
  let q := getRoom s (bits w 11 0)
  if bits w 25 25 = 1 then roomStatus s q (bits w 24 19)
  else
    let g := smGet ({} : Gang) q.gangs (bits w 16 12)
    [g.st0, g.st1, g.st2, g.st3].getD (bits w 18 17) 0

/-- One hour of core cycles. -/
def oneHour : Nat := 3600 * 1300000000

/-- Warm restarts within the last hour (R430). -/
def recentRestarts (s : State) : List Nat := s.mgmt.restarts.filter (fun t => decide (s.now ≤ t + oneHour))

/-- The value a register shows, with no side effect (R442): write-only fields show 0, an offset with no register shows 0, and a claim register claims nothing. -/
def visible (s : State) (a : Nat) : Word :=
  if a = rSchFtime then BitVec.ofNat 64 s.now
  else if a = rSchRoomData then roomData s
  else if a = rEvrData then evrWord s
  else if a = rMpCoreStat then setBits (regGet s a) 15 8 (satTo 255 (recentRestarts s).length)
  else BitVec.ofNat 64 (Nat.land (regGet s a).toNat (readMask (regFields a)))

/-! ### Records (R438, R439, Table 17.3) -/

/-- Items at natural alignment, each in 2, 4 or 8 bytes. -/
def itemBytes : Items → List Byte → List Byte
  | [], acc => acc
  | (v, n) :: r, acc =>
    let k := if n ≤ 2 then 2 else if n ≤ 4 then 4 else 8
    itemBytes r (acc ++ zeros (roundUp acc.length k - acc.length) ++ leBytes k v)

/-- A record's body: at least 32 B, in steps of 32 B; a snapshot's holds 8 B a register. -/
def bodyBytes (r : EvRec) : List Byte :=
  let b := if r.ty = 3 then (r.body.map (fun i => leBytes 8 i.1)).flatten else itemBytes r.body []
  let n := if r.ty = 3 ∨ r.ty = 5 then roundUp b.length 32 else max 32 (roundUp b.length 32)
  b ++ zeros (n - b.length)

/-- The header and body of a record of `n` bytes, with its MARK. -/
def recordBytesAt (r : EvRec) (n mark rseq : Nat) (body : List Byte) : List Byte :=
  leBytes 1 r.ty ++ leBytes 1 (n / 16) ++ leBytes 2 r.code ++ leBytes 2 r.unit ++ zeros 1 ++ leBytes 1 mark ++ leBytes 4 rseq ++ zeros 4 ++
    leBytes 8 r.ftime ++ leBytes 8 r.step ++ body

def evrMark (s : State) : Nat := s.evr.lap % 255 + 1

/-- Write bytes of a record at HEAD, which moves past them; a return to offset 0 begins a lap. -/
def evrPut (s : State) (r : EvRec) (n : Nat) (body : List Byte) : State :=
  let h := evrHead s
  let bs := recordBytesAt r n (evrMark s) s.evr.rseq body
  let lap := if h + n = ringBytes then s.evr.lap + 1 else s.evr.lap
  let s := { s with evr := { s.evr with ring := smSetList 0 s.evr.ring h bs, rseq := s.evr.rseq + 1, lap := lap } }
  regCount (regPut (regPut s rEvrPtr 15 0 ((h + n) % ringBytes)) rEvrPtr 39 32 (lap % 255 + 1)) rEvrStat 31 0 1

/-- Bytes not yet read. -/
def evrUnread (s : State) : Nat := (evrHead s + ringBytes - evrCursor s) % ringBytes

/-- Write one record, with a PAD before it where it would pass the ring's end, when that leaves 32 B free before the cursor (R440). -/
def evrWrite (s : State) (r : EvRec) : Option State :=
  let body := bodyBytes r
  let n := 32 + body.length
  let h := evrHead s
  let pad := if ringBytes < h + n then ringBytes - h else 0
  if ringBytes < evrUnread s + pad + n + 32 then none
  else
    let p : EvRec := { ty := 5, code := 0, unit := unitId 12 0, ftime := s.now, step := recStep s, body := [] }
    let s := if pad = 0 then s else evrPut s p pad (zeros (pad - 32))
    some (evrPut s r n body)

/-! ### Freezing (R447, R448) -/

/-- The freeze takes effect in this cycle; a frozen module freezes no more. -/
def freeze (s : State) : State :=
  if s.mgmt.frozen.isSome then s else { s with mgmt := { s.mgmt with frozen := some s.now, keysZeroed := true }, sec := { s.sec with seed := none } }

/-- EVR_RECORD_WRITE (R437, R440): when room allows, the LOST record that is due, or else the oldest queued record. A snapshot's record freezes the
module where its trigger says so (R442). -/
def execEvrRecordWrite (s : State) : Host.Outcome State Fault Refusal :=
  if 0 < s.evr.lost ∧ s.evr.queue.length < 64 ∧ regBits s rEvrCtrl 0 0 = 1 then
    let r : EvRec := { ty := 4, code := 0, unit := unitId 12 0, ftime := s.now, step := recStep s, body := [(s.evr.lost, 8)] }
    .next (match evrWrite s r with
      | some s' => { s' with evr := { s'.evr with lost := 0 } }
      | none => s)
  else
    match s.evr.queue with
    | [] => .next s
    | r :: rest =>
      .next (match evrWrite s r with
        | some s' =>
          let s' := { s' with evr := { s'.evr with queue := rest } }
          if r.ty = 3 ∧ regBits s' (rEvrTrg r.code) 4 4 = 1 then freeze s' else s'
        | none => s)

/-! ### The cursor (R440) -/

/-- A read of EVR_DATA. -/
def readEvrData (s : State) : State :=
  let w := evrWord s
  let c := evrCursor s
  if c = evrHead s then { s with lastRead := w }
  else { regPut s rEvrCursor 15 3 ((c + 8) % ringBytes / 8) with lastRead := w }

/-- EVR_DATA: 8 ring bytes are read and the cursor advances. -/
def execEvrData (s : State) : Host.Outcome State Fault Refusal := .next (readEvrData s)

/-- A write of EVR_CURSOR: an offset on the path from the cursor to HEAD, and no other. -/
def moveCursor (s : State) (off : Nat) : State :=
  let o := off % ringBytes / 8 * 8
  if (o + ringBytes - evrCursor s) % ringBytes ≤ evrUnread s then regPut s rEvrCursor 15 3 (o / 8) else s

/-- EVR_CURSOR: ring bytes up to `offset` are freed. -/
def execEvrCursor (offset : Nat) (s : State) : Host.Outcome State Fault Refusal := .next (moveCursor s offset)

/-! ### Triggers and snapshots (R441, R442) -/

/-- A write of EVR_FIRE: a trigger of KIND 3 that is enabled fires. -/
def fireSoftware (s : State) (t : Nat) : State :=
  if regBits s (rEvrTrg t) 0 0 = 1 ∧ regBits s (rEvrTrg t) 2 1 = 3 then fireTrigger s t else s

/-- EVR_FIRE: software fires trigger `trigger`. -/
def execEvrFire (trigger : Nat) (s : State) : Host.Outcome State Fault Refusal := .next (fireSoftware s (trigger % 8))

/-- A write of EVR_SOFT queues a SOFT record with its CODE and ARG. -/
def softRecord (s : State) (code arg : Nat) : State :=
  submitRec s { ty := 6, code := code % 65536, unit := unitId 10 0, ftime := s.now, step := recStep s, body := [(arg % 2 ^ 48, 8)] }

/-- EVR_SOFT (R437). -/
def execEvrSoft (code arg : Nat) (s : State) : Host.Outcome State Fault Refusal := .next (softRecord s code arg)

/-- EVR_TIME_TRIGGER (R441): in the cycle in which fabric time equals EVR_TRGTIME, a KIND 2 trigger that is enabled fires. -/
def execEvrTimeTrigger (trigger : Nat) (s : State) : Host.Outcome State Fault Refusal :=
  if trigger < 8 ∧ regBits s (rEvrTrg trigger) 0 0 = 1 ∧ regBits s (rEvrTrg trigger) 2 1 = 2 ∧ s.now = (regGet s (rEvrTrgTime trigger)).toNat then
    .next (fireTrigger s trigger)
  else .next s

/-- NSEL in force: above 32 acts as 32. -/
def selCount (s : State) (t : Nat) : Nat := min 32 (regBits s (rEvrTrg t) 10 5)

/-- In every eighth cycle the oldest snapshot reads its next register as it stands. -/
def snapCycle (s : State) : State :=
  match s.evr.snaps with
  | [] => s
  | p :: rest =>
    if s.now % 8 = 0 ∧ p.vals.length < selCount s p.trig then
      let a := baseCtl + 8 * regBits s (rEvrSel p.trig p.vals.length) 31 3
      { s with evr := { s.evr with snaps := { p with vals := p.vals ++ [if a < endCtl then visible s a else 0] } :: rest } }
    else s

/-- EVR_SNAPSHOT_COMPLETE (R442): the oldest snapshot has read its registers, and its record is queued. -/
def execEvrSnapshotComplete (s : State) : Host.Outcome State Fault Refusal :=
  match s.evr.snaps with
  | [] => .next s
  | p :: rest =>
    if p.vals.length < selCount s p.trig then .next s
    else
      let s := { s with evr := { s.evr with snaps := rest } }
      .next (submitRec s { ty := 3, code := p.trig, unit := unitId 12 0, ftime := p.ftime, step := recStep s, body := p.vals.map (fun w => (w.toNat, 8)) })

end Sys2Proof.Machine
end

