-- ==== Sys2Proof/Machine/Observe.lean ====
section
/-!
DEFINITION. The management processor (R427 to R430), check-value channels (R443 to R446), freeze and scan read-out (R447 to R449).
-/
namespace Sys2Proof.Machine

def codeWatchdog : Nat := 0x0180
def codeCheckConfig : Nat := 0x0181
def codeSramEcc : Nat := 0x0230

def mpFault (s : State) (code inst : Nat) (items : Items) : State := raiseFault s rMpFault 16 code (unitId 10 inst) items

/-! ### Watchdogs and warm restarts (R429, R430) -/

/-- Core cycles in the reset value of a watchdog's count. -/
def wdogFull : Nat := 1300 * 1000000

def wdogOn (s : State) (c : Nat) : Bool := decide (regBits s (rMpWdog c) 24 24 = 1)

/-- The cycle in which a core's running count reaches zero; the count left, while it does not run. -/
def wdogEnd (s : State) (c : Nat) : Nat := smGet wdogFull s.mgmt.wdog c

def setWdog (s : State) (c v : Nat) : State := { s with mgmt := { s.mgmt with wdog := smSet wdogFull s.mgmt.wdog c v } }

/-- A core's count is reloaded with TIMEOUT. -/
def kick (s : State) (c : Nat) : State :=
  setWdog s c ((if wdogOn s c then s.now else 0) + 1300 * max 1 (regBits s (rMpWdog c) 23 0))

/-- A core's count starts to run, or stands still, as EN changes from `was` (R429). -/
def wdogSwitch (s : State) (c : Nat) (was : Bool) : State :=
  if was = wdogOn s c then s
  else setWdog s c (if was then wdogEnd s c - s.now else s.now + wdogEnd s c)

/-- WATCHDOG_KICK: MP_WDOG.KICK of a core is written. -/
def execWatchdogKick (core : Nat) (s : State) : Host.Outcome State Fault Refusal := .next (if core < 4 then kick s core else s)

/-- The cores are reset: MP_CORE_CTL and the watchdogs hold their reset values, and counts start again (log 66). -/
def resetCores (s : State) : State :=
  let s := regPut (regPut s rMpCoreCtl 3 0 1) rMpCoreStat 3 0 1
  (upTo 4).foldl (fun s c => kick (regSet s (rMpWdog c) (regReset (rMpWdog c))) c) s

/-- A warm restart (R430): the step stops, the cores are reset, Travar is verified and starts again, and commands that were executing complete with
the fault's code; where neither slot verifies, the module enters service mode, with its main domains off (R467). A third within an hour is a module failure instead; a second cause in the cycle of a restart causes no other (R450). -/
def warmRestart (s : State) (code : Nat) : State :=
  let r := recentRestarts s
  if s.now ∈ r then s
  else if 2 ≤ r.length then moduleFailure (sendAbort s code) code
  else
    let s := resetCores (sendAbort s code)
    let s := { s with mgmt := { s.mgmt with restarts := r ++ [s.now] } }
    let s := regCount (regPut s rMpCoreStat 15 8 (r.length + 1)) rSecRestarts 15 0 1
    let r := bootTravar { s with mem := smClear s.mem sramBase 0x600000 }
    (upTo 17).foldl (fun s q => finish s q code 0 0) (if r.2 then r.1 else mainsOff r.1)

/-- Whether a core's watchdog runs and its count has reached zero. -/
def wdogExpired (s : State) (c : Nat) : Bool := wdogOn s c && decide (wdogEnd s c ≤ s.now)

/-- MP_WATCHDOG (R429): the count of a core whose watchdog is enabled has reached zero. Each core whose count has raises its record, and one warm restart
follows (R450). -/
def execMpWatchdog (core : Nat) (s : State) : Host.Outcome State Fault Refusal :=
  if 4 ≤ core ∨ wdogExpired s core = false then .next s
  else
    let s := ((upTo 4).filter (wdogExpired s)).foldl (fun s c => mpFault (regPut s rMpCoreStat (4 + c) (4 + c) 1) codeWatchdog c [(c, 2)]) s
    .next (warmRestart s codeWatchdog)

/-- MP_SRAM_UNCORRECTABLE (R428): a word of the SRAM fails its check. A double-bit error is uncorrectable; a single-bit error is corrected and counted. -/
def execMpSramUncorrectable (word : Nat) (double : Bool) (s : State) : Host.Outcome State Fault Refusal :=
  if sramBytes / 8 ≤ word then .next s
  else if double = false then .next (regCount s rMpSram 23 0 1)
  else
    let s := regPut (regCount s rMpSram 39 24 1) rMpSram 59 40 word
    .next (warmRestart (mpFault s codeSramEcc 0 [(word, 4)]) codeSramEcc)

/-- MP_CORE_CTL.RESET: a core starts again; it runs if RUN says so. -/
def coreReset (s : State) (mask : Nat) : State :=
  (upTo 4).foldl (fun s c => if mask.testBit c then regPut s rMpCoreStat c c (regBits s rMpCoreCtl c c) else s) s

/-- CORE_RESET (R427): MP_CORE_CTL.RESET is written with `mask`. -/
def execCoreReset (mask : Nat) (s : State) : Host.Outcome State Fault Refusal := .next (coreReset s mask)

/-! ### Check-value channels (R445, R446) -/

def getCvu (s : State) (k : Nat) : CvuCh := smGet {} s.cvu k
def setCvu (s : State) (k : Nat) (v : CvuCh) : State := { s with cvu := smSet {} s.cvu k v }

/-- The settings of a channel, from POLY, INIT, XOR and CFG. -/
def cvuCfg (ws : List Word) : CheckCfg :=
  let c := ws.getD 3 0
  { width := bits c 6 0, poly := (ws.getD 0 0).toNat, init := (ws.getD 1 0).toNat, xor := (ws.getD 2 0).toNat, reflect := bitOf c 7 }

def cvuBad (c : CheckCfg) : Bool :=
  decide (c.width < 8) || decide (64 < c.width) || decide (2 ^ c.width ≤ c.poly) || decide (2 ^ c.width ≤ c.init) || decide (2 ^ c.width ≤ c.xor)

/-- The leading bytes that a computation processes: the fold, for one that starts anew with FOLD_EN. -/
def cvuFold (ws : List Word) : List Byte :=
  let c := ws.getD 3 0
  if bitOf c 9 = false ∧ bitOf c 8 = true then leBytes 8 (ws.getD 4 0).toNat else []

/-- A write of CVU_GO: a computation starts, or CHECK_CONFIG (R446). -/
def cvuGo (s : State) (k n : Nat) : State :=
  let ws := (upTo 6).map (fun i => regGet s (rCvu k (8 * i)))
  if regBits s (rCvu k 0x18) 16 16 = 1 ∨ cvuBad (cvuCfg ws) = true then
    mpFault (regPut (regPut s (rCvu k 0x18) 18 18 1) (rCvu k 0x18) 47 32 codeCheckConfig) codeCheckConfig k [(k, 2)]
  else
    let n := n % 2 ^ 32
    setCvu (regPut s (rCvu k 0x18) 16 16 1) k { getCvu s k with todo := n, ends := s.now + ceilDiv ((cvuFold ws).length + n) 8, set := ws }

/-- CVU_GO: channel `channel` is to check `count` bytes. -/
def execCvuGo (channel count : Nat) (s : State) : Host.Outcome State Fault Refusal := .next (if channel < 32 then cvuGo s channel count else s)

/-- A core-private read: the boot ROM's bytes are not the spec's to give, so they are free values; outside Table 17.1 an address is unmapped. -/
def privateRead (s : State) (a n : Nat) : State × List Byte × Nat :=
  if sramBase ≤ a ∧ a + n ≤ sramBase + sramBytes then (s, memBytes s a n, if badIn s a n then codeSramEcc else 0)
  else if romBase ≤ a ∧ a + n ≤ romBase + romBytes then
    ({ s with freeCount := s.freeCount + n }, (upTo n).map (fun i => (Config.freeWord (s.freeCount + i)).setWidth 8), 0)
  else (s, zeros n, codeUnmapped)

/-- A computation ends. -/
def cvuEnd (s : State) (k : Nat) : State :=
  let ch := getCvu s k
  let c := cvuCfg ch.set
  let w := ch.set.getD 3 0
  let a := (ch.set.getD 5 0).toNat
  let r := if bitOf w 11 then privateRead s a ch.todo else fetchBytes s a ch.todo (unitId 13 k)
  let s := regPut r.1 (rCvu k 0x18) 16 16 0
  if r.2.2 ≠ 0 then
    let s := regPut (regPut (regPut s (rCvu k 0x18) 18 18 1) (rCvu k 0x18) 47 32 r.2.2) (rCvu k 0x18) 17 17 1
    setCvu (regSet s (rCvu k 0x38) 0) k { ch with todo := 0, set := [] }
  else
    let v := (cvuFold ch.set ++ r.2.1).foldl (checkByte c) (if bitOf w 9 then ch.running else c.init)
    let s := regSet s (rCvu k 0x38) (BitVec.ofNat 64 (if bitOf w 10 then checkFinal c v else v))
    setCvu (regPut s (rCvu k 0x18) 17 17 1) k { ch with running := v, todo := 0, set := [] }

/-- CVU_COMPLETE (R445): 8 B a cycle at most. -/
def execCvuComplete (channel : Nat) (s : State) : Host.Outcome State Fault Refusal :=
  if 32 ≤ channel ∨ regBits s (rCvu channel 0x18) 16 16 = 0 ∨ s.now < (getCvu s channel).ends then .next s else .next (cvuEnd s channel)

/-! ### Freeze and scan (R447 to R449, R481) -/

/-- FREEZE_N: held low for 1 µs. It is acted on from the end of stage 2, and never after a power-on reset with SERVICE_N low. -/
def execFreezeN (s : State) : Host.Outcome State Fault Refusal :=
  if s.mgmt.stage < 2 ∨ s.mgmt.freezeIgnored = true then .next s else .next (freeze s)

/-- MP_FREEZE.NOW with KEY. -/
def freezeNow (s : State) (key : Nat) : State := if key = 0xF4EE then freeze s else s

/-- MP_FREEZE_NOW: Travar writes NOW with `key`. -/
def execMpFreezeNow (key : Nat) (s : State) : Host.Outcome State Fault Refusal := .next (freezeNow s key)

/-- TIMED_FREEZE: fabric time reaches MP_FREEZE_AT while MP_FREEZE.ARM is 1. -/
def execTimedFreeze (s : State) : Host.Outcome State Fault Refusal :=
  if regBits s rMpFreeze 0 0 = 1 ∧ s.now = (regGet s rMpFreezeAt).toNat then .next (freeze s) else .next s

/-- SCAN_SELECT: in a frozen module, a chain of kind 0 to 4 is selected. Outside a freeze the port answers BYPASS. -/
def execScanSelect (chain : Nat) (s : State) : Host.Outcome State Fault Refusal :=
  if s.mgmt.frozen.isNone then .next s else .next { s with mgmt := { s.mgmt with scanSel := some (chain % 65536) } }

/-- SCAN_READ: 64 bits of the selected chain are shifted out. The bit assignment of a chain is no part of the spec, so they are a free value. -/
def execScanRead (s : State) : Host.Outcome State Fault Refusal :=
  match s.mgmt.frozen, s.mgmt.scanSel with
  | some _, some _ => .next { s with lastRead := Config.freeWord s.freeCount, freeCount := s.freeCount + 1 }
  | _, _ => .next s

/-- SEC_MR3_EXT (R469): MR3 is extended with the 64 B at a device address. -/
def extendMr3 (s : State) (addr : Nat) : State :=
  let r := fetchBytes s (addr / 64 * 64) 64 (unitId 10 0)
  mrExtend r.1 3 r.2.1

def execSecMr3Ext (addr : Nat) (s : State) : Host.Outcome State Fault Refusal := .next (extendMr3 s addr)

end Sys2Proof.Machine
end

