-- ==== Sys2Proof/Machine/PorchPorts.lean ====
section
/-!
DEFINITION. The Porch's ports (R369 to R374, R484): links, service frames, priority flow control, MACsec.
-/
namespace Sys2Proof.Machine

def getPort (s : State) (p : Nat) : PorchPort := smGet {} s.por.ports p
def setPort (s : State) (p : Nat) (v : PorchPort) : State := { s with por := { s.por with ports := smSet {} s.por.ports p v } }

/-- A port with MACsec enabled and no installed key raises MACSEC_NO_KEY once (R373). -/
def checkKey (s : State) (p : Nat) : State :=
  if regBits s (rPrcCtrl p) 5 5 = 1 ∧ regBits s (rPrcStatus p) 1 1 = 0 ∧ (getPort s p).noKey = false then
    prcFault (setPort s p { getPort s p with noKey := true }) p codeNoKey []
  else s

/-- PORCH_LINK_UP (R369, R484): the link of an enabled port with an allowed pluggable comes up; any other pluggable leaves it down. -/
def execPorchLinkUp (port : Nat) (allowed : Bool) (s : State) : Host.Outcome State Fault Refusal :=
  if 8 ≤ port ∨ regBits s (rPrcCtrl port) 0 0 = 0 then .next s
  else if allowed then .next (checkKey (regPut s (rPrcStatus port) 0 0 1) port)
  else .next (prcFault s port codePorchDown [])

/-- PORCH_LINK_DOWN (R374, R381): recorded; no session changes by it. -/
def execPorchLinkDown (port : Nat) (s : State) : Host.Outcome State Fault Refusal :=
  if 8 ≤ port ∨ regBits s (rPrcStatus port) 0 0 = 0 then .next s
  else .next (prcFault (regPut s (rPrcStatus port) 0 0 0) port codePorchDown [])

/-- A frame that reaches no QP (R369, R371, R373): ARP, neighbour discovery, ICMP echo and LLDP are answered; one with a bad FCS, one that MACsec
rejects, and any other frame not for a QP are dropped and counted. -/
def takeFrame (s : State) (p : Nat) (f : PortFrame) : State :=
  match f with
  | .service => if portCarries s p then porchOut s (.service p) else s
  | .other => if portCarries s p then setPort s p { getPort s p with dropped := (getPort s p).dropped + 1 } else s
  | .badFcs => if regBits s (rPrcCtrl p) 0 0 = 1 ∧ regBits s (rPrcStatus p) 0 0 = 1 then regCount s (rPrcStat p) 15 0 1 else s
  | .unsecured =>
    if regBits s (rPrcCtrl p) 0 0 = 1 ∧ regBits s (rPrcStatus p) 0 0 = 1 ∧ regBits s (rPrcCtrl p) 5 5 = 1 then regCount s (rPrcStat p) 31 16 1 else s

/-- PORT_SERVICE_FRAME: a frame that reaches no QP arrives at a port. -/
def execPortServiceFrame (port : Nat) (f : PortFrame) (s : State) : Host.Outcome State Fault Refusal :=
  .next (if port < 8 then takeFrame s port f else s)

/-- PRIORITY_FLOW_CONTROL_FRAME (R369, R372): pauses or resumes the port's one PFC priority. -/
def execPriorityFlowControlFrame (port prio : Nat) (pause : Bool) (s : State) : Host.Outcome State Fault Refusal :=
  if 8 ≤ port ∨ regBits s (rPrcCtrl port) 1 1 = 0 ∨ regBits s (rPrcCtrl port) 4 2 ≠ prio then .next s
  else .next (setPort s port { getPort s port with paused := pause })

/-- EAPOL_FRAME (R373): the frame reaches Travar's MKA, whose outcome is the operand: whether a key is installed now. -/
def execEapolFrame (port : Nat) (keyed : Bool) (s : State) : Host.Outcome State Fault Refusal :=
  if 8 ≤ port ∨ regBits s (rPrcStatus port) 0 0 = 0 then .next s
  else if keyed then .next (regPut s (rPrcStatus port) 1 1 1)
  else .next (checkKey s port)

/-- MACSEC_REKEY (R373): at packet number 2^62 traffic moves to the other secure association, and its packet number begins again. -/
def execMacsecRekey (port : Nat) (s : State) : Host.Outcome State Fault Refusal :=
  if 8 ≤ port ∨ regBits s (rPrcCtrl port) 5 5 = 0 ∨ regBits s (rPrcStatus port) 1 1 = 0 then .next (if port < 8 then checkKey s port else s)
  else .next (setPort s port { getPort s port with sa := 1 - (getPort s port).sa })

end Sys2Proof.Machine
end

