-- ==== Sys2Proof/Machine/Links.lean ====
section
/-!
DEFINITION. Links: lanes and the spare (R351), training and retry (R353), rerouting (R357), and fabric time on the links (R366 to R368, R118, R119).
-/
namespace Sys2Proof.Machine

/-! ### A link's state -/

/-- A link's state changes, and its floor's link condition rises (Table 17.2). -/
def setLinkState (s : State) (l v : Nat) : State :=
  if linkState s l = v then s else latchIrq (regPut s (rLnkState l) 2 0 v) (16 * (l / 5 + 3) + 8)

/-- Send again, whole and at once, the transfers that were to go out on link `l` (R357). -/
def reroute (s : State) (l : Nat) : State :=
  let hit (x : Xfer) : Bool := !x.waiting && decide (x.link = l)
  let ks := (s.fab.out.filter hit).map (fun x => (putOnLink s { x with via := none }).link)
  let s := { s with fab := { s.fab with out := s.fab.out.map (fun x => if hit x then putOnLink s { x with via := none } else x) } }
  ks.foldl pumpLink s

/-- A link goes down into `v` (0 down, 1 training, 3 failed). -/
def linkDown (s : State) (l v : Nat) : State :=
  let s := setLink (setLinkState s l v) l {}
  reroute s l

/-- A link fails (R351, R353). -/
def linkFails (s : State) (l : Nat) : State := linkDown (fabFault s codeLinkFailed l [(l, 2)]) l 3

/-- The spare takes over lane `lane`, and the link pauses for `pause` cycles at most (R351). -/
def spareLane (s : State) (l lane pause : Nat) : State :=
  let sp := regBits s (rLnkState l) 5 3
  if linkState s l ≠ 2 ∨ 5 ≤ lane ∨ lane = sp ∨ (lane = 4 ∧ sp = 7) then s
  else if sp = 7 then
    let s := fabFault (regPut s (rLnkState l) 5 3 lane) codeLaneSpared l [(l, 2), (lane, 1)]
    setLink s l { getLink s l with pause := s.now + pause }
  else linkFails s l

/-- LANE_SPARE (R351): a lane's error ratio passed 10^−4 over 2^24 cycles. -/
def execLaneSpare (link lane : Nat) (s : State) : Host.Outcome State Fault Refusal := .next (if link < 50 then spareLane s link lane 180 else s)

/-- LANE_LOSS_OF_LOCK (R351): a lane lost symbol lock. -/
def execLaneLossOfLock (link lane : Nat) (s : State) : Host.Outcome State Fault Refusal := .next (if link < 50 then spareLane s link lane 2600 else s)

/-- FAB_LNK_CTRL.SPARE_NOW (R351, Table 14.9): replaces the lane that LANE names, 0 to 3, unless the spare is in use. -/
def spareNow (s : State) (l : Nat) : State :=
  let lane := regBits s (rLnkCtrl l) 5 3
  let s := regPut s (rLnkCtrl l) 2 2 0
  if lane < 4 ∧ regBits s (rLnkState l) 5 3 = 7 then spareLane s l lane 180 else s

/-- SPARE_NOW: firmware asks for a lane replacement. -/
def execSpareNow (link : Nat) (s : State) : Host.Outcome State Fault Refusal := .next (if link < 50 then spareNow s link else s)

/-- FAB_LNK_CTRL.RETRAIN (Table 14.9): an enabled link goes down and trains; RETRAIN clears as it starts, and stands while the link is disabled. -/
def retrainLink (s : State) (l : Nat) : State :=
  if regBits s (rLnkCtrl l) 0 0 = 1 then linkDown (regPut s (rLnkCtrl l) 1 1 0) l 1 else regPut s (rLnkCtrl l) 1 1 1

/-- LINK_RETRAIN: firmware asks for a retrain. -/
def execLinkRetrain (link : Nat) (s : State) : Host.Outcome State Fault Refusal := .next (if link < 50 then retrainLink s link else s)

/-- FAB_LNK_CTRL.EN changed: a disabled link is down, an enabled one trains. -/
def enableLink (s : State) (l : Nat) : State :=
  if regBits s (rLnkCtrl l) 0 0 = 0 then (if linkState s l = 0 then s else linkDown s l 0)
  else if linkState s l = 0 then setLinkState (regPut s (rLnkCtrl l) 1 1 0) l 1 else s

/-- LINK_TRAIN_COMPLETE (R351, R353): a training ends. A link that comes up starts with lane 4 as its spare and the credits its partner
advertises; three failures in succession fail it. -/
def execLinkTrainComplete (link : Nat) (ok : Bool) (cr0 cr1 cr2 : Nat) (s : State) : Host.Outcome State Fault Refusal :=
  if 50 ≤ link ∨ linkState s link ≠ 1 then .next s
  else if ok then
    let s := regPut (regPut (setLinkState s link 2) (rLnkState link) 15 8 0) (rLnkState link) 5 3 7
    let s := setLink s link { cr0 := cr0, cr1 := cr1, cr2 := cr2, lastAck := s.now }
    .next (pumpLink (reroute s 50) link)
  else
    let n := regBits s (rLnkState link) 15 8 + 1
    let s := regPut s (rLnkState link) 15 8 (satTo 255 n)
    .next (if 3 ≤ n then linkFails s link else s)

/-- NAK_RECEIVE (R353): the partner names a flit, and it and every later one are replayed; more than 16 replays of one flit take the link down. -/
def execNakReceive (link seq : Nat) (s : State) : Host.Outcome State Fault Refusal :=
  let k := getLink s link
  if 50 ≤ link ∨ linkState s link ≠ 2 ∨ seq < k.acked ∨ k.sent ≤ seq then .next s
  else
    let n := if k.replaySeq = seq then k.replays + 1 else 1
    let s := regCount s (rLnkRetry link) 31 0 (k.sent - seq)
    if 16 < n then .next (linkDown s link 1) else .next (setLink s link { k with replaySeq := seq, replays := n })

/-- LINK_ACK_TIMEOUT (R353): no acknowledgement for 2^20 cycles takes the link down. -/
def execLinkAckTimeout (link : Nat) (s : State) : Host.Outcome State Fault Refusal :=
  let k := getLink s link
  if 50 ≤ link ∨ linkState s link ≠ 2 ∨ k.sent ≤ k.acked ∨ s.now < k.lastAck + 2 ^ 20 then .next s else .next (linkDown s link 1)

/-! ### Fabric time (R117 to R119, R366 to R368) -/

def codeTimeUnlocked : Nat := 0x0164

/-- The time link in use (R367). -/
def timeLink (s : State) : Nat := if regBits s rFabTimeStat 3 3 = 1 then regBits s rFabTimeCfg 19 14 else regBits s rFabTimeCfg 13 8

def isGm (s : State) : Bool := decide (regBits s rFabTimeStat 1 1 = 1)

/-- An estimate inside or outside ±1.5 ns (R118, R119): the module is locked while it lies inside. -/
def noteOffset (s : State) (inside : Bool) : State :=
  let was := decide (regBits s rSchState 3 3 = 1)
  let s := regPut (regPut s rSchOffset 32 32 (b2n (!inside))) rSchState 3 3 (b2n inside)
  if inside then { s with seq := { s.seq with outSince := none, everLocked := true } }
  else if was then { s with seq := { s.seq with outSince := some s.now } } else s

/-- An exchange fails; the third in succession on TIME_LINK moves the module to BACKUP (R367). -/
def exchangeFails (s : State) : State :=
  let n := s.fab.time.fails + 1
  if 3 ≤ n ∧ regBits s rFabTimeStat 3 3 = 0 then
    { regPut s rFabTimeStat 3 3 1 with fab := { s.fab with time := { s.fab.time with fails := 0 } } }
  else { s with fab := { s.fab with time := { s.fab.time with fails := n } } }

/-- TIME_EXCHANGE (R366): stamps t1 to t4 in 1/256 cycle, of 10,000/13 ps a cycle. Before its first lock a module other than the grandmaster
sets its count once from t3 and the delay. -/
def execTimeExchange (ok : Bool) (t1 t2 t3 t4 : Nat) (s : State) : Host.Outcome State Fault Refusal :=
  let t := s.fab.time
  if t.lastExchange ≠ 0 ∧ s.now < t.lastExchange + 2 ^ 16 then .next s
  else
    let l := timeLink s
    let s := { s with fab := { s.fab with time := { t with lastExchange := s.now } } }
    if ok = false ∨ linkState s l ≠ 2 then .next (exchangeFails s)
    else
      let z : Int := (Int.ofNat t2 - Int.ofNat t1) - (Int.ofNat t4 - Int.ofNat t3)
      let rtt : Int := (Int.ofNat t4 - Int.ofNat t1) - (Int.ofNat t3 - Int.ofNat t2)
      let num : Int := z * 10000 - toSigned 32 (regBits s (rLnkTime l) 31 0) * 3328
      let s := regPut s (rLnkTime l) 63 32 (ofSigned 32 ((rtt * 10000).tdiv 6656))
      if s.seq.everLocked = false ∧ s.fab.time.counted = false ∧ isGm s = false then
        let n := (t3 + (rtt / 2).toNat) / 256
        .next { s with
          now := n
          fab := { s.fab with time := { lastExchange := n, lastGood := n, fails := 0, counted := true } } }
      else
        let s := { s with fab := { s.fab with time := { s.fab.time with lastGood := s.now, fails := 0 } } }
        let s := regPut s rSchOffset 31 0 (ofSigned 32 (num.tdiv 6656))
        .next (noteOffset s (decide (-(1500 * 6656) ≤ num) && decide (num ≤ 1500 * 6656)))

/-- HOLDOVER_EXPIRY (R367): 650,000 cycles without a valid exchange put the estimate outside ±1.5 ns. -/
def execHoldoverExpiry (s : State) : Host.Outcome State Fault Refusal :=
  if s.seq.everLocked = false ∨ isGm s = true ∨ s.now < s.fab.time.lastGood + 650000 then .next s else .next (noteOffset s false)

/-- TIME_UNLOCKED (R119): 1,300,000 cycles outside ±1.5 ns, of a module that was locked, stop the step. -/
def execTimeUnlocked (s : State) : Host.Outcome State Fault Refusal :=
  match s.seq.outSince with
  | none => .next s
  | some t =>
    if s.now < t + 1300000 then .next s
    else .next (stopFault { s with seq := { s.seq with outSince := none } } rSchFault 16 codeTimeUnlocked unitSch [])

/-- Whether the module is a candidate for grandmaster (R368). -/
def candidate (s : State) : Bool := decide (regBits s rFabTimeCfg 7 0 ≠ 255)

/-- The roles that the partition's best two advertisements give (R368); one that is no candidate takes neither. -/
def setRoles (s : State) (gm standby : Bool) (gmRank sbRank : Nat) : State :=
  let gm := gm && candidate s
  let s := regPut (regPut s rFabTimeStat 1 1 (b2n gm)) rFabTimeStat 2 2 (b2n (standby && candidate s))
  regPut (regPut (regPut s rFabTimeStat 31 16 gmRank) rFabTimeStat 47 32 sbRank) rSchState 4 4 (b2n gm)

/-- REF_OK (R479): the reference inputs are within tolerance; on a module that is no candidate it reads 0 (R480). -/
def showRef (s : State) : State := regPut s rFabTimeStat 0 0 (b2n (s.fab.time.refIn && candidate s))

/-- GM_CHANGE (R368): the grandmaster's advertisement has been absent for four intervals, and the standby became grandmaster. The operands name
the new standby. -/
def execGmChange (standby : Bool) (sbRank : Nat) (s : State) : Host.Outcome State Fault Refusal :=
  let gm := decide (regBits s rFabTimeStat 2 2 = 1)
  let s := setRoles s gm (standby && !gm) (regBits s rFabTimeStat 47 32) sbRank
  .next (fabFault s codeGmChange (timeLink s) [(regBits s rFabTimeStat 31 16, 2)])

/-- PPS_EDGE (R118): the grandmaster latches its fabric time. -/
def execPpsEdge (s : State) : Host.Outcome State Fault Refusal :=
  .next (if isGm s then latchIrq (regSet s rFabPps (BitVec.ofNat 64 s.now)) 39 else s)

/-- REF_OK_CHANGE (R368, R479): the reference inputs leave or re-enter their tolerance, the module's candidacy changes, and the operands give the
roles that result. On a module that is no candidate it has no effect (R480). -/
def execRefOkChange (ok gm standby : Bool) (gmRank sbRank : Nat) (s : State) : Host.Outcome State Fault Refusal :=
  let s := showRef { s with fab := { s.fab with time := { s.fab.time with refIn := ok } } }
  if candidate s = false then .next s
  else
  let old := regBits s rFabTimeStat 31 16
  let s := setRoles s gm standby gmRank sbRank
  .next (if old = gmRank % 65536 then s else fabFault s codeGmChange (timeLink s) [(gmRank % 65536, 2)])

end Sys2Proof.Machine
end

