-- ==== Sys2Proof/Machine/Startup.lean ====
section
/-!
DEFINITION. Start-up (R472, R473, Table 18.8) and service mode (R467). Each stage's command ends the stage; its operands are what the outside world
decides: what a self-test, a training or an election finds.
-/
namespace Sys2Proof.Machine

/-- Whether the stage after `n` may end: start-up stands there, and nothing holds it (R454, R467). -/
def atStage (s : State) (n : Nat) : Bool :=
  s.mgmt.present && decide (s.mgmt.stage = n) && !s.mgmt.dead && !s.mgmt.service && decide (s.mgmt.lockout = 0)

def endStage (s : State) (n : Nat) : State := { s with mgmt := { s.mgmt with stage := n } }

/-- STANDBY_STAGE (stage 1): the standby rails are up and power-on reset is released; SERVICE_N is sampled (R481). -/
def execStandbyStage (serviceLow : Bool) (s : State) : Host.Outcome State Fault Refusal :=
  if atStage s 0 then
    let s := endStage (regPut s rPwrStatus 0 0 1) 1
    .next (if serviceLow then { enterService s with mgmt := { (enterService s).mgmt with freezeIgnored := true } } else s)
  else .next s

/-- BOOT_ROM_STAGE (stage 2): the ROM's self-test, the silicon stepping that MP_ID shows, the seed from the PUF (R468), and the SRAM cleared. -/
def execBootRomStage (romOk : Bool) (stepping : Nat) (s : State) : Host.Outcome State Fault Refusal :=
  if !(atStage s 1) then .next s
  else if romOk = false then .next { s with mgmt := { s.mgmt with dead := true } }
  else
    let fac := flashBytes s factoryAt 0x6780
    let seed := Config.pufSeed (helperData fac)
    let s := endStage { regPut s rMpId 23 16 stepping with mem := smClear s.mem sramBase sramBytes } 2
    if digest64 seed = seedCheck fac then
      .next { regPut s rSecStatus 0 0 1 with sec := { s.sec with seed := some seed } }
    else .next (secFault (regPut (regPut s rSecStatus 0 0 0) rSecEvent 2 2 1) codePufFailed [])

/-- TRAVAR_STAGE (stage 3, R466). -/
def execTravarStage (s : State) : Host.Outcome State Fault Refusal :=
  if atStage s 2 then
    let r := bootTravar s
    .next (if r.2 then endStage r.1 3 else r.1)
  else .next s

/-! ### Stage 4: configuration (R464) -/

/-- The registers whose Reset column reads "cfg" take their values (R11, Table 18.4). -/
def applyConfig (s : State) : State :=
  let s := regPut s rFabJob 15 0 (confNat s 0x26 2)
  let s := regPut s rFabTimeCfg 7 0 (confNat s 0x28 1)
  let mac := confNat s 0x20 6
  let s := (upTo 8).foldl (fun s p =>
    regPut (regPut s (rPrcMac p) 47 0 ((mac + p) % 2 ^ 48)) (rPrcCtrl p) 5 5 (b2n ((confNat s 0x29 1).testBit p))) s
  let s := (upTo 2).foldl (fun s p => regPut s (rAttPort p) 0 0 (b2n ((confNat s 0x2A 1).testBit p))) s
  let s := regPut (regPut s rThmLimits 7 0 (confNat s 0x2B 1)) rPwrLimit 15 0 (confNat s 0x2C 2)
  let s := (upTo 8).foldl (fun s i => regSet s (rCfgSkey i) (BitVec.ofNat 64 (confNat s (0x40 + 1808 * i) 8))) s
  (upTo 10).foldl (fun s f => regPut s (rThmProc f) 31 16 (repByte s (0x65A + 2 * f) + 256 * repByte s (0x65B + 2 * f))) s

/-- Load a configuration part. -/
def takeConf (s : State) (p : List Byte) (factory : Bool) : State :=
  let s := { s with sec := { s.sec with conf := smSetList 0 [] 0 p } }
  regPut (regPut s rCfgStatus 1 1 (b2n factory)) rCfgStatus 63 32 (fld p 0x10 4)

/-- Load a repair part. -/
def takeRepair (s : State) (p : List Byte) (slot : Option Nat) : State :=
  let s := { s with sec := { s.sec with rep := smSetList 0 [] 0 p, repNew := false } }
  regPut (regPut (regPut s rCfgStatus 2 2 (b2n slot.isNone)) rCfgRepair 31 0 (fld p 8 4)) rCfgRepair 32 32 (slot.getD 0)

/-- A factory part was loaded (R464). -/
def fallback (s : State) (code : Nat) : State := cfgFault (sigFail (regPut s rCfgStatus 0 0 1)) code []

/-- CONFIGURATION_STAGE (stage 4): the two user parts, each with the factory's as its fallback; MR1; the cfg reset values; the management channel. -/
def execConfigurationStage (s : State) : Host.Outcome State Fault Refusal :=
  if !(atStage s 3) then .next s
  else
    match factoryConf s with
    | none => .next (moduleFailure (enterService (cfgFault s codeConfigFailed [])) codeConfigFailed)
    | some fac =>
      match factoryRepair s fac with
      | none => .next (moduleFailure (enterService (cfgFault s codeConfigFailed [])) codeConfigFailed)
      | some frep =>
        let user := userConf fac (flashBytes s userAt 0x10000)
        let conf := user.getD fac
        let slot := repairSlot s fac
        let rep := match slot with
          | some k => flashBytes s (if k = 0 then repairA else repairB) 4096
          | none => frep
        let s := takeRepair (takeConf s conf user.isNone) rep slot
        let s := if user.isNone then fallback s codeConfigSig else s
        let s := if slot.isNone then fallback s codeRepairCheck else s
        let s := mrExtend (mrExtend (mrSet s 1 (zeros 64)) 1 (digest64 conf)) 1 (digest64 rep)
        let r := randomBytes (applyConfig s) 8
        .next { endStage r.1 4 with por := { r.1.por with challenge := r.2 } }

/-! ### Stages 5 to 10 -/

/-- τ_mod for 128 logical rooms a floor, before any image is loaded (R473). -/
def bringupTurns (s : State) : Nat :=
  (upTo 10).foldl (fun t f => max t (ceilDiv 128 (max 1 (livePositions s f).length))) 1

/-- FLOOR_BRINGUP_STAGE (stage 5, R456, R473): the floor whose rails lack power-good, if one does; each floor's VMIN in mV and speed; the arrays and
rooms that fail their self-test, by floor × 256 + position. -/
def execFloorBringupStage (badRail : Option Nat) (vmins speeds : List Nat) (arrays : List (Nat × Nat)) (rooms : List Nat) (s : State) :
    Host.Outcome State Fault Refusal :=
  if !(atStage s 4) then .next s
  else
    match badRail with
    | some f => .next (moduleFailure (pwrFault s codeRailFailed f [(f, 2)]) codeRailFailed)
    | none =>
      let s := (upTo 31).foldl (fun s i => regPut s rPwrStatus (i + 1) (i + 1) 1) s
      let s := (upTo 10).foldl (fun s f =>
        let v := max 650 (vmins.getD f 0 + 40)
        let s := regPut (regPut (regPut s (rPwrFloor f) 41 32 (vmins.getD f 0)) (rPwrFloor f) 25 16 v) (rPwrFloor f) 9 0 v
        let s := regPut s (rThmProc f) 15 0 (speeds.getD f 0)
        if regBits s (rThmProc f) 31 16 = 0 then
          repPut (repPut (regPut s (rThmProc f) 31 16 (speeds.getD f 0)) (0x65A + 2 * f) (speeds.getD f 0 % 256)) (0x65B + 2 * f) (speeds.getD f 0 / 256)
        else s) s
      let s := (arrays.map (fun a => Repair.array a.1 a.2) ++ rooms.map Repair.room).foldl applyRepair s
      .next (endStage (regPut s rSchTurns 13 8 (bringupTurns s)) 5)

def codeBringupMargin : Nat := 0x0212

/-- A channel that fails a step of R185: FAILED, and marked out. -/
def channelFails (s : State) (id : Nat) : State :=
  applyRepair (cellarFault (setChState s id 3) id codeBringupMargin 0) (.channel id)

/-- CELLAR_TRAINING_STAGE (stage 6, R185): the channels that fail a step other than step 5; and of each channel measured, its smallest margins and the
redundant lanes that step 1 uses. A channel marked out is not trained; any other without margins that meet the thresholds fails. The channels that pass
are written with zeros (step 7). Then the enabled links begin to train. -/
def execCellarTrainingStage (failed : List Nat) (margins : List (Nat × Nat × Nat × Nat × Nat × Nat)) (s : State) : Host.Outcome State Fault Refusal :=
  if !(atStage s 5) then .next s
  else
    let trained := margins.filter (fun m => decide (m.1 < 640) && !(channelOut s m.1))
    let s := trained.foldl (fun s m =>
      regPut (recordMargins s m.1 m.2.1 m.2.2.1 m.2.2.2.1 m.2.2.2.2.1) (rMemChMargin (m.1 / 32) (m.1 % 32)) 35 32 m.2.2.2.2.2) s
    let bad (id : Nat) : Bool := decide (id ∈ failed) ||
      !(trained.any (fun m => decide (m.1 = id) && marginsMeet m.2.1 m.2.2.1 m.2.2.2.1 m.2.2.2.2.1))
    let r := (upTo 640).foldl (fun (a : State × List Nat) id =>
      if channelOut a.1 id then (setChState a.1 id 4, a.2)
      else if bad id then (channelFails a.1 id, a.2)
      else (setChan (setChState a.1 id 0) id { getChan a.1 id with lastTrain := a.1.now }, a.2 ++ [id])) (s, [])
    let s := setLive { r.1 with mem := smClear r.1.mem 0 apertureBase, poison := [] } r.2
    let s := (upTo 20).foldl (fun s c => regPut s (rMemStatus c) 0 0 1) s
    .next (endStage ((upTo 50).foldl (fun s l => if regBits s (rLnkCtrl l) 0 0 = 1 ∧ linkState s l = 0 then setLinkState s l 1 else s) s) 6)

/-- LINK_STAGE (stage 7): links still without a partner stay down, with LINK_FAILED each; the drives that answer are adopted, as (drive, serial number,
4,096-B blocks, has the features of Table 16.2); a member of the array that does not answer has failed. -/
def execLinkStage (drives : List (Nat × Nat × Nat × Bool)) (s : State) : Host.Outcome State Fault Refusal :=
  if !(atStage s 6) then .next s
  else
    let s := (upTo 50).foldl (fun s l => if linkState s l = 1 then fabFault (setLinkState s l 0) codeLinkFailed l [(l, 2)] else s) s
    let s := (upTo 4).foldl (fun s d => if (getDrive s d).member then setDrvState s d 3 else s) s
    let s := drives.foldl (fun s d => adoptAtStart s d.1 d.2.1 d.2.2.1 d.2.2.2) s
    let s := (members s).foldl (fun s d => if drives.any (fun x => decide (x.1 = d)) then s else attFault s codeDriveFailed d) s
    .next (endStage (if (members s).isEmpty then s else checkArray s 7) 7)

/-- FABRIC_TIME_STAGE (stage 8, R118, R368): the election's outcome. A grandmaster is locked to itself; any other module is locked when its offset
estimate has come inside, which TIME_EXCHANGE finds. -/
def execFabricTimeStage (gm standby : Bool) (gmRank sbRank : Nat) (s : State) : Host.Outcome State Fault Refusal :=
  if !(atStage s 7) then .next s
  else
    let s := setRoles s gm standby gmRank sbRank
    .next (endStage (if gm then { regPut s rSchState 3 3 1 with seq := { s.seq with everLocked := true } } else s) 8)

/-- ATTESTATION_STAGE (stage 9, R463, R468): the identity key pair, its digest, and a changed repair map written to flash. -/
def execAttestationStage (written : Bool) (s : State) : Host.Outcome State Fault Refusal :=
  if !(atStage s 8) then .next s
  else
    match idSeed s with
    | none => .next (endStage s 9)
    | some k =>
      let id := digest64 (Config.falconPublic k)
      let s := (upTo 8).foldl (fun s j => regSet s (rSecId j) (BitVec.ofNat 64 (fld id (8 * j) 8))) s
      .next (endStage (writeRepair (regPut s rSecStatus 1 1 1) written) 9)

/-- LETTERBOX_STAGE (stage 10): doorbells and SENDs are accepted. -/
def execLetterboxStage (s : State) : Host.Outcome State Fault Refusal :=
  if atStage s 9 then .next (endStage (regPut s rLbxCtrl 0 0 1) 10) else .next s

/-! ### Service mode (R467) -/

def inService (s : State) : Bool := s.mgmt.service && s.mgmt.present && !s.mgmt.dead

/-- SERVICE_IMAGE_WRITE: a Travar image for slot 0 (A) or 1 (B) is written after it verifies. -/
def execServiceImageWrite (slot : Nat) (image : List Byte) (s : State) : Host.Outcome State Fault Refusal :=
  if inService s ∧ slot < 2 ∧ image.length ≤ 0x800000 then
    (match travarImage image with
    | some _ => .next (flashPut s (if slot = 0 then slotA else slotB) image)
    | none => .next (sigFail s))
  else .next s

/-- SERVICE_CONFIG_WRITE: a user configuration part is written after it verifies, and only if its GENERATION exceeds that of a valid present one. It
verifies against the factory part (R461), so not without one. -/
def execServiceConfigWrite (part : List Byte) (s : State) : Host.Outcome State Fault Refusal :=
  if inService s = false ∨ 0x10000 < part.length then .next s
  else
    match factoryConf s with
    | none => .next (sigFail s)
    | some fac =>
      match userConf fac part, userConf fac (flashBytes s userAt 0x10000) with
      | none, _ => .next (sigFail s)
      | some p, some old => if fld old 0x10 8 < fld p 0x10 8 then .next (flashPut s userAt p) else .next s
      | some p, none => .next (flashPut s userAt p)

/-- SERVICE_RESET: the module goes through power-on reset and start-up again. -/
def execServiceReset (s : State) : Host.Outcome State Fault Refusal := if inService s then .next (powerLoss s) else .next s

end Sys2Proof.Machine
end

