-- ==== Sys2Proof/Machine/RegAccess.lean ====
section
/-!
DEFINITION. Reads and writes of control registers by the management processor (R8, R9, R24, R25), with the behaviour that the register maps give single
fields.
-/
namespace Sys2Proof.Machine

/-! ### Which registers answer -/

/-- Main-domain registers answer once the floors are up (R17); those of floor 0's standby domain always. -/
def answers (s : State) (a : Nat) : Bool := decide (baseMp ≤ a) || mainsUp s

/-- Which instance of a row of registers, `step` bytes apart, an address is. -/
def instOf (first step n a : Nat) : Option Nat :=
  if first ≤ a ∧ (a - first) % step = 0 ∧ (a - first) / step < n then some ((a - first) / step) else none

/-! ### Locked fields -/

/-- Fields whose writes are ignored now, as (hi, lo): those of a running job, of an active replay, and of a loaded job. -/
def lockedFields (s : State) (a : Nat) : List (Nat × Nat) :=
  let run := decide (schState s = 3)
  let rep := decide (regBits s rReplay 1 1 = 1)
  let lock := decide (regBits s rLdrJob 16 16 = 1)
  let all (b : Bool) : List (Nat × Nat) := if b then [(63, 0)] else []
  if a = rSchSeed ∨ a = rJrnlBase then all run
  else if a = rJrnlCtl then (if run then [(23, 0)] else [])
  else if a = rReplayUntil ∨ a = rRplyBase ∨ a = rRplyCtl then all rep
  else if a = rCelZone ∨ a = rLdrTdir ∨ a = rLdrJob ∨ a = rAttCapture ∨ a = rAttCaptureN ∨ a = rFabJob then all lock
  else if (instOf (rCelPin 0) 0x10000 20 a).isSome ∨ (instOf (rLdrCqBase 0) 0x1000 20 a).isSome ∨ (instOf (rLdrCqCap 0) 0x1000 20 a).isSome ∨
      (instOf (rUpdDir 0) 0x100000 10 a).isSome ∨ (instOf (rUpdPwin 0) 8 64 a).isSome then all lock
  else if a = rLdrMigCtl then (if lock then [(31, 16), (44, 32)] else [])
  else if a = rAttCtrl then (if lock then [(0, 0), (20, 1), (36, 29)] else [])
  else if a = rAttScrub then (if lock then [(39, 32)] else [])
  else []

/-- A write by access codes alone (Table 0.5). -/
def plainWrite (s : State) (a : Nat) (d : Word) : State :=
  let old := regGet s a
  regStore s a ((lockedFields s a).foldl (fun w f => setBits w f.1 f.2 (bits old f.1 f.2)) (afterWrite (regFields a) old d (regNew s a)))

/-! ### Fields with behaviour, block by block -/

def writeSch (s : State) (a : Nat) (d : Word) : State :=
  if a = rSchCtrl then
    let s := if bitOf d 0 then loadImage s else s
    let s := if bitOf d 1 then startJob s else s
    if bitOf d 2 then stopStep s else s
  else if a = rSchStretch then putRequest { s with pol := { s.pol with other := bits d 12 8 } }
  else if a = rJrnlPut then nextOr s (execJournalPut (bits d 63 4 * 16) s)
  else plainWrite s a d

def writeMem (s : State) (a : Nat) (d : Word) : State :=
  let s := plainWrite s a d
  let o := a - baseMem
  let c := o / 0x80000
  let ch := (o % 0x80000 - 0x1000) / 0x40
  if a = rMemChState c ch then
    let s := regPut (regPut s a 3 3 0) a 4 4 (regBits s a 4 4 - b2n (bitOf d 4))
    let s := if bitOf d 3 then nextOr s (execFirmwareRetrain c ch s) else s
    if bitOf d 4 then nextOr s (execChannelMapout c ch s) else s
  else s

def writeLdr (s : State) (a : Nat) (d : Word) : State :=
  let at_ := bits d 63 6 * 64
  match instOf (rLdrPrepIn 0) 0x100000 10 a, instOf (rLdrPfList 0) 0x100000 10 a with
  | some f, _ => nextOr s (execLdrPrepSubmit f at_ s)
  | _, some f => nextOr s (execPrefetchSubmit f at_ s)
  | _, _ => if a = rLdrVerCmd then (verCommand s at_ [1, 2, 3, 4, 5, 6]).1 else plainWrite s a d

def writeFab (s : State) (a : Nat) (d : Word) : State :=
  match instOf (rLnkCtrl 0) 0x1000 50 a with
  | some l =>
    let s := enableLink (plainWrite s a d) l
    let s := if bitOf d 1 then retrainLink s l else s
    if bitOf d 2 then spareNow s l else s
  | none => if a = rFabTimeCfg then showRef (plainWrite s a d) else plainWrite s a d

def writePrc (s : State) (a : Nat) (d : Word) : State :=
  match instOf (rPrcCtrl 0) 0x10000 8 a with
  | some p => checkKey (plainWrite s a d) p
  | none => plainWrite s a d

def writeAtt (s : State) (a : Nat) (d : Word) : State :=
  if a = rAttExportPtr then nextOr s (execExportTailAdvance (bits d 63 32) s)
  else if a = rAttImport then import_ s (bits d 63 12 * 4096)
  else
    match instOf (rDrvState 0) 0x100 4 a with
    | some v => if bitOf d 4 then retire (plainWrite s a d) v else plainWrite s a d
    | none => plainWrite s a d

def writeMp (s : State) (a : Nat) (d : Word) : State :=
  if a = rMpCoreCtl then
    let s := plainWrite s a d
    coreReset (regPut s rMpCoreStat 3 0 (bits d 3 0)) (bits d 7 4)
  else if a = rMpFreeze then (if bitOf d 1 then (if bits d 63 48 = 0xF4EE then freeze (plainWrite s a d) else s) else plainWrite s a d)
  else
    match instOf (rMpWdog 0) 8 4 a with
    | some c =>
      let was := wdogOn s c
      let s := wdogSwitch (plainWrite s a d) c was
      if bitOf d 25 then kick s c else s
    | none => plainWrite s a d

def writeIrq (s : State) (a : Nat) (d : Word) : State :=
  if a = rIrqSwset then softLevel s (bits d 9 0) true
  else if a = rIrqSwclr then softLevel s (bits d 9 0) false
  else
    match instOf (rIrqEoi 0) 0x40 5 a, instOf (rIrqSrc 0) 8 1024 a, instOf (rIrqTgt 0) 0x40 5 a with
    | some t, _, _ => endOfInterrupt s t (bits d 9 0)
    | _, some n, _ => reassign (putPending (plainWrite s a d) n)
    | _, _, some _ => reassign (plainWrite s a d)
    | _, _, _ => plainWrite s a d

def writeEvr (s : State) (a : Nat) (d : Word) : State :=
  if a = rEvrCursor then moveCursor s (bits d 15 3 * 8)
  else if a = rEvrFire then fireSoftware s (bits d 2 0)
  else if a = rEvrSoft then softRecord s (bits d 15 0) (bits d 63 16)
  else plainWrite s a d

def writeCvu (s : State) (a : Nat) (d : Word) : State :=
  match instOf (rCvu 0 0x30) 0x40 32 a with
  | some k => cvuGo s k (bits d 31 0)
  | none => plainWrite s a d

def writePwr (s : State) (a : Nat) (d : Word) : State :=
  match instOf (rPwrFloor 0) 8 10 a with
  | some f => requestVoltage s f (bits d 25 16)
  | none => plainWrite s a d

/-- An aligned 64-bit write to a register. -/
def writeReg (s : State) (a : Nat) (d : Word) : State :=
  match a % 2 ^ 40 / 2 ^ 24 with
  | 0 => writeSch s a d
  | 1 => writeMem s a d
  | 3 => writeLdr s a d
  | 5 => writeFab s a d
  | 6 => writePrc s a d
  | 9 => writeAtt s a d
  | 10 => writeMp s a d
  | 11 => writeIrq s a d
  | 12 => writeEvr s a d
  | 13 => writeCvu s a d
  | 14 => writePwr s a d
  | 16 => if a = rSecMr3Ext then extendMr3 s (bits d 63 6 * 64) else plainWrite s a d
  | _ => plainWrite s a d

/-- An access beyond the last block is unmapped, and a management-processor access records it (R8, R25). -/
def unmapped (s : State) (a : Nat) : State := recordFault s codeUnmapped (unitId 10 0) [(a, 8)]

/-- A write of `n` bytes by the management processor (R8): one that is not an aligned 64-bit access writes nothing. -/
def writeCtl (s : State) (a n : Nat) (d : Word) : State :=
  if !(inCtl a) then unmapped s a
  else if n ≠ 8 ∨ a % 8 ≠ 0 ∨ answers s a = false ∨ (regFields a).isEmpty then s
  else writeReg s a d

/-- REGISTER_WRITE (R8, R9): the management processor writes `data` at a control-register address. -/
def execRegisterWrite (acc : CtlAccess) (data : Word) (s : State) : Host.Outcome State Fault Refusal := .next (writeCtl s acc.addr acc.width data)

/-! ### Reads -/

/-- The conditions of Table 17.2 that hold until a register is read. -/
def readUnlatches (s : State) (a : Nat) : State :=
  if a = rSchStep then unlatchIrq (unlatchIrq s 33) 34
  else if a = rFabPps then unlatchIrq s 39
  else if a = rAttLast then unlatchIrq s 258
  else
    match instOf (rEvrTrg 0) 0x10 8 a, instOf (rLdrPrepStatus 0) 0x100000 10 a, instOf (rLnkState 0) 0x1000 50 a with
    | some t, _, _ => unlatchIrq s (16 + t)
    | _, some f, _ => unlatchIrq s (16 * (f + 3) + 1)
    | _, _, some l => unlatchIrq s (16 * (l / 5 + 3) + 8)
    | _, _, _ => s

/-- A read of a register that answers: its value, an RC field's before the updates of this cycle (R10), and then what the read clears (Table 0.5). -/
def readReg (s : State) (a : Nat) : State :=
  if a = rEvrData then readEvrData s
  else
    match instOf (rIrqClaim 0) 0x40 5 a with
    | some t => claimSource s t
    | none =>
      let old := smGet (regReset a) s.cyc.old a
      let w := withRc (regFields a) (visible s a) old
      let s := regStore s a (afterRead (regFields a) (regGet s a) (regNew s a))
      { readUnlatches s a with lastRead := w, cyc := { s.cyc with old := smSet (regReset a) s.cyc.old a (withRc (regFields a) old 0) } }

/-- A read of `n` bytes by the management processor (R8): one that is not an aligned 64-bit access returns zero. A register of a domain without power does not answer, and what the read returns is a free value. -/
def readCtl (s : State) (a n : Nat) : State :=
  if !(inCtl a) then { unmapped s a with lastRead := 0 }
  else if n ≠ 8 ∨ a % 8 ≠ 0 ∨ (regFields a).isEmpty then { s with lastRead := 0 }
  else if answers s a = false then { s with lastRead := Config.freeWord s.freeCount, freeCount := s.freeCount + 1 }
  else readReg s a

/-- REGISTER_READ_CLEAR (R8, R9): a read of a control-register address. -/
def execRegisterReadClear (acc : CtlAccess) (s : State) : Host.Outcome State Fault Refusal := .next (readCtl s acc.addr acc.width)

/-- MANAGEMENT_PORT_LINK_CHANGE (Table 17.2). -/
def execManagementPortLinkChange (s : State) : Host.Outcome State Fault Refusal := .next (putLevel (latchIrq s 217) 217)

end Sys2Proof.Machine
end

