-- ==== Sys2Proof/Machine/Restore.lean ====
section
/-!
DEFINITION. Restoring an epoch (R418, R419, R183, R389): what firmware does from the repair map to the RESTORED notices.
-/
namespace Sys2Proof.Machine

/-! ### What an epoch's records say -/

def beginStreams (b : List Byte) : List (Nat × Stream) :=
  let off := 40 + 2 * fld b 22 2
  (upTo (fld b 24 2)).foldl (fun m i =>
    smSet {} m (fld b (off + 6 * i) 2) { x := toSigned 16 (fld b (off + 6 * i + 2) 2), e5 := decide (fld b (off + 6 * i + 4) 1 = 1) }) []

def beginPend (b : List Byte) : List PendRow :=
  let off := 40 + 2 * fld b 22 2 + 6 * fld b 24 2 + 12 * fld b 28 4
  (upTo (fld b 32 4)).map (fun i => { table := fld b (off + 18 * i) 2, row := fld b (off + 18 * i + 2) 8, step := fld b (off + 18 * i + 10) 8 })

/-- Where the version slot states begin in the payload. -/
def beginSlotsAt (b : List Byte) : Nat := 40 + 2 * fld b 22 2 + 6 * fld b 24 2 + 12 * fld b 28 4 + 18 * fld b 32 4

/-- The states of the version slots, as (table, four states). -/
def beginSlots (b : List Byte) : List (Nat × List Nat) :=
  let off := beginSlotsAt b
  (upTo (fld b off 4)).map (fun i => (fld b (off + 4 + 6 * i) 2, (upTo 4).map (fun v => fld b (off + 6 + 6 * i + v) 1)))

/-- The switches that took effect before the epoch (R231). -/
def beginSwitched (b : List Byte) : List SwitchDone :=
  let off := beginSlotsAt b + 4 + 6 * fld b (beginSlotsAt b) 4
  (upTo (fld b off 4)).map (fun i => { table := fld b (off + 4 + 10 * i) 2, step := fld b (off + 6 + 10 * i) 8 })

/-- Where the absent lists begin in the payload. -/
def beginAbsentAt (b : List Byte) : Nat :=
  let off := beginSlotsAt b + 4 + 6 * fld b (beginSlotsAt b) 4
  off + 4 + 10 * fld b off 4

/-- A list of ranks at the front of bytes, and the rest. -/
def takeRanks (b : List Byte) : List Nat × List Byte :=
  let n := fld b 0 2
  ((upTo n).map (fun i => fld b (2 + 2 * i) 2), b.drop (2 + 2 * n))

/-- Absent lists by step, and what follows them. -/
def takeAbsents : Nat → List Byte → List (Nat × List Nat) × List Byte
  | 0, b => ([], b)
  | k + 1, b =>
    let x := takeRanks (b.drop 8)
    let r := takeAbsents k x.2
    ((fld b 0 8, x.1) :: r.1, r.2)

/-- Decisions of RS_DIRECT releases. -/
def takeDecided : Nat → List Byte → List DirectDecision
  | 0, _ => []
  | k + 1, b =>
    let x := takeRanks (b.drop 13)
    let y := takeRanks x.2
    { floor := fld b 0 1, tensor := fld b 1 2, group := fld b 3 2, step := fld b 5 8, absent := x.1, beyond := y.1 } :: takeDecided k y.2

/-- The absent lists and the RS_DIRECT decisions of the epoch (R323, R326). -/
def beginDecided (b : List Byte) : List (Nat × List Nat) × List DirectDecision :=
  let off := beginAbsentAt b
  let x := takeAbsents (fld b off 2) (b.drop (off + 2))
  (x.1, takeDecided (fld x.2 0 2) (x.2.drop 2))

/-- Partials of a HELD record. -/
def heldPartials (f : Nat) : Nat → List Byte → List Partial
  | 0, _ => []
  | k + 1, b =>
    if b.length < 27 then []
    else
      let n := fld b 23 4
      { floor := f, tensor := fld b 0 2, group := fld b 2 2, pos := fld b 4 2, rank := fld b 6 2, origin := fld b 8 8, wire := fld b 16 1,
        counts := fld b 17 2, nslices := fld b 19 2, exp := toSigned 16 (fld b 21 2), data := (b.drop 27).take n } :: heldPartials f k (b.drop (27 + n))

/-- Late transfers of a HELD record, which this module still owes. -/
def heldLate (rk : Nat) : Nat → List Byte → List Transfer
  | 0, _ => []
  | k + 1, b =>
    if b.length < 35 then []
    else
      let n := fld b 31 4
      { srank := rk, sfloor := fld b 0 1, drank := fld b 1 2, dfloor := fld b 3 1, xid := 0, kind := fld b 4 1, wire := fld b 5 1, exp := fld b 6 1,
        len := n, step := fld b 7 8, args := (b.drop 15).take 16, data := (b.drop 35).take n } :: heldLate rk k (b.drop (35 + n))

/-! ### Addresses under the new placement (R419) -/

/-- Translate the address that bits [63:lo] of a register hold. -/
def rehomeReg (s : State) (old : List (Nat × Nat)) (lo r : Nat) : State :=
  let v := regBits s r 63 lo * 2 ^ lo
  if rehome s old v = v then s else regPut s r 63 lo (rehome s old v / 2 ^ lo)

/-- Translate the two banks' granules of a parity window. -/
def rehomeWindow (s : State) (old : List (Nat × Nat)) (i : Nat) : State :=
  let r := rUpdPwin i
  let g (v : Nat) : Nat := rehome s old (granule * v) / granule
  if regBits s r 55 40 = 0 then s else regPut (regPut s r 19 0 (g (regBits s r 19 0))) r 39 20 (g (regBits s r 39 20))

/-- The registers by which units find structures in captured memory (log 71). -/
def rehomeRegs (s : State) (old : List (Nat × Nat)) : State :=
  let s := rehomeReg (rehomeReg (rehomeReg (rehomeReg s old 6 rLdrTdir) old 4 rLdrRqBase) old 6 rLdrMigProp) old 6 rAttCapture
  let s := (upTo 10).foldl (fun s f => rehomeReg (rehomeReg (rehomeReg s old 6 (rLdrPfBuf f)) old 14 (rLdrLoadBase f)) old 12 (rUpdDir f)) s
  let s := (upTo 20).foldl (fun s c => rehomeReg s old 5 (rLdrCqBase c)) s
  (upTo 64).foldl (fun s i => rehomeWindow s old i) s

/-- The pool bitmaps of the packed regions, before their blocks are stored again: no overflow slot is in use. -/
def clearPools (s : State) : State :=
  (packDescs s).foldl (fun s d => { s with mem := smClear s.mem d.map (ceilDiv (20 * d.pslots) 8) }) s

/-! ### The steps of R418 -/

/-- Step 2: the live channels without those that leave, which enter OUT, those that failed at bring-up among them (R182); cellars leave self-refresh. -/
def restoreChannels (s : State) : State :=
  let leaving := leavingChans s
  let s := leaving.foldl (fun s id => applyRepair (setChState s id 4) (.channel id)) s
  let s := (upTo 20).foldl (fun s c => regPut (regPut s (rMemStatus c) 1 1 0) (rCelTemp c) 18 18 0) s
  setLive s (s.cel.live.filter (fun id => decide (id ∉ leaving)))

/-- Step 4: every line of stack memory is zeros, free of poison, and the capture table is as it was, under the new placement (log 72). -/
def clearStacks (s : State) (old : List (Nat × Nat)) : State :=
  let es := captureTable s
  let s := { s with mem := smClear s.mem 0 apertureBase, poison := [], cel := { s.cel with held := [], packs := [] } }
  let s := (upTo 20).foldl (fun s c => regPut s (rCelHold c) 25 0 0) s
  let s := rehomeRegs s old
  (es.zipIdx).foldl (fun s e =>
    putBytes s (translate s (regBits s rAttCapture 63 6 * 64 + 32 * e.2))
      (leBytes 4 e.1.id ++ leBytes 1 e.1.cls ++ zeros 3 ++ leBytes 8 (rehome s old e.1.addr) ++ leBytes 8 e.1.len ++ zeros 8)) s

/-- A record's data at a backing address, packed blocks stored as their region's slots (R162). -/
def putData (s : State) (p : Nat) (r : AttRec) : State := if r.flags % 2 = 1 then putPacked s p (chunkData r) else putBytes s p (chunkData r)

/-- Content of records that name an allocation and an offset. -/
def putRecords (s : State) (rs : List AttRec) : State := rs.foldl (fun s r => putData s (translate s (allocBase s r.id + r.off)) r) s

/-- Rows: the chunks of the chain, each over the one before it, in the CURRENT shard of its table. -/
def putChunks (s : State) (es : List Epoch) : State :=
  es.foldl (fun s e => (e.recs.filter (fun r => decide (r.ty = 4 ∨ r.ty = 5))).foldl (fun s r =>
    let d := tableDesc s r.id
    putData s (translate s (verShard s d (curSlot s d) + r.off)) r) s) s

/-- HELD content. -/
def putHeld (s : State) (e : Epoch) : State :=
  (e.recs.filter (fun r => decide (r.ty = 6))).foldl (fun s r =>
    if r.id < 20 then regPut (putBytes s (translate s (queueBase s r.id)) r.body) (rLdrCqState r.id) 31 0 (r.body.length / 32)
    else if r.id < 0x200 then { s with col := { s.col with partials := s.col.partials ++ heldPartials (r.id - 0x100) r.body.length r.body } }
    else (heldLate (rank s) r.body.length r.body).foldl (fun s t => sendXfer s { t := t }) s) s

/-- The presence filter, rebuilt from the overlays of every slot that is not FREE (R224). -/
def rebuildFilter (s : State) : State :=
  let rows (t v : Nat) : List Nat :=
    let d := tableDesc s t
    let b := translate s (verOverlay s d v)
    let es := ((s.mem.filter (fun c => decide (b ≤ c.1) && decide (c.1 < b + overlayBytes (rowMapOf s d)))).map (fun c => (c.1 - b) / 16)).eraseDups
    es.filterMap (fun e =>
      let w := memNat s (verOverlay s d v + 16 * e) 8
      if nbits w 57 56 = 1 then some (filterBit t (nbits w 39 0)) else none)
  let all := ((validTables s).map (fun t =>
    ((upTo 4).filter (fun v => decide (verState s (tableDesc s t) v ≠ 0))).map (fun v => rows t v))).flatten.flatten
  { s with ldr := { s.ldr with filter := all.foldl (fun l b => setInsert b l) [] } }

/-- What a restore discards: everything that the stopped step had in flight, every acceptance and every lock (R389). -/
def discardStep (s : State) : State :=
  let s := (upTo 64).foldl (fun s k => modSess (regPut s (rWinStageCtl k) 63 48 0) k (fun e => { e with accepted := [] })) s
  let s := (upTo 20).foldl (fun s c => regPut s (rLdrCqState c) 31 0 0) s
  { regPut s rReplay 1 1 0 with
    numSeen := [], numCand := []
    ldr := { track := smSetList 0 [] 0 ((upTo 64).map (fun i => regGet s (rLdrTrack i))) }
    den := {}, col := { dropped := s.col.dropped }
    jrnl := { s.jrnl with read := [] }
    fab := { s.fab with out := [], held := [], parts := [], slots := [], barriers := [], foreign := false }
    por := { s.por with lockSeen := false, queues := smMap {} (fun _ (q : Queue) => { q with next := none }) s.por.queues }
    att := { s.att with dirty := [], whole := [], owed := [], patches := [], recs := [], active := false, placed := 0 } }

/-- Steps 5 to 7 on a cleared module whose placement is new. -/
def reload (s : State) (e : Epoch) (old : List (Nat × Nat)) : State :=
  let b := beginBody e
  let s := putRecords s (e.recs.filter (fun r => decide (r.ty = 2 ∧ r.flags % 2 = 0)))
  let s := clearPools (rehomePlain s old)
  let s := putRecords s (e.recs.filter (fun r => decide (r.ty = 2 ∧ r.flags % 2 = 1)))
  let s := putChunks s (chainOf s e)
  let s := putRecords s (e.recs.filter (fun r => decide (r.ty = 3)))
  let s := putHeld s e
  let s := regPut (regPut s rSchStretch 4 0 (fld b 20 1)) rSchStretch 20 16 (fld b 20 1)
  let s := (beginSlots b).foldl (fun s x => (x.2.zipIdx).foldl (fun s y => setVerState s (tableDesc s x.1) y.2 y.1) s) s
  let s := { s with
    seq := { s.seq with streams := beginStreams b, tauNext := fld b 21 1 }
    att := { s.att with pend := beginPend b }
    ldr := { s.ldr with switched := beginSwitched b, absents := (beginDecided b).1 }
    col := { s.col with decided := (beginDecided b).2 } }
  let s := regPut s rAttRows 63 32 s.att.pend.length
  let s := regPut s rLdrRqPtr 63 32 (regBits s rLdrRqPtr 31 0)
  resetPolicy ((upTo 10).foldl larderRegs (verSums (rebuildFilter s)))

/-- A restore that cannot complete: the command fails with RESTORE_FAILED, and the module reports a module failure. -/
def restoreFails (s : State) (q cause : Nat) : State :=
  let s := if cause = 0 then s else attFault s cause 7
  moduleFailure (attFault (finish s q codeRestoreFailed 0 0) codeRestoreFailed 7) codeRestoreFailed

/-- The RESTORE record (Table 13.5): UNTIL is the largest STEP among the rank's COMMIT records (R345). -/
def journalRestore (s : State) (e : Epoch) (until_ : Nat) : State :=
  journalAppend s 10 1 e.step (leBytes 8 e.num ++ leBytes 8 until_ ++ leBytes 2 s.cel.live.length ++ leBytes 1 (regBits s rSchTurns 13 8) ++ zeros 13)

/-- Whether the attic can give every record of the epochs a restore reads, each as it was written. -/
def chainReadable (s : State) (e : Epoch) : Bool :=
  (chainOf s e).all (fun x => (recPlaces s x.pos x.recs).all (fun p => recReadable s p && (recordData p.2).isSome))

/-- Whether the chain begins with the full epoch that `e` builds on, and `e` has its engine state. -/
def chainWhole (s : State) (e : Epoch) : Bool := decide ((chainOf s e).head?.map (fun x => x.num) = some e.base) && !(beginBody e).isEmpty

/-- Steps 1 to 8 for the command of queue `q`. `written` says whether the flash took the new repair part. -/
def restoreEpoch (s0 : State) (q : Nat) (e : Epoch) (written : Bool) : State :=
  let m := e.step + 1
  let until_ := max e.step (lastCommitted s0)
  let s1 := writeRepair (restoreChannels (applyRepairs s0)) written
  if chainWhole s1 e = false then restoreFails s1 q 0
  else if chainReadable s1 e = false then restoreFails s1 q codeEpochCorrupt
  else
    let old := beginAllocs (beginBody e)
    let s := takeImage (discardStep s1) s1.seq.image
    if s.seq.image.turnsMax < tauMod s then restoreFails (imageFault s1 codeImageMismatch) q 0
    else
      match placement s s.job.allocs s.job.table s.job.allocs.length with
      | none => restoreFails s1 q 0
      | some p =>
        let table := s.job.table
        let s := regSet { s with job := { s.job with allocs := p.allocs, grants := p.grants, swaps := p.swaps, copies := p.copies, first := m, restored := true } } rSchStep (BitVec.ofNat 64 m)
        let s := takePlaced (reload (clearStacks (takePlaced s p table) old) e old) p table
        match denseLoadBad s m with
        | some x => restoreFails (denseRefused s x) q 0
        | none =>
          let s := journalRestore s e until_
          let s := ((upTo 64).filter (fun k => decide (sessState s k = 1))).foldl (fun s k => sendNotice s k 7 e.num m) s
          finish s q 0 m 0

/-- Whether a restore must wait: a quiesced cellar at 95 °C or above (R178), or a floor that is too hot (Table 18.2). -/
def restoreWaits (s : State) : Bool :=
  (upTo 20).any (fun c => quiesced s c && decide (degrees 95 ≤ toSigned 12 (regBits s (rCelTemp c) 11 0))) || (upTo 10).any (fun f => floorOver s f)

end Sys2Proof.Machine
end

