-- ==== Sys2Proof/Machine/Commands.lean ====
section
/-!
DEFINITION. Travar commands (R377 to R384, R399, Table 15.7) that open, close and inspect, those of the management channel (R462, R470, R471), and
the frame they share. A command runs when a queue has taken it; the queue is idle again when its completion record is written.
-/
namespace Sys2Proof.Machine

/-! ### The shared frame (R399) -/

def codeRefused : Nat := codeCommandRefused

/-- A command that the session's role or the module's state does not allow. -/
def refuseCmd (s : State) (q : Nat) : State := failCmd s q codeCommandRefused
def formatCmd (s : State) (q : Nat) : State := failCmd s q codeCommandFormat

/-- The role a queue's commands have: the management channel's are a CONTROL session's (R378). -/
def queueRole (s : State) (q : Nat) : Nat := if q = 16 then 1 else sessRole s (qOwner s q)

/-- The commands that the management channel accepts (R378, Table 15.7). -/
def mgmtOps : List Nat := [0x0002, 0x0003, 0x0010, 0x0011, 0x0050, 0x0051]

/-- Whether a reserved field of a command slot is not 0 (Table 15.5). -/
def slotReserved (c : List Byte) : Bool := decide (2 ≤ cmdNat c 2 1) || decide (cmdNat c 3 1 ≠ 0) || decide (cmdNat c 0x78 4 ≠ 0)

/-- Queue `q` executes the command it has taken, when its opcode is `op`: the slot's reserved fields, the role, and then what it does with ARGS. -/
def travar (q op : Nat) (roles : List Nat) (s : State) (act : List Byte → State) : Host.Outcome State Fault Refusal :=
  match (getQueue s q).cmd with
  | none => .next s
  | some c =>
    if cmdNat c 0 2 ≠ op then .next s
    else if slotReserved c then .next (formatCmd s q)
    else if queueRole s q ∉ roles ∨ (q = 16 ∧ op ∉ mgmtOps) then .next (refuseCmd s q)
    else .next (act (c.drop 16))

/-! ### NOP, QUERY, registers -/

/-- NOP. -/
def execNop (q : Nat) (s : State) : Host.Outcome State Fault Refusal := travar q 0x0001 [0, 1, 2] s (fun _ => finish s q 0 0 0)

/-- QUERY: the last committed step is a free value where no step has committed. -/
def execQuery (q : Nat) (s : State) : Host.Outcome State Fault Refusal :=
  travar q 0x0002 [0, 1, 2] s (fun b =>
    match fld b 0 2 with
    | 0 => finish s q 0 (stepNo s) 0
    | 1 => finish s q 0 (regGet s rSchState).toNat 0
    | 2 => finish s q 0 (regGet s rCelLive).toNat 0
    | 3 => finish s q 0 (if q = 16 then 0 else regBits s (rWinStageCtl (qOwner s q)) 63 48) 0
    | 4 => if stepNo s = 0 then finish { s with freeCount := s.freeCount + 1 } q 0 (Config.freeWord s.freeCount).toNat 0
      else finish s q 0 (stepNo s - 1) 0
    | _ => formatCmd s q)

/-- REG_READ: the register at an offset, read as firmware reads it. An offset past the region is an argument out of range (R399); an offset in it that is
not aligned reads 0 (R8, log 139). -/
def execRegRead (q : Nat) (s : State) : Host.Outcome State Fault Refusal :=
  travar q 0x0003 [1, 2] s (fun b =>
    let a := baseCtl + fld b 0 8
    if !(inCtl a) then formatCmd s q
    else if answers s a = false then refuseCmd s q
    else let t := readCtl s a 8; finish t q 0 t.lastRead.toNat 0)

/-- The blocks that no host writes (Table 15.7): WIN, LBX, MP, SEC and CFG. -/
def closedBlocks : List Nat := [7, 8, 10, 16, 17]

/-- REG_WRITE. A write at an offset that is not aligned writes nothing (R8, log 139). -/
def execRegWrite (q : Nat) (s : State) : Host.Outcome State Fault Refusal :=
  travar q 0x0004 [1] s (fun b =>
    let a := baseCtl + fld b 0 8
    if !(inCtl a) then formatCmd s q
    else if a % 2 ^ 40 / 2 ^ 24 ∈ closedBlocks ∨ answers s a = false then refuseCmd s q
    else finish (writeCtl s a 8 (BitVec.ofNat 64 (fld b 8 8))) q 0 0 0)

/-! ### Opening a session (R378, R379, Table 15.1) -/

def payloadAt : Nat := 0x0700017FF000

/-- The fields of an open block. -/
structure OpenBlock where
  slot : Nat
  role : Nat
  qps : Nat
  queues : Nat
  lo : Nat
  hi : Nat
  deriving DecidableEq, Repr

def openBlock (b : List Byte) : OpenBlock :=
  { slot := fld b 0 1, role := fld b 1 1, qps := fld b 2 1, queues := fld b 4 2, lo := fld b 8 4, hi := fld b 0xC 4 }

/-- Whether every field of a block is in its range; its reserved fields are ignored (R6). -/
def openBlockOk (b : List Byte) : Bool :=
  let o := openBlock b
  decide (o.slot < 64) && decide (o.role ≤ 2) && decide (1 ≤ o.qps ∧ o.qps ≤ 4) && decide (o.lo < o.hi) &&
    (upTo o.qps).all (fun i =>
      let e := b.drop (0x10 + 32 * i)
      decide (fld e 0 1 < 8) && decide (fld e 1 1 ≤ 2) && decide (fld e 8 4 < 2 ^ 24) && decide (fld e 12 4 < 2 ^ 24))

/-- Whether an open is refused: a queue that another slot owns, or bounds outside the stack region. -/
def openRefused (s : State) (o : OpenBlock) : Bool :=
  decide (stackBytes s < unit64 * o.hi) || (upTo 16).any (fun q => o.queues.testBit q && qOwned s q && decide (qOwner s q ≠ o.slot))

/-- The lowest queue pair number from 2 that is free (log 73). -/
def freeQpn (s : State) : Nat := ((upTo (s.por.qps.length + 1)).map (fun i => i + 2)).find? (fun n => (getQp s n).isNone) |>.getD 2

/-- Queues that a slot owns are freed: one that executes a command, once that completes. -/
def closeQueue (s : State) (q : Nat) : State :=
  if (getQueue s q).cmd.isSome then setQueue s q { getQueue s q with freeing := true } else freeQueue s q

/-- A queue that no slot held is assigned: its pointers, ring and records begin anew (log 74). -/
def assignQueue (s : State) (q k : Nat) : State :=
  let s := regSet (regSet (setQueue s q {}) (rLbxPtr q) 0) (rLbxCq q) 0
  let s := lbxPut (lbxPut s (q * 0x8000) (zeros 0x8000)) (0x80000 + q * 0x2000) (zeros 0x2000)
  regPut (regPut (regSet s (rLbxOwner q) 0) (rLbxOwner q) 5 0 k) (rLbxOwner q) 6 6 1

/-- The queues of a slot that opens. -/
def openQueues (s : State) (k queues : Nat) : State :=
  (upTo 16).foldl (fun s q =>
    let held := qOwned s q && decide (qOwner s q = k)
    if queues.testBit q then
      (if held then
        setQueue (regPut s (rLbxPtr q) 63 32 (qC s q)) q { getQueue s q with torn := none, freeing := false }
      else assignQueue s q k)
    else if held then closeQueue s q
    else s) s

/-- Create one queue pair from its entry of the block; its number and start PSN. -/
def createQp (s : State) (k : Nat) (e : List Byte) : State × Nat × Nat :=
  let n := freeQpn s
  let r := randomBytes s 3
  let psn := leNat r.2
  let v : Qp := {
    slot := k, port := fld e 0 1, mtu := fld e 1 1, texp := fld e 2 1, retry := fld e 3 1
    hostQpn := fld e 8 4, hostPsn := fld e 12 4, gid := (e.drop 16).take 16, psn := psn }
  (setQp r.1 n (some v), n, psn)

/-- PRC_STATUS.QPS: the queue pairs of sessions on each port (Table 14.11). -/
def countQps (s : State) : State :=
  let ports := ((upTo 64).map (fun k => (getSess s k).qps.filterMap (fun n => (getQp s n).map (fun q => q.port)))).flatten
  (upTo 8).foldl (fun s p => regPut s (rPrcStatus p) 24 16 (ports.countP (fun x => decide (x = p)))) s

/-- A session's queue pairs, keys and regions go (R378, R381). -/
def dropSession (s : State) (k : Nat) (keepErr : Bool) : State :=
  let qs := (getSess s k).qps
  let s := qs.foldl (fun s n => setQp s n (if keepErr then (getQp s n).map (fun v => { v with err := true, sentAt := none }) else none)) s
  countQps (modSess (regSet (undeliver s k) (rWinKeys k) 0) k (fun e => { e with qps := [], regions := [] }))

/-- The next generation: from 65,535 to 1. -/
def nextGen (g : Nat) : Nat := if g = 65535 then 1 else g + 1

/-- A key (R379): kind 1 Window, 2 Letterbox. -/
def sessionKey (gen slot kind byte : Nat) : Nat := gen * 65536 + slot * 1024 + kind * 256 + byte

/-- Open a slot, in the order of R378: the state, and the block as completed. -/
def openSlot (s : State) (b : List Byte) : State × List Byte :=
  let o := openBlock b
  let s := dropSession s o.slot true
  let gen := nextGen (sessGen s o.slot)
  let r := (upTo o.qps).foldl (fun (a : State × List (Nat × Nat)) i =>
    let c := createQp a.1 o.slot (b.drop (0x10 + 32 * i))
    (c.1, a.2 ++ [c.2])) (s, [])
  let s := countQps (modSess r.1 o.slot (fun e => { e with qps := r.2.map (fun x => x.1) }))
  let s := regPut (regPut (regPut s (rWinBase o.slot) 40 26 o.lo) (rWinBounds o.slot) 14 0 o.lo) (rWinBounds o.slot) 30 16 o.hi
  let s := openQueues s o.slot o.queues
  let w := rWinSess o.slot
  let s := regPut (regPut (regPut (regPut s w 1 0 1) w 3 2 o.role) w 31 16 gen) w 47 32 o.queues
  let k := randomBytes s 2
  let wkey := sessionKey gen o.slot 1 (fld k.2 0 1)
  let lkey := sessionKey gen o.slot 2 (fld k.2 1 1)
  let s := regSet k.1 (rWinKeys o.slot) (BitVec.ofNat 64 (wkey + lkey * 2 ^ 32))
  let reply := (r.2.map (fun x => leBytes 4 x.1 ++ leBytes 4 x.2 ++ zeros 8)).flatten
  (s, b.take 0x90 ++ leBytes 2 gen ++ zeros 2 ++ leBytes 4 wkey ++ leBytes 4 lkey ++ zeros 4 ++ reply ++ b.drop (0xA0 + 16 * o.qps))

/-- Whether the units that a session needs have been brought up (R471, Table 18.8). -/
def sessionUnits (s : State) : Bool := decide (7 ≤ s.mgmt.stage)

/-- OPEN_SESSION (R378): on the management channel the block is the request's payload. -/
def execOpenSession (q : Nat) (s : State) : Host.Outcome State Fault Refusal :=
  travar q 0x0010 [1] s (fun b =>
    let a := fld b 0 8
    let r := if q = 16 then (s, memBytes s payloadAt 256, if a = 0 then 0 else 1) else fetchBytes s a 256 (unitId 10 0)
    if r.2.2 ≠ 0 ∨ openBlockOk r.2.1 = false then formatCmd r.1 q
    else if openRefused s (openBlock r.2.1) ∨ sessionUnits s = false then refuseCmd r.1 q
    else
      let o := openSlot r.1 r.2.1
      let gen := fld o.2 0x90 2
      if q = 16 then finish o.1 q 0 gen 0 o.2 else finish (sendBytes o.1 a o.2 (unitId 10 0)).1 q 0 gen 0)

/-- CLOSE_SESSION (R381): the slot's queue pairs and keys go, its queues are freed once idle, its staging stays. -/
def execCloseSession (q : Nat) (s : State) : Host.Outcome State Fault Refusal :=
  travar q 0x0011 [0, 1, 2] s (fun b =>
    let k := fld b 0 1
    if 64 ≤ k then formatCmd s q
    else if queueRole s q ≠ 1 ∧ k ≠ qOwner s q then refuseCmd s q
    else
      let s := dropSession s k false
      let s := (upTo 16).foldl (fun s n => if qOwned s n ∧ qOwner s n = k then closeQueue s n else s) s
      finish (regPut (regPut s (rWinSess k) 1 0 0) (rWinSess k) 47 32 0) q 0 0 0)

/-- REGISTER_REGION (R380). -/
def execRegisterRegion (q : Nat) (s : State) : Host.Outcome State Fault Refusal :=
  travar q 0x0012 [0, 1, 2] s (fun b =>
    let k := qOwner s q
    let len := fld b 8 8
    let rs := (getSess s k).regions
    if fld b 20 1 ≠ 1 ∨ len ∉ (upTo 9).map (fun i => 4096 * 2 ^ i) then formatCmd s q
    else if 4 ≤ rs.length ∨ rs.any (fun r => decide (r.purpose = 1)) then refuseCmd s q
    else
      finish (modSess s k (fun e => { e with regions := rs ++ [{ host := fld b 0 8, len := len, rkey := fld b 16 4, purpose := 1 }] })) q 0 rs.length 0)

/-- WIN_MOVE (R384). -/
def execWinMove (q : Nat) (s : State) : Host.Outcome State Fault Refusal :=
  travar q 0x0013 [0, 1, 2] s (fun b =>
    let k := qOwner s q
    let a := fld b 0 8
    if a % unit64 = 0 ∧ regBits s (rWinBounds k) 14 0 ≤ a / unit64 ∧ a / unit64 < regBits s (rWinBounds k) 30 16 ∧ unit64 + a ≤ stackBytes s then
      finish (regPut s (rWinBase k) 40 26 (a / unit64)) q 0 a 0
    else formatCmd s q)

/-! ### Attestation (R470, Table 18.7) -/

/-- Bytes 0x000 to 0x1A3 of a quote. -/
def quoteHead (s : State) (nonce : List Byte) : List Byte :=
  ascii "GK20QUOT" ++ leBytes 2 1 ++ leBytes 2 (rank s) ++ leBytes 4 (regBits s rSecRestarts 15 0) ++ leBytes 8 s.now ++ leBytes 8 (stepNo s) ++
    nonce.take 64 ++ zeros (64 - nonce.length) ++ ((upTo 8).map (fun j => leBytes 8 (regGet s (rSecId j)).toNat)).flatten ++
    ((upTo 4).map (mrBytes s)).flatten ++
    leBytes 4 (regBits s rCfgStatus 1 1 + 2 * regBits s rCfgStatus 2 2 + 4 * regBits s rSchState 3 3)

/-- A quote, signed with the identity key. -/
def quote (s : State) (key nonce : List Byte) : List Byte :=
  let h := quoteHead s nonce
  let sig := Config.falconSign s.freeCount key (digest64 h)
  let cert := certificate ((factoryConf s).getD [])
  h ++ leBytes 2 sig.length ++ leBytes 2 cert.length ++ sig ++ cert

/-- ATTEST (R470): the quote goes to QUOTE_ADDR, and on the management channel into the reply. -/
def execAttest (q : Nat) (s : State) : Host.Outcome State Fault Refusal :=
  travar q 0x0050 [1, 2] s (fun b =>
    match idSeed s with
    | none => failCmd s q codePufFailed
    | some key =>
      if regBits s rSecStatus 1 1 = 0 then refuseCmd s q
      else
        let at_ := fld b 0 8
        let n := if at_ = 0 then (s, (b.drop 16).take 64, 0) else fetchBytes s at_ 64 (unitId 16 0)
        if n.2.2 ≠ 0 then formatCmd n.1 q
        else
          let z := quote s key n.2.1
          let s := { n.1 with freeCount := n.1.freeCount + 1 }
          if q = 16 then finish s q 0 z.length 0 z
          else
            let w := sendBytes s (fld b 8 8) z (unitId 16 0)
            if w.2 ≠ 0 then formatCmd s q else finish w.1 q 0 z.length 0)

/-- WRAP_CAK (R462): on the management channel only; the wrapped entry follows in the reply, and no copy is kept. -/
def execWrapCak (q : Nat) (s : State) : Host.Outcome State Fault Refusal :=
  travar q 0x0051 [1] s (fun b =>
    if q ≠ 16 then refuseCmd s q
    else if 8 ≤ fld b 0 1 then formatCmd s q
    else
      match wrapKey s with
      | none => failCmd s q codePufFailed
      | some key => finish s q 0 0 0 (wrapCakEntry key (confBytes s 0x18 8) ((b.drop 8).take 8) (fld b 0 1) ((b.drop 16).take 16) ((b.drop 32).take 32)))

/-! ### The management channel (R471) -/

def mgmtKeysAt : Nat := 0x38C0

/-- Whether a request datagram is well-formed, names a used key and carries the current challenge. -/
def mgmtFormed (s : State) (d : List Byte) : Bool :=
  let key := fld d 2 1
  let pay := fld d 6 2
  decide (d.take 2 = ascii "MC") && decide (key < 4) && decide (pay ≤ 1024 ∧ pay % 64 = 0) &&
    decide (d.length = 146 + pay + fld d (144 + pay) 2) && decide ((d.drop 8).take 8 = s.por.challenge) &&
    decide (confNat s (mgmtKeysAt + 1808 * key) 8 ≠ 0)

/-- Whether its signature verifies. -/
def mgmtSigned (s : State) (d : List Byte) : Bool :=
  let pay := fld d 6 2
  let id := ((upTo 8).map (fun j => leBytes 8 (regGet s (rSecId j)).toNat)).flatten
  Config.falconVerify (confBytes s (mgmtKeysAt + 1808 * fld d 2 1 + 8) 1793) (digest64 (id ++ d.take (144 + pay)))
    ((d.drop (146 + pay)).take (fld d (144 + pay) 2))

/-- Whether a request is accepted: its slot passes R391 too, with generation 0 and queue 16. -/
def mgmtAccepts (s : State) (d : List Byte) : Bool :=
  let slot := (d.drop 16).take 128
  mgmtFormed s d && mgmtSigned s d && decide (crcFold (16 * 2 ^ 32 + cmdNat slot 4 4) (slot.take 0x7C) = cmdNat slot 0x7C 4)

/-- Reply with the challenge, after a status where one is due. -/
def mgmtAnswer (s : State) (head : List Byte) : State := { s with por := { s.por with mgmtReply := head ++ s.por.challenge } }

/-- A request that fails its checks (R471); SIG_FAIL where the verification of Table 18.6 did. -/
def mgmtFails (s : State) (d : List Byte) : State :=
  let s := if mgmtFormed s d && !(mgmtSigned s d) then sigFail s else s
  let s := regPut (regCount s rSecEvent 31 16 1) rSecEvent 1 1 1
  mgmtAnswer (secFault s codeMgmtAuth []) (leBytes 2 codeMgmtAuth)

/-- An accepted request: a new challenge, its payload in the shared area, and its command taken by queue 16. -/
def mgmtTakes (s : State) (d : List Byte) : State :=
  let pay := fld d 6 2
  let slot := (d.drop 16).take 128
  let r := randomBytes s 8
  let s := putBytes { r.1 with por := { r.1.por with challenge := r.2 } } payloadAt ((d.drop 144).take pay)
  let s := regPut (regPut s (rLbxPtr 16) 31 0 (cmdNat slot 4 4)) (rLbxCq 16) 31 0 (cmdNat slot 4 4)
  let s := takeCmd s 16 slot
  let bad := if cmdNat slot 0 2 = 0x0010 then decide (pay < 256) else decide (pay ≠ 0)
  if bad ∧ (getQueue s 16).cmd.isSome then formatCmd s 16 else s

/-- MGMT_REQUEST (R471): a datagram at UDP port 7720 of the management port, from the end of stage 4 and while LBX_CTRL.MGMT_EN is 1. One waits while the
channel executes a command. -/
def execMgmtRequest (datagram : List Byte) (s : State) : Host.Outcome State Fault Refusal :=
  if s.mgmt.stage < 4 ∨ s.mgmt.service = true ∨ regBits s rLbxCtrl 1 1 = 0 then .next s
  else if datagram.take 2 = ascii "MC" ∧ fld datagram 2 1 = 0xFF then .next (mgmtAnswer s [])
  else if mgmtAccepts s datagram = false then .next (mgmtFails s datagram)
  else if (getQueue s 16).cmd.isSome then .next s
  else .next (mgmtTakes s datagram)

end Sys2Proof.Machine
end

