-- ==== Sys2Proof/Machine/Jobs.lean ====
section
/-!
DEFINITION. Travar commands that load, feed, run and restore a job (R385 to R389, R399, R400, R418, Table 15.7).
-/
namespace Sys2Proof.Machine

def codeBatchPacking : Nat := 0x0660
def codeReplayInput : Nat := 0x0661

/-! ### Staging (R385) -/

/-- SET_STAGING: refused while a job is loaded, and for an open slot that is not a FEEDER. -/
def execSetStaging (q : Nat) (s : State) : Host.Outcome State Fault Refusal :=
  travar q 0x0020 [1] s (fun b =>
    let k := fld b 0 1
    let part := fld b 1 1
    let parts := fld b 2 1
    let n := fld b 3 1
    let base := fld b 8 8
    let size := fld b 16 8
    if 64 ≤ k ∨ 16 < parts ∨ parts ≤ part ∨ n < 2 ∨ 16 < n ∨ base % 4096 ≠ 0 ∨ size % 4096 ≠ 0 ∨ size = 0 ∨ 2 ^ 24 ≤ size / 4096 then formatCmd s q
    else if s.job.loaded ∨ (sessState s k ≠ 0 ∧ sessRole s k ≠ 0) then refuseCmd s q
    else
      let w := rWinStageCtl k
      let s := regPut s (rWinStageBase k) 63 12 (base / 4096)
      let s := regPut (regPut (regPut (regPut (regSet s w 0) w 23 0 (size / 4096)) w 28 24 n) w 35 32 part) w 40 36 parts
      finish (modSess s k (fun e => { e with accepted := [] })) q 0 0 0)

/-- Slots with a staging configuration. -/
def stagingSlots (s : State) : List Nat := (upTo 64).filter (fun k => decide (regBits s (rWinStageCtl k) 28 24 ≠ 0))

/-- Whether the staging configurations share one PARTS and cover its parts once each; a module without any is fed by no host (log 75). -/
def stagingWhole (s : State) : Bool :=
  let l := stagingSlots s
  let parts := ((l.head?).map (fun k => regBits s (rWinStageCtl k) 40 36)).getD 0
  l.isEmpty || (l.all (fun k => decide (regBits s (rWinStageCtl k) 40 36 = parts)) && decide (l.length = parts) &&
    (upTo parts).all (fun p => l.any (fun k => decide (regBits s (rWinStageCtl k) 35 32 = p))))

/-! ### Packing (R307, R308, Table 12.3) -/

/-- A segment entry. -/
def segmentBytes (sample first : Nat) (cin cout : Bool) (len off : Nat) : List Byte :=
  leBytes 4 sample ++ leBytes 3 first ++ leBytes 1 (b2n cin + 2 * b2n cout) ++ leBytes 3 len ++ leBytes 3 off ++ zeros 2

/-- Segments of one sample of `l` tokens from `first` on: the segments by micro-batch, then the micro-batch and the positions used in it. -/
def packSample (b sample l : Nat) : Nat → Nat → Nat × Nat → List (Nat × List Byte) → List (Nat × List Byte) × Nat × Nat
  | 0, _, c, acc => (acc, c)
  | k + 1, first, c, acc =>
    if l ≤ first then (acc, c)
    else
      let n := min (b - c.2) (l - first)
      let e := segmentBytes sample first (decide (0 < first)) (decide (first + n < l)) n c.2
      let used := c.2 + n
      packSample b sample l k (first + n) (if used = b then (c.1 + 1, 0) else (c.1, used)) (acc ++ [(c.1, e)])

/-- The segments of a rank's batch, by micro-batch (R307). -/
def packBatch (b : Nat) (tokens : List Nat) : List (Nat × List Byte) :=
  ((tokens.zipIdx).foldl (fun (a : List (Nat × List Byte) × Nat × Nat) x =>
    let c := if b - a.2.2 < x.1 ∧ 0 < a.2.2 then (a.2.1 + 1, 0) else a.2
    packSample b x.2 x.1 (x.1 / b + 2) 0 c a.1) ([], 0, 0)).1

/-! ### Batches (R386, R387) -/

/-- A directory entry (Table 15.3); offsets and lengths in bytes. -/
structure BatchEnt where
  kind : Nat
  floor : Nat
  arg : Nat
  off : Nat
  len : Nat
  prep : Nat
  deriving DecidableEq, Repr

def batchEnts (p : List Byte) : List BatchEnt :=
  (upTo (fld p 0x24 2)).map (fun i =>
    let e := (p.drop (0x40 + 16 * i)).take 16
    { kind := fld e 0 1, floor := fld e 1 1, arg := fld e 2 2, off := 64 * fld e 4 4, len := 64 * fld e 8 4, prep := 64 * fld e 12 4 })

/-- A part as staged: the session, the staging slot's number, its first byte and bytes, K and PART. -/
structure Staged where
  sess : Nat
  slot : Nat
  base : Nat
  size : Nat
  k : Nat
  part : Nat
  deriving DecidableEq, Repr

def stagedAt (s : State) (sess slot : Nat) : Staged :=
  let w := rWinStageCtl sess
  let size := regBits s w 23 0 * 4096
  { sess := sess, slot := slot, base := regBits s (rWinStageBase sess) 63 12 * 4096 + slot * size, size := size, k := regBits s w 28 24,
    part := regBits s w 35 32 }

/-- The header's checks. -/
def batchHeaderOk (h : List Byte) (g : Staged) (step : Nat) : Bool :=
  decide (h.take 8 = ascii "GK20BTCH") && decide (fld h 8 8 = step) && decide (fld h 0x10 8 % 64 = 0) &&
    decide (1 ≤ fld h 0x24 2 ∧ fld h 0x24 2 ≤ 4096) && decide (0x40 + 16 * fld h 0x24 2 ≤ fld h 0x10 8 ∧ fld h 0x10 8 ≤ g.size) &&
    decide (fld h 0x26 1 = g.part) && decide (fld h 0x27 25 = 0)

/-- The directory's ranges. -/
def batchRangesOk (p : List Byte) (g : Staged) : Bool :=
  (batchEnts p).all (fun e =>
    decide (1 ≤ e.kind ∧ e.kind ≤ 5) && (decide (e.kind = 3) || decide (e.floor = 0 ∧ e.prep = 0)) && decide (e.floor ≤ 9) &&
      decide (0x40 + 16 * fld p 0x24 2 ≤ e.off) && decide (e.off + e.len ≤ p.length) &&
      (decide (e.kind ≠ 3) || (decide (64 ≤ e.len) && decide (p.length ≤ e.prep) && decide (e.prep + 64 + 36 * fld p (e.off + 4) 4 ≤ g.size))))

/-- Each index list agrees with its entry, and its table is valid. -/
def batchListsOk (s : State) (p : List Byte) (step : Nat) : Bool :=
  ((batchEnts p).filter (fun e => decide (e.kind = 3))).all (fun e =>
    let d := tableDesc s e.arg
    decide (fld p e.off 2 = e.arg) && decide (fld p (e.off + 8) 8 = step) && decide (roundUp (64 + 8 * fld p (e.off + 4) 4) 64 = e.len) &&
      d.ok && (rowMapOf s d).ok)

/-- Part 0 carries one TOKENS entry and one SEGMENTS entry for each micro-batch; no other part carries any. -/
def batchKindsOk (s : State) (p : List Byte) (g : Staged) : Bool :=
  let es := batchEnts p
  let toks := es.filter (fun e => decide (e.kind = 1))
  let segs := es.filter (fun e => decide (e.kind = 2))
  if g.part = 0 then
    decide (toks.length = 1) && toks.all (fun e => decide (4 * fld p 0x20 4 ≤ e.len)) && decide (segs.length = s.seq.image.microBatches) &&
      (upTo s.seq.image.microBatches).all (fun m => segs.any (fun e => decide (e.arg = m)))
  else toks.isEmpty && segs.isEmpty

/-- Segment entries without their reserved bits (R6, Table 12.3). -/
def segmentFields (b : List Byte) : List Byte := (b.zipIdx).map (fun x => if x.2 % 16 = 7 then x.1 &&& 3#8 else if 14 ≤ x.2 % 16 then 0#8 else x.1)

/-- The micro-batch whose segment table is not R307's, the first of them, or the first beyond U; bytes after a table's last entry are zeros. -/
def packingFault (s : State) (p : List Byte) (g : Staged) : Option Nat :=
  let es := batchEnts p
  match es.find? (fun e => decide (e.kind = 1)) with
  | none => none
  | some t =>
    let counts := (upTo (fld p 0x20 4)).map (fun i => fld p (t.off + 4 * i) 4)
    let segs := packBatch s.seq.image.positions counts
    let bad := es.filter (fun e => decide (e.kind = 2) &&
      (let w := ((segs.filter (fun x => decide (x.1 = e.arg))).map (fun x => x.2)).flatten
       !(decide (segmentFields ((p.drop e.off).take e.len) = w ++ zeros (e.len - w.length) ∧ w.length ≤ e.len))))
    if g.part ≠ 0 then none
    else (bad.map (fun e => e.arg) ++ (segs.map (fun x => x.1)).filter (fun m => decide (s.seq.image.microBatches ≤ m))).head?

/-- Whether a replay's record of this session's batch agrees (Table 13.4). -/
def batchReplays (s : State) (g : Staged) (step digest : Nat) : Bool :=
  if replaying s ∧ step ≤ (regGet s rReplayUntil).toNat then
    (match replayBatch (replayRead step (replayFuel s) s) step g.sess with
    | some d => decide (d = digest)
    | none => true)
  else true

/-- The checks of R387 in order: the fault code of the first that fails, 0 for none. -/
def batchCode (s : State) (g : Staged) (step : Nat) : Nat :=
  if step < stepNo s ∨ stepNo s + g.k ≤ step then codeBatchFormat
  else if g.slot ≠ step % g.k ∨ (regBits s (rWinStageCtl g.sess) 63 48).testBit g.slot then codeBatchFormat
  else
    let h := readBytes s g.base 64
    if h.2 ≠ 0 ∨ batchHeaderOk h.1 g step = false then codeBatchFormat
    else
      let r := readBytes s g.base (fld h.1 0x10 8)
      let p := r.1
      if r.2 ≠ 0 ∨ batchRangesOk p g = false then codeBatchFormat
      else if crc64 (leBytes 8 step ++ p.drop 0x40) ≠ fld p 0x18 8 then codeBatchFormat
      else if batchListsOk s p step = false ∨ batchKindsOk s p g = false then codeBatchFormat
      else if (packingFault s p g).isSome then codeBatchPacking
      else if batchReplays s g step (fld p 0x18 8) = false then codeReplayInput
      else 0

/-- A refused batch (R308, R328, R349, R402): BATCH_PACKING with the segment table and the rank in the event recorder (log 156), REPLAY_INPUT with TYPE,
STEP and SEQ of the BATCH record in SCH_FAULT, any other in WIN_FAULT. -/
def refuseBatch (s : State) (q k : Nat) (g : Staged) (step code : Nat) : State :=
  if code = codeBatchPacking then
    let m := packingFault s (readBytes s g.base (memNat s (g.base + 0x10) 8)).1 g
    failCmd (recordFault s code (unitId 7 k) [(m.getD 0, 2), (rank s, 2)]) q code
  else if code = codeReplayInput then
    failCmd (raiseFault s rSchFault 16 code unitSch
      (replayItems (replayRead step (replayFuel s) s) 6 step (fun b => decide (leNat ((b.drop 0x20).take 1) = g.sess)))) q code
  else failCmd (winFault s k code [(g.slot, 1), (step, 8)]) q code

/-- Whether a replayed step's batch waits for firmware to load its BATCH record (Table 13.4, log 159). -/
def batchUnread (s : State) (g : Staged) (step : Nat) : Bool :=
  replaying s && decide (step ≤ (regGet s rReplayUntil).toNat) && !(replayReady s step) &&
    (replayBatch (replayRead step (replayFuel s) s) step g.sess).isNone

/-- Submit the lists of an accepted part from the `i`-th directory entry on, as long as their Larders have room (R388): the entry it stops at, none
when all are submitted. -/
def submitLists (g : Staged) : List BatchEnt → Nat → State → State × Option Nat
  | [], _, s => (s, none)
  | e :: es, i, s =>
    if e.kind ≠ 3 then submitLists g es (i + 1) s
    else if 16 ≤ (getLarder s e.floor).preps.length then (s, some i)
    else
      let s := regPut s (rLdrPrepOut e.floor) 63 6 ((g.base + e.prep) / 64)
      submitLists g es (i + 1) (nextOr s (execLdrPrepSubmit e.floor (g.base + e.off) s))

/-- An accepted part goes on with its lists; it is delivered, and the command done, when the last is submitted. -/
def goOnBatch (s : State) (q : Nat) (g : Staged) (step i : Nat) : State :=
  let p := (readBytes s g.base (memNat s (g.base + 0x10) 8)).1
  let r := submitLists g ((batchEnts p).drop i) i s
  match r.2 with
  | some j => setQueue r.1 q { getQueue r.1 q with next := some j }
  | none => finish (modSess r.1 g.sess (fun e => { e with accepted := e.accepted ++ [(g.slot, step)] })) q 0 step 0

/-- BATCH (R387, R388): checked, then locked, journalled and its lists submitted. A batch whose lists wait goes on when the command runs again. -/
def execBatch (q : Nat) (s : State) : Host.Outcome State Fault Refusal :=
  travar q 0x0021 [0] s (fun b =>
    let k := qOwner s q
    let g := stagedAt s k (fld b 0 1)
    let step := fld b 8 8
    match (getQueue s q).next with
    | some i => goOnBatch s q g step i
    | none =>
      if s.job.loaded = false ∨ g.k = 0 then refuseCmd s q
      else if batchUnread s g step then s
      else
        let code := batchCode s g step
        let s := noteFetch s g.base (max 64 (memNat s (g.base + 0x10) 8)) (unitId 7 k)
        if code ≠ 0 then refuseBatch s q k g step code
        else
          let w := rWinStageCtl k
          let s := regPut s w 63 48 (regBits s w 63 48 + 2 ^ g.slot)
          let s := journalAppend s 6 0 step (leBytes 1 k ++ leBytes 1 g.slot ++ zeros 6 ++ leBytes 8 (memNat s (g.base + 0x18) 8))
          goOnBatch s q g step 0)

/-! ### Jobs (R124, R125, R400) -/

/-- The job as loaded, with nothing that an earlier job had in flight, and its JOB record (Table 13.6). -/
def takeJob (s : State) (p : Placed) (table : Nat) : State :=
  let s := rebuildFilter (takePlaced (discardStep s) p table)
  let s := { s with ldr := { s.ldr with track := smSetList 0 [] 0 ((upTo 64).map (fun i => regGet s (rLdrTrack i))) } }
  let s := regSet (regSet { s with jrnl := {}, job := { s.job with loaded := true, first := 0, restored := false } } rJrnlSeq 0) rJrnlSafe 0
  let body := leBytes 8 (regGet s rSchSeed).toNat ++ leBytes 4 s.seq.image.modules ++ zeros 4 ++ s.seq.image.digest
  resetPolicy (journalAppend s 1 0 0 body)

/-- JOB_LOAD (R400): the image is verified and loaded and every allocation placed; `modules` is the job's module count, which firmware knows (R125). -/
def execJobLoad (q modules : Nat) (s : State) : Host.Outcome State Fault Refusal :=
  travar q 0x0030 [1] s (fun b =>
    let table := fld b 8 8
    let n := fld b 16 4
    if fld b 0 8 % 64 ≠ 0 then formatCmd s q
    else if s.job.loaded ∨ schState s = 3 then refuseCmd s q
    else
      let t := mrSet (regPut { s with seq := { s.seq with jobModules := modules } } rSchImage 63 6 (fld b 0 8 / 64)) 2 (zeros 64)
      let r := tryImage t
      if r.2 ≠ 0 then failCmd r.1 q r.2
      else
        match allocTable r.1 table n with
        | none => formatCmd s q
        | some es =>
          match placement r.1 es table n with
          | none => failCmd s q codePlacement
          | some p =>
            match denseLoadBad (takePlaced r.1 p table) 0 with
            | some x => failCmd (denseRefused s x) q codeUpdateFormat
            | none => finish (takeJob r.1 p table) q 0 0 0)

/-- JOB_START: SCH_REPLAY and SCH_REPLAY_UNTIL are set, and the job starts at its first step. -/
def execJobStart (q : Nat) (s : State) : Host.Outcome State Fault Refusal :=
  travar q 0x0031 [1] s (fun b =>
    if 1 < fld b 0 1 then formatCmd s q
    else if s.job.loaded = false ∨ schState s ≠ 2 ∨ stagingWhole s = false then refuseCmd s q
    else
      let t := startJob (regSet (regPut s rReplay 0 0 (fld b 0 1)) rReplayUntil (BitVec.ofNat 64 (fld b 8 8)))
      if schState t = 3 then finish t q 0 (stepNo t) 0
      else
        failCmd (regSet (regSet t rReplay (regGet s rReplay)) rReplayUntil (regGet s rReplayUntil)) q
          (if regBits s rJrnlCtl 23 0 = 0 then codeJournalFull else codeReplayDiverged))

/-- JOB_STOP: the step in progress stops with code 0. -/
def execJobStop (q : Nat) (s : State) : Host.Outcome State Fault Refusal :=
  travar q 0x0032 [1] s (fun _ => if schState s ≠ 3 then refuseCmd s q else finish (stopStep s) q 0 (stepNo s) 0)

/-- JOB_UNLOAD: staging and locks clear, and no image is loaded (R385). -/
def unloadJob (s : State) : State :=
  let s := (upTo 64).foldl (fun s k => modSess (regSet (regSet s (rWinStageCtl k) 0) (rWinStageBase k) 0) k (fun e => { e with accepted := [] })) s
  let s := lockJob (regPut s rSchState 2 0 0) 0
  let s := (upTo 256).foldl (fun s i => regSet (regSet s (rCelFloatA i) 0) (rCelFloatB i) 0) s
  { s with job := {}, rooms := [], seq := { s.seq with image := {}, stopped := false, abort := none }, cel := { s.cel with allocs := [], packed := [], moves := [] } }

def execJobUnload (q : Nat) (s : State) : Host.Outcome State Fault Refusal :=
  travar q 0x0033 [1] s (fun _ => if s.job.loaded = false ∨ schState s = 3 then refuseCmd s q else finish (unloadJob s) q 0 0 0)

/-- RESTORE (R418): refused without a loaded job, while one runs, and for an epoch of the rank that the attic does not hold; it waits while a quiesced
cellar or a floor is too hot. `written` says whether the flash took a new repair part. -/
def execRestore (q : Nat) (written : Bool) (s : State) : Host.Outcome State Fault Refusal :=
  travar q 0x0034 [1] s (fun b =>
    if s.job.loaded = false ∨ schState s ∉ [2, 4, 5] then refuseCmd s q
    else
      match s.att.epochs.find? (fun e => decide (e.num = fld b 0 8 ∧ e.rank = rank s)) with
      | none => refuseCmd s q
      | some e => if restoreWaits s then s else restoreEpoch s q e written)

/-- JOURNAL_SAFE (R341): SAFE is raised, never lowered. -/
def execJournalSafe (q : Nat) (s : State) : Host.Outcome State Fault Refusal :=
  travar q 0x0035 [1] s (fun b =>
    let v := max (regGet s rJrnlSafe).toNat (fld b 0 8)
    finish (regSet s rJrnlSafe (BitVec.ofNat 64 v)) q 0 v 0)

/-! ### Versions and channels -/

/-- VERSION (R227): the fields of a version command in ARGS, and its STATUS. -/
def execVersion (q : Nat) (s : State) : Host.Outcome State Fault Refusal :=
  travar q 0x0040 [1] s (fun b =>
    let c : VerCmd := { op := fld b 0 1, table := fld b 2 2, version := fld b 8 8, shard := fld b 0x10 8, overlay := fld b 0x18 8, census := fld b 0x20 8 }
    if c.op = 0 ∨ 6 < c.op then formatCmd s q
    else let r := verTry s c; finish r.1 q 0 (if r.2 then 1 else 2) 0)

/-- MAPOUT (R182). -/
def execMapout (q : Nat) (s : State) : Host.Outcome State Fault Refusal :=
  travar q 0x0041 [1] s (fun b =>
    if 20 ≤ fld b 0 1 ∨ 32 ≤ fld b 1 1 then formatCmd s q
    else finish (nextOr s (execChannelMapout (fld b 0 1) (fld b 1 1) s)) q 0 0 0)

end Sys2Proof.Machine
end

