-- ==== Sys2Proof/Machine/Power.lean ====
section
/-!
DEFINITION. Power and floor temperature in service (R452 to R458, R478, Table 18.2).
-/
namespace Sys2Proof.Machine

/-! ### Power -/

/-- Set an alarm bit of PWR_ALARM. -/
def alarm (s : State) (b : Nat) (on : Bool) : State := regPut s rPwrAlarm b b (b2n on)

/-- How many samples in succession a condition has held. -/
def runLength (on : Bool) (n : Nat) : Nat := if on then n + 1 else 0

/-- PWR_INPUT and what it drives (Table 18.9). -/
def notePower (s : State) (volts watts avg : Nat) : State :=
  let s := regPut (regPut (regPut s rPwrInput 15 0 volts) rPwrInput 31 16 watts) rPwrInput 47 32 avg
  let s := regPeak s rPwrInput 63 48 watts
  let s := alarm s 0 (decide (budget s < avg))
  { s with mgmt := { s.mgmt with
    low := runLength (decide (volts < 4800)) s.mgmt.low, high := runLength (decide (5800 < volts)) s.mgmt.high,
    above := runLength (decide (5000 < watts)) s.mgmt.above } }

/-- The floors' powers, and the cellars' powers and VDDQ (Table 18.9). -/
def noteRails (s : State) (floors : List Nat) (cellars : List (Nat × Nat)) : State :=
  let s := ((upTo 10).zip floors).foldl (fun s x => regPut s (rPwrFloor x.1) 63 48 x.2) s
  ((upTo 20).zip cellars).foldl (fun s x => regPut (regPut s (rPwrCellar x.1) 15 0 x.2.1) (rPwrCellar x.1) 25 16 x.2.2) s

/-- POWER_SAMPLE (R454): every 100 µs V54 in 10 mV, the input power and its 10 ms average in W are measured, and with them the power of each floor
and the power and VDDQ of each cellar. A condition that holds for ten samples has held for 1 ms. -/
def execPowerSample (volts watts avg : Nat) (floors : List Nat) (cellars : List (Nat × Nat)) (s : State) : Host.Outcome State Fault Refusal :=
  if volts < 4000 then .next (powerLoss s)
  else
    let s := noteHeat (noteRails (notePower s volts watts avg) floors cellars)
    let s := if s.mgmt.low = 0 then alarm s 1 false else if 10 ≤ s.mgmt.low then alarm s 1 true else s
    let s := if s.mgmt.high = 0 then alarm s 2 false else if 10 ≤ s.mgmt.high then alarm s 2 true else s
    if volts < 4400 ∧ s.mgmt.lockout = 0 then .next (mainsOff (sendAbort (pwrFault s codePowerInput 0 [(volts, 2)]) codePowerInput))
    else
      let s := if s.mgmt.low = 10 ∨ s.mgmt.high = 10 then sendAbort (pwrFault s codePowerInput 0 [(volts, 2)]) codePowerInput else s
      .next (if s.mgmt.above = 10 then sendAbort (pwrFault s codePowerOverload 0 [(watts, 2)]) codePowerOverload else s)

/-- RAIL_OVERLOAD (R452): a rail drew more than its limit for 10 µs. `kind` is its row of Table 18.1, `inst` its floor or cellar. -/
def execRailOverload (kind inst : Nat) (s : State) : Host.Outcome State Fault Refusal :=
  .next (sendAbort (pwrFault s codePowerOverload inst [(kind, 2), (inst, 2)]) codePowerOverload)

/-- DROOP (R457): a detector of a floor sees VCORE below VMIN + 10 mV; `below`: below VMIN itself. -/
def execDroop (floor : Nat) (below : Bool) (s : State) : Host.Outcome State Fault Refusal :=
  if 10 ≤ floor then .next s
  else
    let s := regCount (alarm s 3 true) rPwrAlarm 31 16 1
    .next (if below then sendAbort (pwrFault s codeUndervolt floor [(floor, 2)]) codeUndervolt else s)

/-! ### Heat -/

/-- THM_FLOORf and THM_PROCf take a sample; a speed that falls 2 % below BASE raises NEXT by 10 mV (R456). -/
def noteFloor (s : State) (f temp sensor speed : Nat) : State :=
  let a := rThmFloor f
  let s := regPut (regPut s a 11 0 temp) a 16 12 sensor
  let s := regPeakSigned s a 43 32 temp
  let base := regBits s (rThmProc f) 31 16
  let was := regBits s (rThmProc f) 15 0
  let s := regPut s (rThmProc f) 15 0 speed
  if 100 * speed < 98 * base ∧ 98 * base ≤ 100 * was then requestVoltage s f (regBits s (rPwrFloor f) 25 16 + 10) else s

/-- A threshold of Table 18.2: set at or above `hi`, cleared below `lo`. -/
def level2 (s : State) (a b : Nat) (t hi lo : Int) : State := if hi ≤ t then regPut s a b b 1 else if t < lo then regPut s a b b 0 else s

/-- FLOOR_TEMP_SAMPLE (R458, Table 18.2): a floor's highest sensor, in 0.0625 °C, and the median of its process monitors. -/
def execFloorTempSample (floor temp sensor speed : Nat) (s : State) : Host.Outcome State Fault Refusal :=
  if 10 ≤ floor then .next s
  else
    let t := toSigned 12 temp
    let a := rThmFloor floor
    let was := floorOver s floor
    let s := noteFloor s floor temp sensor speed
    let s := level2 s a 17 t (throttle s) (throttle s - 48)
    let s := level2 s a 18 t (16 * 105) (16 * 100)
    let s := level2 s a 19 t (16 * 115 + 1) (throttle s)
    let s := noteHeat s
    if 16 * 125 ≤ t then .next (thermalTrip s floor)
    else .next (if floorOver s floor && !was then sendAbort (thmFault s codeFloorOvertemp floor) codeFloorOvertemp else s)

/-- CARRIER_REGULATOR_SENSOR_TRIP (Table 18.2): a carrier-regulator sensor is at or above 125 °C. -/
def execCarrierRegulatorSensorTrip (s : State) : Host.Outcome State Fault Refusal := .next (thermalTrip s 0)

/-! ### Insertion (R478) -/

/-- PRESENT_N_ASSERT: PRESENT_N has been low for 100 ms, and the hot-swap stage closes. -/
def execPresentNAssert (s : State) : Host.Outcome State Fault Refusal := .next { s with mgmt := { s.mgmt with present := true } }

/-- PRESENT_N_DEASSERT: PRESENT_N was high for 10 µs; the stage opens, and every domain loses power. -/
def execPresentNDeassert (s : State) : Host.Outcome State Fault Refusal :=
  .next (powerLoss { s with mgmt := { s.mgmt with present := false } })

end Sys2Proof.Machine
end

