-- ==== Sys2Proof/Machine/Receive.lean ====
section
/-!
DEFINITION. Flits that arrive (R352 to R356, R364), and the delivery of whole transfers by their kind.
-/
namespace Sys2Proof.Machine

/-- The next state of an outcome, or the given one where it is none. -/
def stateOf (o : Host.Outcome State Fault Refusal) (s : State) : State :=
  match o with
  | .next t => t
  | _ => s

/-- A whole transfer reaches the unit that its kind names (Table 14.3); a reserved kind gets STATUS FORMAT. -/
def deliverWhole (s : State) (x : Transfer) : State :=
  match x.kind with
  | 1 => stateOf (execSendReceive x s) s
  | 2 => stateOf (execPeerWriteReceive x s) s
  | 3 => stateOf (execIndexReceive x s) s
  | 4 => stateOf (execReplyReceive x s) s
  | 5 => stateOf (execScatterReceive x s) s
  | 6 => stateOf (execMigrateReceive x s) s
  | 7 => stateOf (execCollectiveReceive x s) s
  | 8 =>
    (match argNat x 0 1 with
    | 1 => stateOf (execBarrierArriveReceive x s) s
    | 2 => stateOf (execBarrierNoticeReceive x s) s
    | 3 => stateOf (execBarrierAbortReceive x s) s
    | _ => deliver s x (fun s => (s, some stFormat)))
  | _ => deliver s x (fun s => (s, some stFormat))

/-- The transfer that flits 0 to n − 1 of a part form, once all are there (R356, Table 14.3). -/
def wholeOf (s : State) (p : PartXfer) : Option Transfer :=
  match p.flits.find? (fun f => decide (f.1 = 0)) with
  | none => none
  | some f0 =>
    let n (o k : Nat) : Nat := leNat ((f0.2.drop o).take k)
    let cnt := flitsOf (n 4 4)
    if p.flits.any (fun f => decide (cnt ≤ f.1)) ∨ p.flits.length = cnt then
      let fs := p.flits.mergeSort (fun a b => decide (a.1 ≤ b.1))
      let data := (((fs.map (fun f => f.2)).flatten).drop 32).take (if p.flits.length = cnt then n 4 4 else 2 ^ 32)
      some { srank := p.srank, sfloor := p.sfloor, drank := rank s, dfloor := p.dfloor, xid := p.xid, kind := if n 1 1 = 0 then n 0 1 else 0,
             wire := n 2 1, exp := n 3 1, len := n 4 4, step := n 8 8, args := (f0.2.drop 16).take 16,
             data := if p.flits.any (fun f => decide (cnt ≤ f.1)) then [] else data }
    else none

/-- A transfer flit is placed by its INDEX; the last one delivers its transfer. -/
def takeFlit (s : State) (h : List Byte) : State :=
  let n (o k : Nat) : Nat := leNat ((h.drop o).take k)
  let p0 : PartXfer := { srank := n 2 2, sfloor := n 4 1 / 16, dfloor := n 4 1 % 16, xid := n 8 4 % 16384 }
  let same (p : PartXfer) : Bool := decide (p.srank = p0.srank ∧ p.sfloor = p0.sfloor ∧ p.dfloor = p0.dfloor ∧ p.xid = p0.xid)
  let p := (s.fab.parts.find? same).getD p0
  let i := n 8 4 / 16384
  let p := { p with flits := p.flits.filter (fun f => decide (f.1 ≠ i)) ++ [(i, (h.drop 16).take 240)] }
  let rest := s.fab.parts.filter (fun q => !(same q))
  match wholeOf s p with
  | none => { s with fab := { s.fab with parts := rest ++ [p] } }
  | some x => deliverWhole { s with fab := { s.fab with parts := rest } } x

/-- Transfers that wait for memory are tried again, oldest first (R180). -/
def serveArrivals (s : State) : State := s.fab.held.foldl deliverWhole { s with fab := { s.fab with held := [] } }

/-- Whether a transfer flit's CRC is right (Table 14.2). -/
def flitOk (b : List Byte) : Bool :=
  let n (o k : Nat) : Nat := leNat ((b.drop o).take k)
  decide (b.length = 256) &&
    decide (crcFold (n 0 2 * 2 ^ 48 + n 2 2 * 2 ^ 32 + n 8 4 % 16384) (b.take 12 ++ b.drop 16) = n 12 4)

/-- A flit whose check fails, or that an uncorrectable codeword touched, is discarded and named in a NAK (R352, R353). -/
def refuseFlit (s : State) (l : Nat) (fec : Bool) : State :=
  let s := setLink s l { getLink s l with nakOut := true }
  if fec then regCount s (rLnkFec l) 63 40 1 else regCount s (rLnkRetry l) 63 32 1

/-- Symbols that the FEC corrected, by lane (R352, Table 14.9): CORR, and each lane's count of LANE_ERR. -/
def noteSymbols (s : State) (l : Nat) (errs : List Nat) : State :=
  let s := regCount s (rLnkFec l) 39 0 (errs.take 5).sum
  ((upTo 5).zip errs).foldl (fun s e => regCount s (rLnkLane l) (8 * e.1 + 7) (8 * e.1) e.2) s

/-- FLIT_RECEIVE (R352 to R356, R364): a flit arrives on a link, with what the FEC corrected. Acknowledgement flits' tuples come as ACK_RECEIVE (log 43). -/
def execFlitReceive (link : Nat) (f : FlitIn) (s : State) : Host.Outcome State Fault Refusal :=
  if 50 ≤ link ∨ linkState s link ≠ 2 then .next s
  else
    match f with
    | .bad fec => .next (refuseFlit s link fec)
    | .symbols errs => .next (noteSymbols s link errs)
    | .control acked c0 c1 c2 =>
      let k := getLink s link
      let k := { k with acked := max k.acked (min acked k.sent), lastAck := s.now, cr0 := k.cr0 + c0, cr1 := k.cr1 + c1, cr2 := k.cr2 + c2 }
      .next (pumpLink (setLink s link k) link)
    | .bytes b =>
      if !(flitOk b) then .next (refuseFlit s link false)
      else
        let s := setLink s link { getLink s link with received := (getLink s link).received + 1, nakOut := false }
        let n (o k : Nat) : Nat := leNat ((b.drop o).take k)
        if n 5 1 ≠ 0x10 then .next s
        else if n 6 2 ≠ regBits s rFabJob 15 0 then
          let s := regCount s rFabStat 47 32 1
          .next (if s.fab.foreign then s else fabFault { s with fab := { s.fab with foreign := true } } codeForeign link [(n 2 2, 2)])
        else if n 0 2 ≠ rank s then .next s
        else .next (takeFlit s b)

end Sys2Proof.Machine
end

