-- ==== Sys2Proof/Machine/Vector.lean ====
section
/-!
DEFINITION. The vector slot of a room (R59, R80 to R84, R101, R102, R115, Tables 4.5, 4.6 and 4.10).
Operands are read in the issue beat; a masked-off lane keeps its value and meets no case.
-/
namespace Sys2Proof.Machine

/-- Which lanes act (Table 4.5, MSK). -/
def vecOn (q : Room) (f : VectorSlot) : List Bool :=
  if f.msk = 1 then (vReg q f.vc.toNat).map (fun l => decide (l ≠ 0)) else List.replicate 256 true

/-- The second operand (Table 4.5, BX). -/
def vecB (q : Room) (f : VectorSlot) : List Lane :=
  if f.bx = 1 then List.replicate 256 (BitVec.ofNat 32 (bits (xReg q f.xs.toNat) 31 0)) else vReg q f.vb.toNat

/-- The lanes of an operation and the cases they meet, from lane `i` on. -/
def laneRun (fn : Lane → Lane → Lane → Lane × NumFlags) :
    Nat → List Bool → List Lane → List Lane → List Lane → List (Nat × Lane) × VecCases
  | i, o :: os, a :: as, b :: bs, c :: cs =>
    let r := laneRun fn (i + 1) os as bs cs
    if o then let x := fn a b c; ((i, x.1) :: r.1, r.2.addArith x.2) else r
  | _, _, _, _, _ => ([], {})

/-- A vector operation's cases: counted from the next beat on (R92, R115), and reported. -/
def vecNote (s : State) (r : Nat) (v : VecCases) : State :=
  if v = {} then s else vectorEvents (addAction s r (s.beat + 1) 0 (.vcount v.flags v.counts)) r v

/-- A lane-by-lane operation whose result reaches its port `lat` beats on (Table 4.10). -/
def laneBody (s : State) (r : Nat) (f : VectorSlot) (q : Room) (lat : Nat) (port : Port)
    (fn : Lane → Lane → Lane → Lane × NumFlags) : SlotRes :=
  let x := laneRun fn 0 (vecOn q f) (vReg q f.va.toNat) (vecB q f) (vReg q f.vc.toNat)
  .ok (vecNote (addResult s r (s.beat + lat) port (.v f.vd.toNat x.1)) r x.2)

/-- An operation of the iterative stage, which it occupies for 8 beats (R102). -/
def iterBody (s : State) (r : Nat) (f : VectorSlot) (q : Room) (fn : Lane → Lane → Lane → Lane × NumFlags) : SlotRes :=
  if s.beat < q.iterBusy then .error { code := codeSlotBusy }
  else laneBody (modRoom s r (fun q => { q with iterBusy := s.beat + 8 })) r f q 14 .arith fn

/-- An operation of the SFU, which it occupies for 4 beats a pass (R102). -/
def sfuBody (s : State) (r : Nat) (f : VectorSlot) (q : Room) (fn : Lane → Lane × NumFlags) : SlotRes :=
  let n := sfuPasses f.imm.toNat
  if s.beat < q.sfuBusy then .error { code := codeSlotBusy }
  else laneBody (modRoom s r (fun q => { q with sfuBusy := s.beat + 4 * n })) r f q (4 * n + 6) .sfu (fun a _ _ => fn a)

/-- Drop a function's cases, for operations that meet none. -/
def pureLane (x : Lane) : Lane × NumFlags := (x, noFlags)

/-! ### Loads and stores (R80, R101) -/

/-- The store offset A[AA] + IMM × 64, modulo 2^64. -/
def vecAddr (q : Room) (f : VectorSlot) : Nat :=
  (aReg q f.aa.toNat + BitVec.ofNat 64 (ofSigned 64 (64 * toSigned 16 f.imm.toNat))).toNat

/-- A value widened exactly, a NaN of any floating format to the canonical one (R35, R80, log 15); INT32 bits unchanged. -/
def widenLane (fmt c : Nat) : Lane :=
  match fmt with
  | 0 => if fvIsNan (b32 (BitVec.ofNat 32 c)) then b32Nan else BitVec.ofNat 32 c
  | 1 => bf16ToLane c
  | 2 => (toB32 (fp8Dec .e4m3 c)).1
  | 3 => (toB32 (fp8Dec .e5m2 c)).1
  | 6 => (toB32 (fvOfInt (toSigned 8 c))).1
  | _ => BitVec.ofNat 32 c

def vldBody (s : State) (r : Nat) (f : VectorSlot) (q : Room) : SlotRes :=
  let fmt := f.fmt.toNat
  let es := cellBytes fmt
  (readNow s r 0 srcVector (vecAddr q f) (256 * es) s.beat).bind fun (s, bs) =>
  let vals := (valuesOf es bs).map (widenLane fmt)
  let x := laneRun (fun a _ _ => pureLane a) 0 (vecOn q f) vals vals vals
  let s := addResultOf s r srcVector (s.beat + 6) .load (.v f.vd.toNat x.1)
  .ok (postInc s r f.aa.toNat (64 * f.ia.toNat))

/-- The narrowed values of a store and their cases. -/
def storeRun (fmt : Nat) (scale : Lane) (sr : Bool) (draw : Nat → Nat) : Nat → List Lane → List Nat × VecCases
  | _, [] => ([], {})
  | i, v :: vs =>
    let r := storeRun fmt scale sr draw (i + 1) vs
    let x := narrowLane fmt scale sr (if sr then draw i else 0) v
    (x.1 :: r.1, r.2.addStore x.2)

def vstBody (s : State) (r : Nat) (f : VectorSlot) (q : Room) : SlotRes :=
  let fmt := f.fmt.toNat
  let es := cellBytes fmt
  let off := vecAddr q f
  let xv := xReg q f.xs.toNat
  (claim s r 0 srcVector off (256 * es) (s.beat + 2)).bind fun s =>
  let draw (i : Nat) := drawOf (roomDrawKey s r 2 (bits xv 63 56)) (256 * bits xv 55 32 + i)
  let x := storeRun fmt (BitVec.ofNat 32 (bits xv 31 0)) (decide (f.ro = 1)) draw 0 (vReg q f.va.toNat)
  let s := addActionOf s r s.beat srcVector (s.beat + 2) 2 (.store off ((x.1.map (fun c => leBytes es c)).flatten))
  .ok (postInc (vecNote s r x.2) r f.aa.toNat (64 * f.ia.toNat))

/-! ### Across lanes (R81) -/

/-- One level of the tree. -/
def treeLevel (fn : Lane → Lane → Lane × NumFlags) : List Lane → List Lane × NumFlags
  | a :: b :: l =>
    let x := fn a b
    let r := treeLevel fn l
    (x.1 :: r.1, x.2.or r.2)
  | l => (l, noFlags)

/-- The levels of the tree over 2^n lanes. -/
def treeRun (fn : Lane → Lane → Lane × NumFlags) : Nat → List Lane → NumFlags → Lane × NumFlags
  | 0, l, fl => (l.headD 0, fl)
  | n + 1, l, fl => let x := treeLevel fn l; treeRun fn n x.1 (fl.or x.2)

def crossBody (s : State) (r : Nat) (f : VectorSlot) (q : Room) (fn : Lane → Lane → Lane × NumFlags) (ident : Lane) : SlotRes :=
  let vals := ((vecOn q f).zip (vReg q f.va.toNat)).map (fun p => if p.1 then p.2 else ident)
  let x := treeRun fn 8 vals noFlags
  let s := addResult s r (s.beat + 10) .vecArr (.x f.xs.toNat (x.1.zeroExtend 64))
  .ok (vecNote s r (({} : VecCases).addArith x.2))

def vxtrBody (s : State) (r : Nat) (f : VectorSlot) (q : Room) : SlotRes :=
  .ok (addResult s r (s.beat + 2) .vecArr (.x f.xs.toNat ((vLane q f.va.toNat (f.imm.toNat % 256)).zeroExtend 64)))

/-! ### The vector slot's instructions (Table 4.6) -/

/-- VADD (R59): d := a + b. -/
def execVadd (room : Nat) (f : VectorSlot) (s : State) : Host.Outcome State Fault Refusal :=
  .next (runSlot s room true (fun q => laneBody s room f q 4 .arith (fun a b _ => b32Add a b)))

/-- VSUB (R59): d := a − b. -/
def execVsub (room : Nat) (f : VectorSlot) (s : State) : Host.Outcome State Fault Refusal :=
  .next (runSlot s room true (fun q => laneBody s room f q 4 .arith (fun a b _ => b32Sub a b)))

/-- VMUL (R59): d := a × b. -/
def execVmul (room : Nat) (f : VectorSlot) (s : State) : Host.Outcome State Fault Refusal :=
  .next (runSlot s room true (fun q => laneBody s room f q 4 .arith (fun a b _ => b32Mul a b)))

/-- VFMA (R59): d := a × b + c with one rounding, ready at b + 5. -/
def execVfma (room : Nat) (f : VectorSlot) (s : State) : Host.Outcome State Fault Refusal :=
  .next (runSlot s room (unmasked f) (fun q => laneBody s room f q 5 .arith (fun a b c => b32Fma a b c)))

/-- VDIV (R102): d := a / b, on the iterative stage. -/
def execVdiv (room : Nat) (f : VectorSlot) (s : State) : Host.Outcome State Fault Refusal :=
  .next (runSlot s room true (fun q => iterBody s room f q (fun a b _ => b32Div a b)))

/-- VSQRT (R102): d := √a, on the iterative stage. -/
def execVsqrt (room : Nat) (f : VectorSlot) (s : State) : Host.Outcome State Fault Refusal :=
  .next (runSlot s room true (fun q => iterBody s room f q (fun a _ _ => b32Sqrt a)))

/-- VMIN (R59): the IEEE minimum. -/
def execVmin (room : Nat) (f : VectorSlot) (s : State) : Host.Outcome State Fault Refusal :=
  .next (runSlot s room true (fun q => laneBody s room f q 4 .arith (fun a b _ => b32Min a b)))

/-- VMAX (R59): the IEEE maximum. -/
def execVmax (room : Nat) (f : VectorSlot) (s : State) : Host.Outcome State Fault Refusal :=
  .next (runSlot s room true (fun q => laneBody s room f q 4 .arith (fun a b _ => b32Max a b)))

/-- VCEQ (R101): all ones where a = b. -/
def execVceq (room : Nat) (f : VectorSlot) (s : State) : Host.Outcome State Fault Refusal :=
  .next (runSlot s room true (fun q => laneBody s room f q 4 .arith (fun a b _ => b32Eq a b)))

/-- VCLT (R101): all ones where a < b. -/
def execVclt (room : Nat) (f : VectorSlot) (s : State) : Host.Outcome State Fault Refusal :=
  .next (runSlot s room true (fun q => laneBody s room f q 4 .arith (fun a b _ => b32Lt a b)))

/-- VCLE (R101): all ones where a ≤ b. -/
def execVcle (room : Nat) (f : VectorSlot) (s : State) : Host.Outcome State Fault Refusal :=
  .next (runSlot s room true (fun q => laneBody s room f q 4 .arith (fun a b _ => b32Le a b)))

/-- VSEL (R101): a where the mask lane is not zero, else b. -/
def execVsel (room : Nat) (f : VectorSlot) (s : State) : Host.Outcome State Fault Refusal :=
  .next (runSlot s room (unmasked f) (fun q => laneBody s room f q 4 .arith (fun a b c => pureLane (if c = 0 then b else a))))

/-- VIADD (R101): INT32 a + b, wrapping or saturating by RO. -/
def execViadd (room : Nat) (f : VectorSlot) (s : State) : Host.Outcome State Fault Refusal :=
  .next (runSlot s room true (fun q => laneBody s room f q 4 .arith (fun a b _ => i32Add (decide (f.ro = 1)) a b)))

/-- VISUB (R101): INT32 a − b, wrapping or saturating by RO. -/
def execVisub (room : Nat) (f : VectorSlot) (s : State) : Host.Outcome State Fault Refusal :=
  .next (runSlot s room true (fun q => laneBody s room f q 4 .arith (fun a b _ => i32Sub (decide (f.ro = 1)) a b)))

/-- VIMUL (R101): INT32 a × b, low 32 bits or saturated by RO. -/
def execVimul (room : Nat) (f : VectorSlot) (s : State) : Host.Outcome State Fault Refusal :=
  .next (runSlot s room true (fun q => laneBody s room f q 4 .arith (fun a b _ => i32Mul (decide (f.ro = 1)) a b)))

/-- VRELU (R101): a if a > 0, else +0; canonical NaN for NaN. -/
def execVrelu (room : Nat) (f : VectorSlot) (s : State) : Host.Outcome State Fault Refusal :=
  .next (runSlot s room true (fun q => laneBody s room f q 4 .arith (fun a _ _ => pureLane (b32Relu a))))

/-- VRELUD (R84): the derivative of relu (Table 3.8). -/
def execVrelud (room : Nat) (f : VectorSlot) (s : State) : Host.Outcome State Fault Refusal :=
  .next (runSlot s room true (fun q => laneBody s room f q 4 .arith (fun a _ _ => pureLane (b32ReluD a))))

/-- VCVTF (R80): INT32 to binary32 by RNE. -/
def execVcvtf (room : Nat) (f : VectorSlot) (s : State) : Host.Outcome State Fault Refusal :=
  .next (runSlot s room true (fun q => laneBody s room f q 4 .arith (fun a _ _ => pureLane (b32OfInt32 a))))

/-- VCVTI (R101): binary32 to INT32 by RNE, saturating. -/
def execVcvti (room : Nat) (f : VectorSlot) (s : State) : Host.Outcome State Fault Refusal :=
  .next (runSlot s room true (fun q => laneBody s room f q 4 .arith (fun a _ _ => b32ToInt32 a)))

/-- VLD (R80): 256 values from the room store, widened. -/
def execVld (room : Nat) (f : VectorSlot) (s : State) : Host.Outcome State Fault Refusal :=
  .next (runSlot s room (vmemLegal f) (fun q => vldBody s room f q))

/-- VST (R80): 256 values to the room store, narrowed. -/
def execVst (room : Nat) (f : VectorSlot) (s : State) : Host.Outcome State Fault Refusal :=
  .next (runSlot s room (vstLegal f) (fun q => vstBody s room f q))

/-- VBC (R101): X[XS][31:0] in every lane, ready at b + 2. -/
def execVbc (room : Nat) (f : VectorSlot) (s : State) : Host.Outcome State Fault Refusal :=
  .next (runSlot s room true (fun q => laneBody s room f q 2 .arith (fun _ _ _ => pureLane (BitVec.ofNat 32 (bits (xReg q f.xs.toNat) 31 0)))))

/-- VRSUM (R81): the sum across the lanes. -/
def execVrsum (room : Nat) (f : VectorSlot) (s : State) : Host.Outcome State Fault Refusal :=
  .next (runSlot s room true (fun q => crossBody s room f q b32Add 0))

/-- VRMIN (R81): the minimum across the lanes. -/
def execVrmin (room : Nat) (f : VectorSlot) (s : State) : Host.Outcome State Fault Refusal :=
  .next (runSlot s room true (fun q => crossBody s room f q b32Min 0x7F800000#32))

/-- VRMAX (R81): the maximum across the lanes. -/
def execVrmax (room : Nat) (f : VectorSlot) (s : State) : Host.Outcome State Fault Refusal :=
  .next (runSlot s room true (fun q => crossBody s room f q b32Max 0xFF800000#32))

/-- VXTR (R101): one lane into a scalar. -/
def execVxtr (room : Nat) (f : VectorSlot) (s : State) : Host.Outcome State Fault Refusal :=
  .next (runSlot s room true (fun q => vxtrBody s room f q))

/-- VSFU (R82): a special function. -/
def execVsfu (room : Nat) (f : VectorSlot) (s : State) : Host.Outcome State Fault Refusal :=
  .next (runSlot s room (vsfuLegal f) (fun q => sfuBody s room f q (sfuFn f.imm.toNat)))

/-- VSFUD (R84): the derivative of a function. -/
def execVsfud (room : Nat) (f : VectorSlot) (s : State) : Host.Outcome State Fault Refusal :=
  .next (runSlot s room (vsfudLegal f) (fun q => sfuBody s room f q (sfuDeriv f.imm.toNat)))

end Sys2Proof.Machine
end

