-- ==== Sys2Proof/Machine/Meanings.lean ====
section
/-!
DEFINITION. The meaning of every command as `exec` calls it: what its unit does, in a module whose clocks run. In a module that a freeze has stopped
(R447, R448) only the scan port, the standby domain's samples, the sensors and the input stage still act; every other command has no effect, since the
unit that would act has no clock. A unit of a main domain also needs power (R17).
-/
namespace Sys2Proof.Machine

/-- A unit with no clock does nothing (R448). -/
def clocked (s : State) (o : Host.Outcome State Fault Refusal) : Host.Outcome State Fault Refusal := if clocksStopped s then .next s else o

/-- A unit of a main domain does nothing before its floor has been brought up, either (R17). -/
def powered (s : State) (o : Host.Outcome State Fault Refusal) : Host.Outcome State Fault Refusal := if mainsIdle s then .next s else o

/-- ALOAD (R97). -/
def runAload (room : Nat) (f : ArraySlot) (s : State) : Host.Outcome State Fault Refusal := powered s (execAload room f s)
/-- ASWAP (R64). -/
def runAswap (room : Nat) (f : ArraySlot) (s : State) : Host.Outcome State Fault Refusal := powered s (execAswap room f s)
/-- AROW (R98). -/
def runArow (room : Nat) (f : ArraySlot) (s : State) : Host.Outcome State Fault Refusal := powered s (execArow room f s)
/-- AOROW (R100). -/
def runAorow (room : Nat) (f : ArraySlot) (s : State) : Host.Outcome State Fault Refusal := powered s (execAorow room f s)
/-- ADRAIN (R99). -/
def runAdrain (room : Nat) (f : ArraySlot) (s : State) : Host.Outcome State Fault Refusal := powered s (execAdrain room f s)
/-- ASTAT (R114). -/
def runAstat (room : Nat) (f : ArraySlot) (s : State) : Host.Outcome State Fault Refusal := powered s (execAstat room f s)
/-- ACLR (R114). -/
def runAclr (room : Nat) (f : ArraySlot) (s : State) : Host.Outcome State Fault Refusal := powered s (execAclr room f s)
/-- VADD (R59). -/
def runVadd (room : Nat) (f : VectorSlot) (s : State) : Host.Outcome State Fault Refusal := powered s (execVadd room f s)
/-- VSUB (R59). -/
def runVsub (room : Nat) (f : VectorSlot) (s : State) : Host.Outcome State Fault Refusal := powered s (execVsub room f s)
/-- VMUL (R59). -/
def runVmul (room : Nat) (f : VectorSlot) (s : State) : Host.Outcome State Fault Refusal := powered s (execVmul room f s)
/-- VFMA (R59). -/
def runVfma (room : Nat) (f : VectorSlot) (s : State) : Host.Outcome State Fault Refusal := powered s (execVfma room f s)
/-- VDIV (R102). -/
def runVdiv (room : Nat) (f : VectorSlot) (s : State) : Host.Outcome State Fault Refusal := powered s (execVdiv room f s)
/-- VSQRT (R102). -/
def runVsqrt (room : Nat) (f : VectorSlot) (s : State) : Host.Outcome State Fault Refusal := powered s (execVsqrt room f s)
/-- VMIN (R59). -/
def runVmin (room : Nat) (f : VectorSlot) (s : State) : Host.Outcome State Fault Refusal := powered s (execVmin room f s)
/-- VMAX (R59). -/
def runVmax (room : Nat) (f : VectorSlot) (s : State) : Host.Outcome State Fault Refusal := powered s (execVmax room f s)
/-- VCEQ (R101). -/
def runVceq (room : Nat) (f : VectorSlot) (s : State) : Host.Outcome State Fault Refusal := powered s (execVceq room f s)
/-- VCLT (R101). -/
def runVclt (room : Nat) (f : VectorSlot) (s : State) : Host.Outcome State Fault Refusal := powered s (execVclt room f s)
/-- VCLE (R101). -/
def runVcle (room : Nat) (f : VectorSlot) (s : State) : Host.Outcome State Fault Refusal := powered s (execVcle room f s)
/-- VSEL (R101). -/
def runVsel (room : Nat) (f : VectorSlot) (s : State) : Host.Outcome State Fault Refusal := powered s (execVsel room f s)
/-- VIADD (R101). -/
def runViadd (room : Nat) (f : VectorSlot) (s : State) : Host.Outcome State Fault Refusal := powered s (execViadd room f s)
/-- VISUB (R101). -/
def runVisub (room : Nat) (f : VectorSlot) (s : State) : Host.Outcome State Fault Refusal := powered s (execVisub room f s)
/-- VIMUL (R101). -/
def runVimul (room : Nat) (f : VectorSlot) (s : State) : Host.Outcome State Fault Refusal := powered s (execVimul room f s)
/-- VRELU (R101). -/
def runVrelu (room : Nat) (f : VectorSlot) (s : State) : Host.Outcome State Fault Refusal := powered s (execVrelu room f s)
/-- VRELUD (R84). -/
def runVrelud (room : Nat) (f : VectorSlot) (s : State) : Host.Outcome State Fault Refusal := powered s (execVrelud room f s)
/-- VCVTF (R80). -/
def runVcvtf (room : Nat) (f : VectorSlot) (s : State) : Host.Outcome State Fault Refusal := powered s (execVcvtf room f s)
/-- VCVTI (R101). -/
def runVcvti (room : Nat) (f : VectorSlot) (s : State) : Host.Outcome State Fault Refusal := powered s (execVcvti room f s)
/-- VLD (R80). -/
def runVld (room : Nat) (f : VectorSlot) (s : State) : Host.Outcome State Fault Refusal := powered s (execVld room f s)
/-- VST (R80). -/
def runVst (room : Nat) (f : VectorSlot) (s : State) : Host.Outcome State Fault Refusal := powered s (execVst room f s)
/-- VBC (R101). -/
def runVbc (room : Nat) (f : VectorSlot) (s : State) : Host.Outcome State Fault Refusal := powered s (execVbc room f s)
/-- VRSUM (R81). -/
def runVrsum (room : Nat) (f : VectorSlot) (s : State) : Host.Outcome State Fault Refusal := powered s (execVrsum room f s)
/-- VRMIN (R81). -/
def runVrmin (room : Nat) (f : VectorSlot) (s : State) : Host.Outcome State Fault Refusal := powered s (execVrmin room f s)
/-- VRMAX (R81). -/
def runVrmax (room : Nat) (f : VectorSlot) (s : State) : Host.Outcome State Fault Refusal := powered s (execVrmax room f s)
/-- VXTR (R101). -/
def runVxtr (room : Nat) (f : VectorSlot) (s : State) : Host.Outcome State Fault Refusal := powered s (execVxtr room f s)
/-- VSFU (R82). -/
def runVsfu (room : Nat) (f : VectorSlot) (s : State) : Host.Outcome State Fault Refusal := powered s (execVsfu room f s)
/-- VSFUD (R84). -/
def runVsfud (room : Nat) (f : VectorSlot) (s : State) : Host.Outcome State Fault Refusal := powered s (execVsfud room f s)
/-- MLOAD (R104). -/
def runMload (room : Nat) (f : MoveSlot) (s : State) : Host.Outcome State Fault Refusal := powered s (execMload room f s)
/-- MSTORE (R104). -/
def runMstore (room : Nat) (f : MoveSlot) (s : State) : Host.Outcome State Fault Refusal := powered s (execMstore room f s)
/-- MROOM (R23). -/
def runMroom (room : Nat) (f : MoveSlot) (s : State) : Host.Outcome State Fault Refusal := powered s (execMroom room f s)
/-- MATOM (R148). -/
def runMatom (room : Nat) (f : MoveSlot) (s : State) : Host.Outcome State Fault Refusal := powered s (execMatom room f s)
/-- MGATHER (R194). -/
def runMgather (room : Nat) (f : MoveSlot) (s : State) : Host.Outcome State Fault Refusal := powered s (execMgather room f s)
/-- MSCATTER (R205). -/
def runMscatter (room : Nat) (f : MoveSlot) (s : State) : Host.Outcome State Fault Refusal := powered s (execMscatter room f s)
/-- MSEND (R360). -/
def runMsend (room : Nat) (f : MoveSlot) (s : State) : Host.Outcome State Fault Refusal := powered s (execMsend room f s)
/-- MRECV (R361). -/
def runMrecv (room : Nat) (f : MoveSlot) (s : State) : Host.Outcome State Fault Refusal := powered s (execMrecv room f s)
/-- MREDUCE (R316). -/
def runMreduce (room : Nat) (f : MoveSlot) (s : State) : Host.Outcome State Fault Refusal := powered s (execMreduce room f s)
/-- MFENCE (R103). -/
def runMfence (room : Nat) (f : MoveSlot) (s : State) : Host.Outcome State Fault Refusal := powered s (execMfence room f s)
/-- MPREF (R147). -/
def runMpref (room : Nat) (f : MoveSlot) (s : State) : Host.Outcome State Fault Refusal := powered s (execMpref room f s)
/-- WAIT (R109). -/
def runWait (room : Nat) (f : ControlSlot) (s : State) : Host.Outcome State Fault Refusal := powered s (execWait room f s)
/-- TSTAT (R107). -/
def runTstat (room : Nat) (f : ControlSlot) (s : State) : Host.Outcome State Fault Refusal := powered s (execTstat room f s)
/-- XSET (R93). -/
def runXset (room : Nat) (f : ControlSlot) (s : State) : Host.Outcome State Fault Refusal := powered s (execXset room f s)
/-- XADD (R93). -/
def runXadd (room : Nat) (f : ControlSlot) (s : State) : Host.Outcome State Fault Refusal := powered s (execXadd room f s)
/-- XSUB (R93). -/
def runXsub (room : Nat) (f : ControlSlot) (s : State) : Host.Outcome State Fault Refusal := powered s (execXsub room f s)
/-- XMUL (R93). -/
def runXmul (room : Nat) (f : ControlSlot) (s : State) : Host.Outcome State Fault Refusal := powered s (execXmul room f s)
/-- XAND (R93). -/
def runXand (room : Nat) (f : ControlSlot) (s : State) : Host.Outcome State Fault Refusal := powered s (execXand room f s)
/-- XOR (R93). -/
def runXor (room : Nat) (f : ControlSlot) (s : State) : Host.Outcome State Fault Refusal := powered s (execXor room f s)
/-- XSHL (R93). -/
def runXshl (room : Nat) (f : ControlSlot) (s : State) : Host.Outcome State Fault Refusal := powered s (execXshl room f s)
/-- XSHR (R93). -/
def runXshr (room : Nat) (f : ControlSlot) (s : State) : Host.Outcome State Fault Refusal := powered s (execXshr room f s)
/-- XADDI (R93). -/
def runXaddi (room : Nat) (f : ControlSlot) (s : State) : Host.Outcome State Fault Refusal := powered s (execXaddi room f s)
/-- AMOV (R95). -/
def runAmov (room : Nat) (f : ControlSlot) (s : State) : Host.Outcome State Fault Refusal := powered s (execAmov room f s)
/-- AADD (R95). -/
def runAadd (room : Nat) (f : ControlSlot) (s : State) : Host.Outcome State Fault Refusal := powered s (execAadd room f s)
/-- LOOP (R108). -/
def runLoop (room : Nat) (f : ControlSlot) (s : State) : Host.Outcome State Fault Refusal := powered s (execLoop room f s)
/-- JMP (R108). -/
def runJmp (room : Nat) (f : ControlSlot) (s : State) : Host.Outcome State Fault Refusal := powered s (execJmp room f s)
/-- BNZ (R108). -/
def runBnz (room : Nat) (f : ControlSlot) (s : State) : Host.Outcome State Fault Refusal := powered s (execBnz room f s)
/-- SYNC (R127). -/
def runSync (room : Nat) (f : ControlSlot) (s : State) : Host.Outcome State Fault Refusal := powered s (execSync room f s)
/-- PEND (R108). -/
def runPend (room : Nat) (f : ControlSlot) (s : State) : Host.Outcome State Fault Refusal := powered s (execPend room f s)
/-- HALT (R127). -/
def runHalt (room : Nat) (f : ControlSlot) (s : State) : Host.Outcome State Fault Refusal := powered s (execHalt room f s)
/-- RSTAT (R115). -/
def runRstat (room : Nat) (f : ControlSlot) (s : State) : Host.Outcome State Fault Refusal := powered s (execRstat room f s)
/-- FTIME (R117). -/
def runFtime (room : Nat) (f : ControlSlot) (s : State) : Host.Outcome State Fault Refusal := powered s (execFtime room f s)
/-- WAIT_TIMEOUT (R112). -/
def runWaitTimeout (room : Nat) (s : State) : Host.Outcome State Fault Refusal := powered s (execWaitTimeout room s)
/-- MLOAD_DONE (R107). -/
def runMloadDone (room : Nat) (tk : Nat) (s : State) : Host.Outcome State Fault Refusal := powered s (execMloadDone room tk s)
/-- MSTORE_DONE (R107). -/
def runMstoreDone (room : Nat) (tk : Nat) (s : State) : Host.Outcome State Fault Refusal := powered s (execMstoreDone room tk s)
/-- MROOM_DONE (R107). -/
def runMroomDone (room : Nat) (tk : Nat) (s : State) : Host.Outcome State Fault Refusal := powered s (execMroomDone room tk s)
/-- MATOM_DONE (R106). -/
def runMatomDone (room : Nat) (tk : Nat) (s : State) : Host.Outcome State Fault Refusal := powered s (execMatomDone room tk s)
/-- MGATHER_DONE (R197). -/
def runMgatherDone (room : Nat) (tk : Nat) (s : State) : Host.Outcome State Fault Refusal := powered s (execMgatherDone room tk s)
/-- MSCATTER_DONE (R205). -/
def runMscatterDone (room : Nat) (tk : Nat) (s : State) : Host.Outcome State Fault Refusal := powered s (execMscatterDone room tk s)
/-- MSEND_DONE (R360). -/
def runMsendDone (room : Nat) (tk : Nat) (s : State) : Host.Outcome State Fault Refusal := powered s (execMsendDone room tk s)
/-- MRECV_DONE (R361). -/
def runMrecvDone (room : Nat) (tk : Nat) (s : State) : Host.Outcome State Fault Refusal := powered s (execMrecvDone room tk s)
/-- MREDUCE_DONE (R270). -/
def runMreduceDone (room : Nat) (tk : Nat) (s : State) : Host.Outcome State Fault Refusal := powered s (execMreduceDone room tk s)
/-- MFENCE_DONE (R103). -/
def runMfenceDone (room : Nat) (tk : Nat) (s : State) : Host.Outcome State Fault Refusal := powered s (execMfenceDone room tk s)
/-- MPREF_DONE (R147). -/
def runMprefDone (room : Nat) (tk : Nat) (s : State) : Host.Outcome State Fault Refusal := powered s (execMprefDone room tk s)
/-- PROGRAM_FILL_DONE (R126). -/
def runProgramFillDone (room : Nat) (s : State) : Host.Outcome State Fault Refusal := powered s (execProgramFillDone room s)
/-- TURN_SWAP (R138). -/
def runTurnSwap (failed : Bool) (s : State) : Host.Outcome State Fault Refusal := powered s (execTurnSwap failed s)
/-- SYNC_RELEASE (R128). -/
def runSyncRelease (s : State) : Host.Outcome State Fault Refusal := powered s (execSyncRelease s)
/-- BARRIER_ARRIVAL (R129). -/
def runBarrierArrival (s : State) : Host.Outcome State Fault Refusal := powered s (execBarrierArrival s)
/-- BARRIER_ARRIVE_RECEIVE (R129). -/
def runBarrierArriveReceive (x : Transfer) (s : State) : Host.Outcome State Fault Refusal := powered s (execBarrierArriveReceive x s)
/-- ROOT_DEADLINE (R129). -/
def runRootDeadline (s : State) : Host.Outcome State Fault Refusal := powered s (execRootDeadline s)
/-- BARRIER_NOTICE_RECEIVE (R129). -/
def runBarrierNoticeReceive (x : Transfer) (s : State) : Host.Outcome State Fault Refusal := powered s (execBarrierNoticeReceive x s)
/-- BARRIER_RELEASE (R129). -/
def runBarrierRelease (s : State) : Host.Outcome State Fault Refusal := powered s (execBarrierRelease s)
/-- TOLERANT_RELEASE (R131). -/
def runTolerantRelease (s : State) : Host.Outcome State Fault Refusal := powered s (execTolerantRelease s)
/-- BARRIER_TIMEOUT (R131). -/
def runBarrierTimeout (s : State) : Host.Outcome State Fault Refusal := powered s (execBarrierTimeout s)
/-- BARRIER_ABORT_RECEIVE (R132). -/
def runBarrierAbortReceive (x : Transfer) (s : State) : Host.Outcome State Fault Refusal := powered s (execBarrierAbortReceive x s)
/-- STEP_STOP (R132). -/
def runStepStop (s : State) : Host.Outcome State Fault Refusal := powered s (execStepStop s)
/-- SCH_CTRL_LOAD (R125). -/
def runSchCtrlLoad (s : State) : Host.Outcome State Fault Refusal := powered s (execSchCtrlLoad s)
/-- SCH_CTRL_START (R344). -/
def runSchCtrlStart (s : State) : Host.Outcome State Fault Refusal := powered s (execSchCtrlStart s)
/-- SCH_CTRL_STOP (R132). -/
def runSchCtrlStop (s : State) : Host.Outcome State Fault Refusal := powered s (execSchCtrlStop s)
/-- TIME_EXCHANGE (R366). -/
def runTimeExchange (ok : Bool) (t1 : Nat) (t2 : Nat) (t3 : Nat) (t4 : Nat) (s : State) : Host.Outcome State Fault Refusal := powered s (execTimeExchange ok t1 t2 t3 t4 s)
/-- HOLDOVER_EXPIRY (R367). -/
def runHoldoverExpiry (s : State) : Host.Outcome State Fault Refusal := powered s (execHoldoverExpiry s)
/-- TIME_UNLOCKED (R119). -/
def runTimeUnlocked (s : State) : Host.Outcome State Fault Refusal := powered s (execTimeUnlocked s)
/-- GM_CHANGE (R368). -/
def runGmChange (standby : Bool) (sbRank : Nat) (s : State) : Host.Outcome State Fault Refusal := powered s (execGmChange standby sbRank s)
/-- PPS_EDGE (R118). -/
def runPpsEdge (s : State) : Host.Outcome State Fault Refusal := powered s (execPpsEdge s)
/-- SCRUB_READ (R176). -/
def runScrubRead (cellar : Nat) (ch : Nat) (s : State) : Host.Outcome State Fault Refusal := powered s (execScrubRead cellar ch s)
/-- PERIODIC_RETRAIN_START (R179). -/
def runPeriodicRetrainStart (s : State) : Host.Outcome State Fault Refusal := powered s (execPeriodicRetrainStart s)
/-- DRIFT_RETRAIN_START (R179). -/
def runDriftRetrainStart (cellar : Nat) (ch : Nat) (s : State) : Host.Outcome State Fault Refusal := powered s (execDriftRetrainStart cellar ch s)
/-- FIRMWARE_RETRAIN (R184). -/
def runFirmwareRetrain (cellar : Nat) (ch : Nat) (s : State) : Host.Outcome State Fault Refusal := powered s (execFirmwareRetrain cellar ch s)
/-- RETRAIN_COMPLETE (R181). -/
def runRetrainComplete (cellar : Nat) (ch : Nat) (rdT : Nat) (wrT : Nat) (rdV : Nat) (wrV : Nat) (s : State) : Host.Outcome State Fault Refusal := powered s (execRetrainComplete cellar ch rdT wrT rdV wrV s)
/-- CHANNEL_MAPOUT (R182). -/
def runChannelMapout (cellar : Nat) (ch : Nat) (s : State) : Host.Outcome State Fault Refusal := powered s (execChannelMapout cellar ch s)
/-- FLOAT_MOVE_COMPLETE (R154). -/
def runFloatMoveComplete (entry : Nat) (s : State) : Host.Outcome State Fault Refusal := powered s (execFloatMoveComplete entry s)
/-- PACKED_BLOCK_WRITEBACK (R162). -/
def runPackedBlockWriteback (slot : Nat) (s : State) : Host.Outcome State Fault Refusal := powered s (execPackedBlockWriteback slot s)
/-- LDR_PREP_SUBMIT (R193). -/
def runLdrPrepSubmit (floor : Nat) (addr : Nat) (s : State) : Host.Outcome State Fault Refusal := powered s (execLdrPrepSubmit floor addr s)
/-- PREP_COMPLETE (R192). -/
def runPrepComplete (floor : Nat) (s : State) : Host.Outcome State Fault Refusal := powered s (execPrepComplete floor s)
/-- GATHER_ROW_READ_DONE (R197). -/
def runGatherRowReadDone (room : Nat) (tk : Nat) (n : Nat) (s : State) : Host.Outcome State Fault Refusal := powered s (execGatherRowReadDone room tk n s)
/-- INDEX_RECEIVE (R203). -/
def runIndexReceive (x : Transfer) (s : State) : Host.Outcome State Fault Refusal := powered s (execIndexReceive x s)
/-- REPLY_RECEIVE (R204). -/
def runReplyReceive (x : Transfer) (s : State) : Host.Outcome State Fault Refusal := powered s (execReplyReceive x s)
/-- SCATTER_RECEIVE (R207). -/
def runScatterReceive (x : Transfer) (s : State) : Host.Outcome State Fault Refusal := powered s (execScatterReceive x s)
/-- CELLAR_UPDATE_COMPLETE (R212). -/
def runCellarUpdateComplete (cellar : Nat) (s : State) : Host.Outcome State Fault Refusal := powered s (execCellarUpdateComplete cellar s)
/-- VERSION_LOAD (R227). -/
def runVersionLoad (addr : Nat) (s : State) : Host.Outcome State Fault Refusal := powered s (execVersionLoad addr s)
/-- VERSION_READY (R227). -/
def runVersionReady (addr : Nat) (s : State) : Host.Outcome State Fault Refusal := powered s (execVersionReady addr s)
/-- VERSION_SWITCH_REQUEST (R228). -/
def runVersionSwitchRequest (addr : Nat) (s : State) : Host.Outcome State Fault Refusal := powered s (execVersionSwitchRequest addr s)
/-- VERSION_BIND (R230). -/
def runVersionBind (addr : Nat) (s : State) : Host.Outcome State Fault Refusal := powered s (execVersionBind addr s)
/-- VERSION_UNBIND (R230). -/
def runVersionUnbind (addr : Nat) (s : State) : Host.Outcome State Fault Refusal := powered s (execVersionUnbind addr s)
/-- VERSION_DISCARD (R227). -/
def runVersionDiscard (addr : Nat) (s : State) : Host.Outcome State Fault Refusal := powered s (execVersionDiscard addr s)
/-- MIGRATE_RECEIVE (R238). -/
def runMigrateReceive (x : Transfer) (s : State) : Host.Outcome State Fault Refusal := powered s (execMigrateReceive x s)
/-- PREFETCH_SUBMIT (R241). -/
def runPrefetchSubmit (floor : Nat) (addr : Nat) (s : State) : Host.Outcome State Fault Refusal := powered s (execPrefetchSubmit floor addr s)
/-- SLICE_DELIVER (R281). -/
def runSliceDeliver (k : Nat) (s : State) : Host.Outcome State Fault Refusal := powered s (execSliceDeliver k s)
/-- BLOCK_PROCESS_COMPLETE (R282). -/
def runBlockProcessComplete (floor : Nat) (s : State) : Host.Outcome State Fault Refusal := powered s (execBlockProcessComplete floor s)
/-- COLLECTIVE_RECEIVE (R318). -/
def runCollectiveReceive (x : Transfer) (s : State) : Host.Outcome State Fault Refusal := powered s (execCollectiveReceive x s)
/-- JOURNAL_PUT (R338). -/
def runJournalPut (addr : Nat) (s : State) : Host.Outcome State Fault Refusal := powered s (execJournalPut addr s)
/-- LANE_SPARE (R351). -/
def runLaneSpare (link : Nat) (lane : Nat) (s : State) : Host.Outcome State Fault Refusal := powered s (execLaneSpare link lane s)
/-- LANE_LOSS_OF_LOCK (R351). -/
def runLaneLossOfLock (link : Nat) (lane : Nat) (s : State) : Host.Outcome State Fault Refusal := powered s (execLaneLossOfLock link lane s)
/-- SPARE_NOW (R351). -/
def runSpareNow (link : Nat) (s : State) : Host.Outcome State Fault Refusal := powered s (execSpareNow link s)
/-- FLIT_RECEIVE (R353). -/
def runFlitReceive (link : Nat) (f : FlitIn) (s : State) : Host.Outcome State Fault Refusal := powered s (execFlitReceive link f s)
/-- NAK_RECEIVE (R353). -/
def runNakReceive (link : Nat) (seq : Nat) (s : State) : Host.Outcome State Fault Refusal := powered s (execNakReceive link seq s)
/-- LINK_ACK_TIMEOUT (R353). -/
def runLinkAckTimeout (link : Nat) (s : State) : Host.Outcome State Fault Refusal := powered s (execLinkAckTimeout link s)
/-- LINK_RETRAIN (R353). -/
def runLinkRetrain (link : Nat) (s : State) : Host.Outcome State Fault Refusal := powered s (execLinkRetrain link s)
/-- LINK_TRAIN_COMPLETE (R353). -/
def runLinkTrainComplete (link : Nat) (ok : Bool) (cr0 : Nat) (cr1 : Nat) (cr2 : Nat) (s : State) : Host.Outcome State Fault Refusal := powered s (execLinkTrainComplete link ok cr0 cr1 cr2 s)
/-- ACK_RECEIVE (R358). -/
def runAckReceive (acks : List (Nat × Nat × Nat × Nat)) (s : State) : Host.Outcome State Fault Refusal := powered s (execAckReceive acks s)
/-- E2E_TIMEOUT (R358). -/
def runE2eTimeout (floor : Nat) (xid : Nat) (s : State) : Host.Outcome State Fault Refusal := powered s (execE2eTimeout floor xid s)
/-- SEND_RECEIVE (R361). -/
def runSendReceive (x : Transfer) (s : State) : Host.Outcome State Fault Refusal := powered s (execSendReceive x s)
/-- PEER_WRITE_RECEIVE (R363). -/
def runPeerWriteReceive (x : Transfer) (s : State) : Host.Outcome State Fault Refusal := powered s (execPeerWriteReceive x s)
/-- RDMA_WRITE (R383). -/
def runRdmaWrite (qp : Nat) (key : Nat) (va : Nat) (bs : List Byte) (ce : Bool) (s : State) : Host.Outcome State Fault Refusal := powered s (execRdmaWrite qp key va bs ce s)
/-- RDMA_READ (R382). -/
def runRdmaRead (qp : Nat) (key : Nat) (va : Nat) (n : Nat) (ce : Bool) (s : State) : Host.Outcome State Fault Refusal := powered s (execRdmaRead qp key va n ce s)
/-- ROCE_SEND (R392). -/
def runRoceSend (qp : Nat) (bs : List Byte) (ce : Bool) (s : State) : Host.Outcome State Fault Refusal := powered s (execRoceSend qp bs ce s)
/-- CNP_RECEIVE (R372). -/
def runCnpReceive (qp : Nat) (s : State) : Host.Outcome State Fault Refusal := powered s (execCnpReceive qp s)
/-- CC_TIMER (R372). -/
def runCcTimer (qp : Nat) (s : State) : Host.Outcome State Fault Refusal := powered s (execCcTimer qp s)
/-- ROCE_ACK_TIMEOUT (R371). -/
def runRoceAckTimeout (qp : Nat) (s : State) : Host.Outcome State Fault Refusal := powered s (execRoceAckTimeout qp s)
/-- PORT_SERVICE_FRAME (R371). -/
def runPortServiceFrame (port : Nat) (f : PortFrame) (s : State) : Host.Outcome State Fault Refusal := powered s (execPortServiceFrame port f s)
/-- EAPOL_FRAME (R373). -/
def runEapolFrame (port : Nat) (keyed : Bool) (s : State) : Host.Outcome State Fault Refusal := powered s (execEapolFrame port keyed s)
/-- PORCH_LINK_DOWN (R374). -/
def runPorchLinkDown (port : Nat) (s : State) : Host.Outcome State Fault Refusal := powered s (execPorchLinkDown port s)
/-- PORCH_LINK_UP (R484). -/
def runPorchLinkUp (port : Nat) (allowed : Bool) (s : State) : Host.Outcome State Fault Refusal := powered s (execPorchLinkUp port allowed s)
/-- PRODUCER_WRITE (R392). -/
def runProducerWrite (q : Nat) (v : Nat) (s : State) : Host.Outcome State Fault Refusal := powered s (execProducerWrite q v s)
/-- RESUME_WRITE (R393). -/
def runResumeWrite (q : Nat) (v : Nat) (s : State) : Host.Outcome State Fault Refusal := powered s (execResumeWrite q v s)
/-- CQ_CONSUMER_WRITE (R392). -/
def runCqConsumerWrite (q : Nat) (v : Nat) (s : State) : Host.Outcome State Fault Refusal := powered s (execCqConsumerWrite q v s)
/-- COMMAND_CONSUME (R393). -/
def runCommandConsume (q : Nat) (s : State) : Host.Outcome State Fault Refusal := powered s (execCommandConsume q s)
/-- COMMAND_REREAD (R393). -/
def runCommandReread (q : Nat) (s : State) : Host.Outcome State Fault Refusal := powered s (execCommandReread q s)
/-- NOP (R399). -/
def runNop (q : Nat) (s : State) : Host.Outcome State Fault Refusal := clocked s (execNop q s)
/-- QUERY (R399). -/
def runQuery (q : Nat) (s : State) : Host.Outcome State Fault Refusal := clocked s (execQuery q s)
/-- REG_READ (R399). -/
def runRegRead (q : Nat) (s : State) : Host.Outcome State Fault Refusal := clocked s (execRegRead q s)
/-- REG_WRITE (R399). -/
def runRegWrite (q : Nat) (s : State) : Host.Outcome State Fault Refusal := clocked s (execRegWrite q s)
/-- OPEN_SESSION (R378). -/
def runOpenSession (q : Nat) (s : State) : Host.Outcome State Fault Refusal := clocked s (execOpenSession q s)
/-- CLOSE_SESSION (R381). -/
def runCloseSession (q : Nat) (s : State) : Host.Outcome State Fault Refusal := clocked s (execCloseSession q s)
/-- REGISTER_REGION (R380). -/
def runRegisterRegion (q : Nat) (s : State) : Host.Outcome State Fault Refusal := clocked s (execRegisterRegion q s)
/-- WIN_MOVE (R384). -/
def runWinMove (q : Nat) (s : State) : Host.Outcome State Fault Refusal := clocked s (execWinMove q s)
/-- SET_STAGING (R385). -/
def runSetStaging (q : Nat) (s : State) : Host.Outcome State Fault Refusal := clocked s (execSetStaging q s)
/-- BATCH (R387). -/
def runBatch (q : Nat) (s : State) : Host.Outcome State Fault Refusal := clocked s (execBatch q s)
/-- JOB_LOAD (R400). -/
def runJobLoad (q : Nat) (modules : Nat) (s : State) : Host.Outcome State Fault Refusal := clocked s (execJobLoad q modules s)
/-- JOB_START (R344). -/
def runJobStart (q : Nat) (s : State) : Host.Outcome State Fault Refusal := clocked s (execJobStart q s)
/-- JOB_STOP (R399). -/
def runJobStop (q : Nat) (s : State) : Host.Outcome State Fault Refusal := clocked s (execJobStop q s)
/-- JOB_UNLOAD (R385). -/
def runJobUnload (q : Nat) (s : State) : Host.Outcome State Fault Refusal := clocked s (execJobUnload q s)
/-- RESTORE (R418). -/
def runRestore (q : Nat) (written : Bool) (s : State) : Host.Outcome State Fault Refusal := clocked s (execRestore q written s)
/-- JOURNAL_SAFE (R341). -/
def runJournalSafe (q : Nat) (s : State) : Host.Outcome State Fault Refusal := clocked s (execJournalSafe q s)
/-- VERSION (R227). -/
def runVersion (q : Nat) (s : State) : Host.Outcome State Fault Refusal := clocked s (execVersion q s)
/-- MAPOUT (R182). -/
def runMapout (q : Nat) (s : State) : Host.Outcome State Fault Refusal := clocked s (execMapout q s)
/-- ATTEST (R470). -/
def runAttest (q : Nat) (s : State) : Host.Outcome State Fault Refusal := clocked s (execAttest q s)
/-- WRAP_CAK (R462). -/
def runWrapCak (q : Nat) (s : State) : Host.Outcome State Fault Refusal := clocked s (execWrapCak q s)
/-- NOTICE_WRITE_ACK (R398). -/
def runNoticeWriteAck (slot : Nat) (nseq : Nat) (s : State) : Host.Outcome State Fault Refusal := powered s (execNoticeWriteAck slot nseq s)
/-- MGMT_REQUEST (R471). -/
def runMgmtRequest (datagram : List Byte) (s : State) : Host.Outcome State Fault Refusal := clocked s (execMgmtRequest datagram s)
/-- EPOCH_SHADOW_COPY_DONE (R405). -/
def runEpochShadowCopyDone (s : State) : Host.Outcome State Fault Refusal := powered s (execEpochShadowCopyDone s)
/-- DENSE_COPY_DONE (R406). -/
def runDenseCopyDone (s : State) : Host.Outcome State Fault Refusal := powered s (execDenseCopyDone s)
/-- EPOCH_COMPLETE (R409). -/
def runEpochComplete (s : State) : Host.Outcome State Fault Refusal := powered s (execEpochComplete s)
/-- ATTIC_IO_COMPLETE (R411). -/
def runAtticIoComplete (drive : Nat) (queue : Nat) (status : Nat) (s : State) : Host.Outcome State Fault Refusal := powered s (execAtticIoComplete drive queue status s)
/-- ATTIC_COMMAND_TIMEOUT (R417). -/
def runAtticCommandTimeout (drive : Nat) (s : State) : Host.Outcome State Fault Refusal := powered s (execAtticCommandTimeout drive s)
/-- ATTIC_DRIVE_LINK_LOST (R417). -/
def runAtticDriveLinkLost (drive : Nat) (s : State) : Host.Outcome State Fault Refusal := powered s (execAtticDriveLinkLost drive s)
/-- ATTIC_HEALTH_POLL (R415). -/
def runAtticHealthPoll (drive : Nat) (used : Nat) (spare : Nat) (threshold : Nat) (warn : Nat) (s : State) : Host.Outcome State Fault Refusal := powered s (execAtticHealthPoll drive used spare threshold warn s)
/-- ATTIC_SCRUB (R416). -/
def runAtticScrub (drive : Nat) (bad : Bool) (s : State) : Host.Outcome State Fault Refusal := powered s (execAtticScrub drive bad s)
/-- ATTIC_ADOPT (R417). -/
def runAtticAdopt (drive : Nat) (serial : Nat) (blocks : Nat) (ok : Bool) (s : State) : Host.Outcome State Fault Refusal := powered s (execAtticAdopt drive serial blocks ok s)
/-- ATTIC_REBUILD_COMPLETE (R417). -/
def runAtticRebuildComplete (drive : Nat) (ok : Bool) (s : State) : Host.Outcome State Fault Refusal := powered s (execAtticRebuildComplete drive ok s)
/-- ATTIC_RETIRE (R417). -/
def runAtticRetire (drive : Nat) (s : State) : Host.Outcome State Fault Refusal := powered s (execAtticRetire drive s)
/-- ATTIC_IMPORT (R420). -/
def runAtticImport (addr : Nat) (s : State) : Host.Outcome State Fault Refusal := powered s (execAtticImport addr s)
/-- EXPORT_TAIL_ADVANCE (R410). -/
def runExportTailAdvance (tail : Nat) (s : State) : Host.Outcome State Fault Refusal := powered s (execExportTailAdvance tail s)
/-- MP_WATCHDOG (R429). -/
def runMpWatchdog (core : Nat) (s : State) : Host.Outcome State Fault Refusal := clocked s (execMpWatchdog core s)
/-- MP_SRAM_UNCORRECTABLE (R428). -/
def runMpSramUncorrectable (word : Nat) (double : Bool) (s : State) : Host.Outcome State Fault Refusal := clocked s (execMpSramUncorrectable word double s)
/-- WATCHDOG_KICK (R429). -/
def runWatchdogKick (core : Nat) (s : State) : Host.Outcome State Fault Refusal := clocked s (execWatchdogKick core s)
/-- IRQ_LEVEL_CHANGE (R433). -/
def runIrqLevelChange (source : Nat) (s : State) : Host.Outcome State Fault Refusal := clocked s (execIrqLevelChange source s)
/-- IRQ_HOLDOFF_EXPIRY (R432). -/
def runIrqHoldoffExpiry (group : Nat) (s : State) : Host.Outcome State Fault Refusal := clocked s (execIrqHoldoffExpiry group s)
/-- IRQ_CLAIM (R434). -/
def runIrqClaim (target : Nat) (s : State) : Host.Outcome State Fault Refusal := clocked s (execIrqClaim target s)
/-- IRQ_EOI (R435). -/
def runIrqEoi (target : Nat) (source : Nat) (s : State) : Host.Outcome State Fault Refusal := clocked s (execIrqEoi target source s)
/-- IRQ_SWSET (R431). -/
def runIrqSwset (source : Nat) (s : State) : Host.Outcome State Fault Refusal := clocked s (execIrqSwset source s)
/-- IRQ_SWCLR (R431). -/
def runIrqSwclr (source : Nat) (s : State) : Host.Outcome State Fault Refusal := clocked s (execIrqSwclr source s)
/-- EVR_RECORD_WRITE (R437). -/
def runEvrRecordWrite (s : State) : Host.Outcome State Fault Refusal := clocked s (execEvrRecordWrite s)
/-- EVR_DATA (R440). -/
def runEvrData (s : State) : Host.Outcome State Fault Refusal := clocked s (execEvrData s)
/-- EVR_CURSOR (R440). -/
def runEvrCursor (offset : Nat) (s : State) : Host.Outcome State Fault Refusal := clocked s (execEvrCursor offset s)
/-- EVR_FIRE (R441). -/
def runEvrFire (trigger : Nat) (s : State) : Host.Outcome State Fault Refusal := clocked s (execEvrFire trigger s)
/-- EVR_SOFT (R437). -/
def runEvrSoft (code : Nat) (arg : Nat) (s : State) : Host.Outcome State Fault Refusal := clocked s (execEvrSoft code arg s)
/-- EVR_TIME_TRIGGER (R441). -/
def runEvrTimeTrigger (trigger : Nat) (s : State) : Host.Outcome State Fault Refusal := clocked s (execEvrTimeTrigger trigger s)
/-- EVR_SNAPSHOT_COMPLETE (R442). -/
def runEvrSnapshotComplete (s : State) : Host.Outcome State Fault Refusal := clocked s (execEvrSnapshotComplete s)
/-- CVU_GO (R445). -/
def runCvuGo (channel : Nat) (count : Nat) (s : State) : Host.Outcome State Fault Refusal := clocked s (execCvuGo channel count s)
/-- CVU_COMPLETE (R445). -/
def runCvuComplete (channel : Nat) (s : State) : Host.Outcome State Fault Refusal := clocked s (execCvuComplete channel s)
/-- FREEZE_N (R481). -/
def runFreezeN (s : State) : Host.Outcome State Fault Refusal := clocked s (execFreezeN s)
/-- MP_FREEZE_NOW (R447). -/
def runMpFreezeNow (key : Nat) (s : State) : Host.Outcome State Fault Refusal := clocked s (execMpFreezeNow key s)
/-- TIMED_FREEZE (R447). -/
def runTimedFreeze (s : State) : Host.Outcome State Fault Refusal := clocked s (execTimedFreeze s)
/-- RAIL_OVERLOAD (R452). -/
def runRailOverload (kind : Nat) (inst : Nat) (s : State) : Host.Outcome State Fault Refusal := powered s (execRailOverload kind inst s)
/-- DROOP (R457). -/
def runDroop (floor : Nat) (below : Bool) (s : State) : Host.Outcome State Fault Refusal := powered s (execDroop floor below s)
/-- SEC_MR3_EXT (R469). -/
def runSecMr3Ext (addr : Nat) (s : State) : Host.Outcome State Fault Refusal := clocked s (execSecMr3Ext addr s)
/-- BOOT_ROM_STAGE (R468). -/
def runBootRomStage (romOk : Bool) (stepping : Nat) (s : State) : Host.Outcome State Fault Refusal := clocked s (execBootRomStage romOk stepping s)
/-- TRAVAR_STAGE (R466). -/
def runTravarStage (s : State) : Host.Outcome State Fault Refusal := clocked s (execTravarStage s)
/-- CONFIGURATION_STAGE (R464). -/
def runConfigurationStage (s : State) : Host.Outcome State Fault Refusal := clocked s (execConfigurationStage s)
/-- FLOOR_BRINGUP_STAGE (R456). -/
def runFloorBringupStage (badRail : Option Nat) (vmins : List Nat) (speeds : List Nat) (arrays : List (Nat × Nat)) (rooms : List Nat) (s : State) : Host.Outcome State Fault Refusal := clocked s (execFloorBringupStage badRail vmins speeds arrays rooms s)
/-- CELLAR_TRAINING_STAGE (R185). -/
def runCellarTrainingStage (failed : List Nat) (margins : List (Nat × Nat × Nat × Nat × Nat × Nat)) (s : State) : Host.Outcome State Fault Refusal := clocked s (execCellarTrainingStage failed margins s)
/-- LINK_STAGE (R472). -/
def runLinkStage (drives : List (Nat × Nat × Nat × Bool)) (s : State) : Host.Outcome State Fault Refusal := clocked s (execLinkStage drives s)
/-- FABRIC_TIME_STAGE (R368). -/
def runFabricTimeStage (gm : Bool) (standby : Bool) (gmRank : Nat) (sbRank : Nat) (s : State) : Host.Outcome State Fault Refusal := clocked s (execFabricTimeStage gm standby gmRank sbRank s)
/-- ATTESTATION_STAGE (R473). -/
def runAttestationStage (written : Bool) (s : State) : Host.Outcome State Fault Refusal := clocked s (execAttestationStage written s)
/-- LETTERBOX_STAGE (R472). -/
def runLetterboxStage (s : State) : Host.Outcome State Fault Refusal := clocked s (execLetterboxStage s)
/-- SERVICE_IMAGE_WRITE (R467). -/
def runServiceImageWrite (slot : Nat) (image : List Byte) (s : State) : Host.Outcome State Fault Refusal := clocked s (execServiceImageWrite slot image s)
/-- SERVICE_CONFIG_WRITE (R467). -/
def runServiceConfigWrite (part : List Byte) (s : State) : Host.Outcome State Fault Refusal := clocked s (execServiceConfigWrite part s)
/-- SERVICE_RESET (R467). -/
def runServiceReset (s : State) : Host.Outcome State Fault Refusal := clocked s (execServiceReset s)
/-- REGISTER_WRITE (R9). -/
def runRegisterWrite (acc : CtlAccess) (data : Word) (s : State) : Host.Outcome State Fault Refusal := clocked s (execRegisterWrite acc data s)
/-- SERVE_ROW_READ_DONE (R203). -/
def runServeRowReadDone (floor : Nat) (k : Nat) (e : Nat) (s : State) : Host.Outcome State Fault Refusal := powered s (execServeRowReadDone floor k e s)
/-- XID_RELEASE (R358). -/
def runXidRelease (floor : Nat) (xid : Nat) (s : State) : Host.Outcome State Fault Refusal := powered s (execXidRelease floor xid s)
/-- REF_OK_CHANGE (R479). -/
def runRefOkChange (ok : Bool) (gm : Bool) (standby : Bool) (gmRank : Nat) (sbRank : Nat) (s : State) : Host.Outcome State Fault Refusal := powered s (execRefOkChange ok gm standby gmRank sbRank s)
/-- MANAGEMENT_PORT_LINK_CHANGE (R431). -/
def runManagementPortLinkChange (s : State) : Host.Outcome State Fault Refusal := clocked s (execManagementPortLinkChange s)
/-- MACSEC_REKEY (R373). -/
def runMacsecRekey (port : Nat) (s : State) : Host.Outcome State Fault Refusal := powered s (execMacsecRekey port s)
/-- PRIORITY_FLOW_CONTROL_FRAME (R369). -/
def runPriorityFlowControlFrame (port : Nat) (prio : Nat) (pause : Bool) (s : State) : Host.Outcome State Fault Refusal := powered s (execPriorityFlowControlFrame port prio pause s)
/-- ROCE_NAK_RECEIVE (R381). -/
def runRoceNakReceive (qp : Nat) (rnr : Bool) (s : State) : Host.Outcome State Fault Refusal := powered s (execRoceNakReceive qp rnr s)
/-- REPLAY_RING_LOAD (R346). -/
def runReplayRingLoad (head : Nat) (s : State) : Host.Outcome State Fault Refusal := powered s (execReplayRingLoad head s)
/-- REGISTER_READ_CLEAR (R9). -/
def runRegisterReadClear (acc : CtlAccess) (s : State) : Host.Outcome State Fault Refusal := clocked s (execRegisterReadClear acc s)
/-- CORE_RESET (R427). -/
def runCoreReset (mask : Nat) (s : State) : Host.Outcome State Fault Refusal := clocked s (execCoreReset mask s)
/-- ATTIC_CONTROLLER_FATAL (R417). -/
def runAtticControllerFatal (drive : Nat) (s : State) : Host.Outcome State Fault Refusal := powered s (execAtticControllerFatal drive s)

end Sys2Proof.Machine
end

