-- ==== Sys2Proof/Machine/Dispatch.lean ====
section
/-!
DEFINITION. One arm per command: its meaning, called directly.
-/
namespace Sys2Proof.Machine

def exec (i : Instr) (s : State) : Host.Outcome State Fault Refusal :=
  match i with
  | .aload room f => Sys2Proof.Machine.runAload room f s
  | .aswap room f => Sys2Proof.Machine.runAswap room f s
  | .arow room f => Sys2Proof.Machine.runArow room f s
  | .aorow room f => Sys2Proof.Machine.runAorow room f s
  | .adrain room f => Sys2Proof.Machine.runAdrain room f s
  | .astat room f => Sys2Proof.Machine.runAstat room f s
  | .aclr room f => Sys2Proof.Machine.runAclr room f s
  | .vadd room f => Sys2Proof.Machine.runVadd room f s
  | .vsub room f => Sys2Proof.Machine.runVsub room f s
  | .vmul room f => Sys2Proof.Machine.runVmul room f s
  | .vfma room f => Sys2Proof.Machine.runVfma room f s
  | .vdiv room f => Sys2Proof.Machine.runVdiv room f s
  | .vsqrt room f => Sys2Proof.Machine.runVsqrt room f s
  | .vmin room f => Sys2Proof.Machine.runVmin room f s
  | .vmax room f => Sys2Proof.Machine.runVmax room f s
  | .vceq room f => Sys2Proof.Machine.runVceq room f s
  | .vclt room f => Sys2Proof.Machine.runVclt room f s
  | .vcle room f => Sys2Proof.Machine.runVcle room f s
  | .vsel room f => Sys2Proof.Machine.runVsel room f s
  | .viadd room f => Sys2Proof.Machine.runViadd room f s
  | .visub room f => Sys2Proof.Machine.runVisub room f s
  | .vimul room f => Sys2Proof.Machine.runVimul room f s
  | .vrelu room f => Sys2Proof.Machine.runVrelu room f s
  | .vrelud room f => Sys2Proof.Machine.runVrelud room f s
  | .vcvtf room f => Sys2Proof.Machine.runVcvtf room f s
  | .vcvti room f => Sys2Proof.Machine.runVcvti room f s
  | .vld room f => Sys2Proof.Machine.runVld room f s
  | .vst room f => Sys2Proof.Machine.runVst room f s
  | .vbc room f => Sys2Proof.Machine.runVbc room f s
  | .vrsum room f => Sys2Proof.Machine.runVrsum room f s
  | .vrmin room f => Sys2Proof.Machine.runVrmin room f s
  | .vrmax room f => Sys2Proof.Machine.runVrmax room f s
  | .vxtr room f => Sys2Proof.Machine.runVxtr room f s
  | .vsfu room f => Sys2Proof.Machine.runVsfu room f s
  | .vsfud room f => Sys2Proof.Machine.runVsfud room f s
  | .mload room f => Sys2Proof.Machine.runMload room f s
  | .mstore room f => Sys2Proof.Machine.runMstore room f s
  | .mroom room f => Sys2Proof.Machine.runMroom room f s
  | .matom room f => Sys2Proof.Machine.runMatom room f s
  | .mgather room f => Sys2Proof.Machine.runMgather room f s
  | .mscatter room f => Sys2Proof.Machine.runMscatter room f s
  | .msend room f => Sys2Proof.Machine.runMsend room f s
  | .mrecv room f => Sys2Proof.Machine.runMrecv room f s
  | .mreduce room f => Sys2Proof.Machine.runMreduce room f s
  | .mfence room f => Sys2Proof.Machine.runMfence room f s
  | .mpref room f => Sys2Proof.Machine.runMpref room f s
  | .wait room f => Sys2Proof.Machine.runWait room f s
  | .tstat room f => Sys2Proof.Machine.runTstat room f s
  | .xset room f => Sys2Proof.Machine.runXset room f s
  | .xadd room f => Sys2Proof.Machine.runXadd room f s
  | .xsub room f => Sys2Proof.Machine.runXsub room f s
  | .xmul room f => Sys2Proof.Machine.runXmul room f s
  | .xand room f => Sys2Proof.Machine.runXand room f s
  | .xor room f => Sys2Proof.Machine.runXor room f s
  | .xshl room f => Sys2Proof.Machine.runXshl room f s
  | .xshr room f => Sys2Proof.Machine.runXshr room f s
  | .xaddi room f => Sys2Proof.Machine.runXaddi room f s
  | .amov room f => Sys2Proof.Machine.runAmov room f s
  | .aadd room f => Sys2Proof.Machine.runAadd room f s
  | .loop room f => Sys2Proof.Machine.runLoop room f s
  | .jmp room f => Sys2Proof.Machine.runJmp room f s
  | .bnz room f => Sys2Proof.Machine.runBnz room f s
  | .sync room f => Sys2Proof.Machine.runSync room f s
  | .pend room f => Sys2Proof.Machine.runPend room f s
  | .halt room f => Sys2Proof.Machine.runHalt room f s
  | .rstat room f => Sys2Proof.Machine.runRstat room f s
  | .ftime room f => Sys2Proof.Machine.runFtime room f s
  | .waitTimeout room => Sys2Proof.Machine.runWaitTimeout room s
  | .mloadDone room tk => Sys2Proof.Machine.runMloadDone room tk s
  | .mstoreDone room tk => Sys2Proof.Machine.runMstoreDone room tk s
  | .mroomDone room tk => Sys2Proof.Machine.runMroomDone room tk s
  | .matomDone room tk => Sys2Proof.Machine.runMatomDone room tk s
  | .mgatherDone room tk => Sys2Proof.Machine.runMgatherDone room tk s
  | .mscatterDone room tk => Sys2Proof.Machine.runMscatterDone room tk s
  | .msendDone room tk => Sys2Proof.Machine.runMsendDone room tk s
  | .mrecvDone room tk => Sys2Proof.Machine.runMrecvDone room tk s
  | .mreduceDone room tk => Sys2Proof.Machine.runMreduceDone room tk s
  | .mfenceDone room tk => Sys2Proof.Machine.runMfenceDone room tk s
  | .mprefDone room tk => Sys2Proof.Machine.runMprefDone room tk s
  | .programFillDone room => Sys2Proof.Machine.runProgramFillDone room s
  | .turnSwap failed => Sys2Proof.Machine.runTurnSwap failed s
  | .syncRelease => Sys2Proof.Machine.runSyncRelease s
  | .barrierArrival => Sys2Proof.Machine.runBarrierArrival s
  | .barrierArriveReceive x => Sys2Proof.Machine.runBarrierArriveReceive x s
  | .rootDeadline => Sys2Proof.Machine.runRootDeadline s
  | .barrierNoticeReceive x => Sys2Proof.Machine.runBarrierNoticeReceive x s
  | .barrierRelease => Sys2Proof.Machine.runBarrierRelease s
  | .tolerantRelease => Sys2Proof.Machine.runTolerantRelease s
  | .barrierTimeout => Sys2Proof.Machine.runBarrierTimeout s
  | .barrierAbortReceive x => Sys2Proof.Machine.runBarrierAbortReceive x s
  | .stepStop => Sys2Proof.Machine.runStepStop s
  | .schCtrlLoad => Sys2Proof.Machine.runSchCtrlLoad s
  | .schCtrlStart => Sys2Proof.Machine.runSchCtrlStart s
  | .schCtrlStop => Sys2Proof.Machine.runSchCtrlStop s
  | .timeExchange ok t1 t2 t3 t4 => Sys2Proof.Machine.runTimeExchange ok t1 t2 t3 t4 s
  | .holdoverExpiry => Sys2Proof.Machine.runHoldoverExpiry s
  | .timeUnlocked => Sys2Proof.Machine.runTimeUnlocked s
  | .gmChange standby sbRank => Sys2Proof.Machine.runGmChange standby sbRank s
  | .ppsEdge => Sys2Proof.Machine.runPpsEdge s
  | .scrubRead cellar ch => Sys2Proof.Machine.runScrubRead cellar ch s
  | .periodicRetrainStart => Sys2Proof.Machine.runPeriodicRetrainStart s
  | .driftRetrainStart cellar ch => Sys2Proof.Machine.runDriftRetrainStart cellar ch s
  | .firmwareRetrain cellar ch => Sys2Proof.Machine.runFirmwareRetrain cellar ch s
  | .retrainComplete cellar ch rdT wrT rdV wrV => Sys2Proof.Machine.runRetrainComplete cellar ch rdT wrT rdV wrV s
  | .channelMapout cellar ch => Sys2Proof.Machine.runChannelMapout cellar ch s
  | .cellarTempReading cellar temp die => Sys2Proof.Machine.execCellarTempReading cellar temp die s
  | .floatMoveComplete entry => Sys2Proof.Machine.runFloatMoveComplete entry s
  | .packedBlockWriteback slot => Sys2Proof.Machine.runPackedBlockWriteback slot s
  | .ldrPrepSubmit floor addr => Sys2Proof.Machine.runLdrPrepSubmit floor addr s
  | .prepComplete floor => Sys2Proof.Machine.runPrepComplete floor s
  | .gatherRowReadDone room tk n => Sys2Proof.Machine.runGatherRowReadDone room tk n s
  | .indexReceive x => Sys2Proof.Machine.runIndexReceive x s
  | .replyReceive x => Sys2Proof.Machine.runReplyReceive x s
  | .scatterReceive x => Sys2Proof.Machine.runScatterReceive x s
  | .cellarUpdateComplete cellar => Sys2Proof.Machine.runCellarUpdateComplete cellar s
  | .versionLoad addr => Sys2Proof.Machine.runVersionLoad addr s
  | .versionReady addr => Sys2Proof.Machine.runVersionReady addr s
  | .versionSwitchRequest addr => Sys2Proof.Machine.runVersionSwitchRequest addr s
  | .versionBind addr => Sys2Proof.Machine.runVersionBind addr s
  | .versionUnbind addr => Sys2Proof.Machine.runVersionUnbind addr s
  | .versionDiscard addr => Sys2Proof.Machine.runVersionDiscard addr s
  | .migrateReceive x => Sys2Proof.Machine.runMigrateReceive x s
  | .prefetchSubmit floor addr => Sys2Proof.Machine.runPrefetchSubmit floor addr s
  | .sliceDeliver k => Sys2Proof.Machine.runSliceDeliver k s
  | .blockProcessComplete floor => Sys2Proof.Machine.runBlockProcessComplete floor s
  | .collectiveReceive x => Sys2Proof.Machine.runCollectiveReceive x s
  | .journalPut addr => Sys2Proof.Machine.runJournalPut addr s
  | .laneSpare link lane => Sys2Proof.Machine.runLaneSpare link lane s
  | .laneLossOfLock link lane => Sys2Proof.Machine.runLaneLossOfLock link lane s
  | .spareNow link => Sys2Proof.Machine.runSpareNow link s
  | .flitReceive link f => Sys2Proof.Machine.runFlitReceive link f s
  | .nakReceive link seq => Sys2Proof.Machine.runNakReceive link seq s
  | .linkAckTimeout link => Sys2Proof.Machine.runLinkAckTimeout link s
  | .linkRetrain link => Sys2Proof.Machine.runLinkRetrain link s
  | .linkTrainComplete link ok cr0 cr1 cr2 => Sys2Proof.Machine.runLinkTrainComplete link ok cr0 cr1 cr2 s
  | .ackReceive acks => Sys2Proof.Machine.runAckReceive acks s
  | .e2eTimeout floor xid => Sys2Proof.Machine.runE2eTimeout floor xid s
  | .sendReceive x => Sys2Proof.Machine.runSendReceive x s
  | .peerWriteReceive x => Sys2Proof.Machine.runPeerWriteReceive x s
  | .rdmaWrite qp key va bs ce => Sys2Proof.Machine.runRdmaWrite qp key va bs ce s
  | .rdmaRead qp key va n ce => Sys2Proof.Machine.runRdmaRead qp key va n ce s
  | .roceSend qp bs ce => Sys2Proof.Machine.runRoceSend qp bs ce s
  | .cnpReceive qp => Sys2Proof.Machine.runCnpReceive qp s
  | .ccTimer qp => Sys2Proof.Machine.runCcTimer qp s
  | .roceAckTimeout qp => Sys2Proof.Machine.runRoceAckTimeout qp s
  | .portServiceFrame port f => Sys2Proof.Machine.runPortServiceFrame port f s
  | .eapolFrame port keyed => Sys2Proof.Machine.runEapolFrame port keyed s
  | .porchLinkDown port => Sys2Proof.Machine.runPorchLinkDown port s
  | .porchLinkUp port allowed => Sys2Proof.Machine.runPorchLinkUp port allowed s
  | .producerWrite q v => Sys2Proof.Machine.runProducerWrite q v s
  | .resumeWrite q v => Sys2Proof.Machine.runResumeWrite q v s
  | .cqConsumerWrite q v => Sys2Proof.Machine.runCqConsumerWrite q v s
  | .commandConsume q => Sys2Proof.Machine.runCommandConsume q s
  | .commandReread q => Sys2Proof.Machine.runCommandReread q s
  | .nop q => Sys2Proof.Machine.runNop q s
  | .query q => Sys2Proof.Machine.runQuery q s
  | .regRead q => Sys2Proof.Machine.runRegRead q s
  | .regWrite q => Sys2Proof.Machine.runRegWrite q s
  | .openSession q => Sys2Proof.Machine.runOpenSession q s
  | .closeSession q => Sys2Proof.Machine.runCloseSession q s
  | .registerRegion q => Sys2Proof.Machine.runRegisterRegion q s
  | .winMove q => Sys2Proof.Machine.runWinMove q s
  | .setStaging q => Sys2Proof.Machine.runSetStaging q s
  | .batch q => Sys2Proof.Machine.runBatch q s
  | .jobLoad q modules => Sys2Proof.Machine.runJobLoad q modules s
  | .jobStart q => Sys2Proof.Machine.runJobStart q s
  | .jobStop q => Sys2Proof.Machine.runJobStop q s
  | .jobUnload q => Sys2Proof.Machine.runJobUnload q s
  | .restore q written => Sys2Proof.Machine.runRestore q written s
  | .journalSafe q => Sys2Proof.Machine.runJournalSafe q s
  | .version q => Sys2Proof.Machine.runVersion q s
  | .mapout q => Sys2Proof.Machine.runMapout q s
  | .attest q => Sys2Proof.Machine.runAttest q s
  | .wrapCak q => Sys2Proof.Machine.runWrapCak q s
  | .noticeWriteAck slot nseq => Sys2Proof.Machine.runNoticeWriteAck slot nseq s
  | .mgmtRequest datagram => Sys2Proof.Machine.runMgmtRequest datagram s
  | .epochShadowCopyDone => Sys2Proof.Machine.runEpochShadowCopyDone s
  | .denseCopyDone => Sys2Proof.Machine.runDenseCopyDone s
  | .epochComplete => Sys2Proof.Machine.runEpochComplete s
  | .atticIoComplete drive queue status => Sys2Proof.Machine.runAtticIoComplete drive queue status s
  | .atticCommandTimeout drive => Sys2Proof.Machine.runAtticCommandTimeout drive s
  | .atticDriveLinkLost drive => Sys2Proof.Machine.runAtticDriveLinkLost drive s
  | .atticHealthPoll drive used spare threshold warn => Sys2Proof.Machine.runAtticHealthPoll drive used spare threshold warn s
  | .atticScrub drive bad => Sys2Proof.Machine.runAtticScrub drive bad s
  | .atticAdopt drive serial blocks ok => Sys2Proof.Machine.runAtticAdopt drive serial blocks ok s
  | .atticRebuildComplete drive ok => Sys2Proof.Machine.runAtticRebuildComplete drive ok s
  | .atticRetire drive => Sys2Proof.Machine.runAtticRetire drive s
  | .atticImport addr => Sys2Proof.Machine.runAtticImport addr s
  | .exportTailAdvance tail => Sys2Proof.Machine.runExportTailAdvance tail s
  | .mpWatchdog core => Sys2Proof.Machine.runMpWatchdog core s
  | .mpSramUncorrectable word double => Sys2Proof.Machine.runMpSramUncorrectable word double s
  | .watchdogKick core => Sys2Proof.Machine.runWatchdogKick core s
  | .irqLevelChange source => Sys2Proof.Machine.runIrqLevelChange source s
  | .irqHoldoffExpiry group => Sys2Proof.Machine.runIrqHoldoffExpiry group s
  | .irqClaim target => Sys2Proof.Machine.runIrqClaim target s
  | .irqEoi target source => Sys2Proof.Machine.runIrqEoi target source s
  | .irqSwset source => Sys2Proof.Machine.runIrqSwset source s
  | .irqSwclr source => Sys2Proof.Machine.runIrqSwclr source s
  | .evrRecordWrite => Sys2Proof.Machine.runEvrRecordWrite s
  | .evrData => Sys2Proof.Machine.runEvrData s
  | .evrCursor offset => Sys2Proof.Machine.runEvrCursor offset s
  | .evrFire trigger => Sys2Proof.Machine.runEvrFire trigger s
  | .evrSoft code arg => Sys2Proof.Machine.runEvrSoft code arg s
  | .evrTimeTrigger trigger => Sys2Proof.Machine.runEvrTimeTrigger trigger s
  | .evrSnapshotComplete => Sys2Proof.Machine.runEvrSnapshotComplete s
  | .cvuGo channel count => Sys2Proof.Machine.runCvuGo channel count s
  | .cvuComplete channel => Sys2Proof.Machine.runCvuComplete channel s
  | .freezeN => Sys2Proof.Machine.runFreezeN s
  | .mpFreezeNow key => Sys2Proof.Machine.runMpFreezeNow key s
  | .timedFreeze => Sys2Proof.Machine.runTimedFreeze s
  | .scanSelect chain => Sys2Proof.Machine.execScanSelect chain s
  | .scanRead => Sys2Proof.Machine.execScanRead s
  | .powerSample volts watts avg floors cellars => Sys2Proof.Machine.execPowerSample volts watts avg floors cellars s
  | .railOverload kind inst => Sys2Proof.Machine.runRailOverload kind inst s
  | .droop floor below => Sys2Proof.Machine.runDroop floor below s
  | .floorTempSample floor temp sensor speed => Sys2Proof.Machine.execFloorTempSample floor temp sensor speed s
  | .secMr3Ext addr => Sys2Proof.Machine.runSecMr3Ext addr s
  | .presentNAssert => Sys2Proof.Machine.execPresentNAssert s
  | .presentNDeassert => Sys2Proof.Machine.execPresentNDeassert s
  | .standbyStage serviceLow => Sys2Proof.Machine.execStandbyStage serviceLow s
  | .bootRomStage romOk stepping => Sys2Proof.Machine.runBootRomStage romOk stepping s
  | .travarStage => Sys2Proof.Machine.runTravarStage s
  | .configurationStage => Sys2Proof.Machine.runConfigurationStage s
  | .floorBringupStage badRail vmins speeds arrays rooms => Sys2Proof.Machine.runFloorBringupStage badRail vmins speeds arrays rooms s
  | .cellarTrainingStage failed margins => Sys2Proof.Machine.runCellarTrainingStage failed margins s
  | .linkStage drives => Sys2Proof.Machine.runLinkStage drives s
  | .fabricTimeStage gm standby gmRank sbRank => Sys2Proof.Machine.runFabricTimeStage gm standby gmRank sbRank s
  | .attestationStage written => Sys2Proof.Machine.runAttestationStage written s
  | .letterboxStage => Sys2Proof.Machine.runLetterboxStage s
  | .serviceImageWrite slot image => Sys2Proof.Machine.runServiceImageWrite slot image s
  | .serviceConfigWrite part => Sys2Proof.Machine.runServiceConfigWrite part s
  | .serviceReset => Sys2Proof.Machine.runServiceReset s
  | .registerWrite acc data => Sys2Proof.Machine.runRegisterWrite acc data s
  | .serveRowReadDone floor k e => Sys2Proof.Machine.runServeRowReadDone floor k e s
  | .xidRelease floor xid => Sys2Proof.Machine.runXidRelease floor xid s
  | .refOkChange ok gm standby gmRank sbRank => Sys2Proof.Machine.runRefOkChange ok gm standby gmRank sbRank s
  | .carrierRegulatorSensorTrip => Sys2Proof.Machine.execCarrierRegulatorSensorTrip s
  | .managementPortLinkChange => Sys2Proof.Machine.runManagementPortLinkChange s
  | .macsecRekey port => Sys2Proof.Machine.runMacsecRekey port s
  | .priorityFlowControlFrame port prio pause => Sys2Proof.Machine.runPriorityFlowControlFrame port prio pause s
  | .roceNakReceive qp rnr => Sys2Proof.Machine.runRoceNakReceive qp rnr s
  | .replayRingLoad head => Sys2Proof.Machine.runReplayRingLoad head s
  | .registerReadClear acc => Sys2Proof.Machine.runRegisterReadClear acc s
  | .coreReset mask => Sys2Proof.Machine.runCoreReset mask s
  | .atticControllerFatal drive => Sys2Proof.Machine.runAtticControllerFatal drive s

end Sys2Proof.Machine
end

