-- ==== Sys2Proof/Machine/Tick.lean ====
section
/-!
DEFINITION. One cycle of the module with no command waiting (R118 to R121, R85, R93, R108): fabric time advances, pending results reach the rooms, every
running room issues its next bundle, and the engines take their cycle. A bundle's slots are commands of the queue (log 4).
-/
namespace Sys2Proof.Machine

/-! ### Pending results (Table 4.10) -/

/-- What a pending result or action does in its beat. -/
def runMicro (s : State) (r : Nat) (m : Micro) : State :=
  if m.dead then s
  else match m.op with
  | .v reg ls => modRoom s r (fun q => { q with v := ls.foldl (fun v l => smSet 0 v (reg * 256 + l.1) l.2) q.v })
  | .x reg val => if reg = 0 then s else modRoom s r (fun q => { q with x := smSet 0 q.x reg val })
  | .a reg val => modRoom s r (fun q => { q with a := smSet 0 q.a reg val })
  | .tok t v => modRoom s r (fun q => { q with toks := smSet {} q.toks t v })
  | .store off bs => storeWrite s r off bs
  | .loadRow gb g plane fmt row off => loadRowAct s r m.issued gb g plane fmt row off
  | .loadPut gb g plane fmt row bs => putLoadRow s r gb g plane fmt row bs
  | .row f planes xs scs sample => rowAct s r f planes xs scs sample
  | .accPut arr entry lanes => accPutAct s r arr entry lanes
  | .cases gb arr row col inv ovf int => arrayCases s r gb arr row col { inv := inv, ovf := ovf, int := int }
  | .watchBad arr modeO row lane trow tcol y z => watchMismatch s r arr modeO row lane trow tcol y z
  | .orow f xs dys scs => orowAct s r f xs dys scs
  | .odrain f off => odrainAct s r m.issued f off
  | .drainRead f i tp int base sd xv b => drainReadAct s r f i tp int base sd xv b
  | .drainScales gb off n b => drainScalesAct s r gb off n b
  | .statRead f => statReadAct s r f
  | .statClear gb => modRoom s r (fun q => setGang q gb { getGang q gb with st0 := 0, st1 := 0, st2 := 0, st3 := 0 })
  | .fail code => stopRoom s r code 0
  | .vcount flags counts => modRoom s r (fun q => vecCount q flags counts)

/-- Pending results and actions of a room that are due, of one order within the beat. -/
def runDue (ord : Nat) (s : State) (r : Nat) : State :=
  let due (m : Micro) : Bool := decide (m.due ≤ s.beat ∧ m.ord = ord)
  let ms := (getRoom s r).micro
  if ms.any due then
    (ms.filter due).foldl (fun s m => runMicro s r m) (modRoom s r (fun q => { q with micro := q.micro.filter (fun m => !(due m)) }))
  else s

/-- A room's results and reads of the beat: registers and status, then reads. -/
def roomMicros (s : State) (r : Nat) : State := runDue 1 (runDue 0 s r) r

/-- The writes of a beat reach the store and the arrays as the beat ends: a read in the same beat has met the old contents (R70, R86). -/
def roomWrites (s : State) (r : Nat) : State :=
  let s := runDue 2 s r
  modRoom s r (fun q => { q with
    banks := q.banks.filter (fun u => decide (s.beat < u.beat)), ebanks := q.ebanks.filter (fun e => decide (s.now < e.1)) })

/-! ### Issue (R91, R93, R108) -/

/-- A running room issues its next bundle, whose operations join the queue in slot order. -/
def issueRoom (s : State) (r : Nat) : State :=
  let q := getRoom s r
  if q.run ≠ .running ∨ s.beat < q.resumeAt then s
  else if q.progLen ≤ q.addr then stopRoom s r codeBounds 0
  else
    match bundleCmds r (smGet 0 q.buffer q.addr) with
    | none => stopRoom s r codeIllegal 0
    | some cs => let t := modRoom s r (fun q => { q with cur := q.addr, addr := q.addr + 1 }); { t with pending := t.pending ++ cs }

/-- Rooms that advance: those of floors that heat has not stopped (Table 18.2). -/
def advancing (s : State) : List Nat := (allRooms s).filter (fun r => !(floorOver s (getRoom s r).floor))

/-- The end of a cycle: what its beat wrote takes its place, and lines that wait in the staging buffers take the banks that the cycle left free (R87). -/
def endCycle (s : State) : State := (advancing s).foldl roomWrites ((allRooms s).foldl serveStaged s)

/-- A beat: results first, and then every room issues. -/
def beatRooms (s : State) : State :=
  let s := { s with beat := s.beat + 1 }
  let rs := advancing s
  rs.foldl issueRoom (rs.foldl roomMicros s)

/-! ### Elastic operations (R103, R104) -/

/-- Whether a gather or scatter is held: its prepared list is still being prepared (R193), or lies in a channel that retrains (R180). -/
def listPending (s : State) (room : Nat) (o : Elastic) : Bool :=
  let d := roomDescriptor s room o.src
  let n (k w : Nat) : Nat := leNat ((d.1.drop k).take w)
  let st := readNat s (n 0 8 + 2) 1
  decide (d.2 = 0) && (accessWaits s (n 0 8) (0x40 + 16 * (n 8 4 + n 12 4)) || (decide (st.2 = 0) && decide (st.1 = 0)))

/-- A room's operation that may start reaches the unit that serves it, or ends at once. -/
def pumpOp (s : State) (r tk : Nat) : State :=
  match startedOp s r tk with
  | none => s
  | some o =>
    if o.accepted then s
    else
      match o.kind with
      | .done code parts => completeToken s r tk code parts
      | .mgather => if listPending s r o then s else submitGather s r o
      | .mscatter => if listPending s r o then s else submitScatter s r o
      | .msend => if fabricWaits s r o then s else submitSend s r o
      | .mrecv => if fabricWaits s r o then s else submitRecv s r o
      | .mreduce => if fabricWaits s r o then s else submitReduce s r o
      | .mload => s
      | .mstore => s
      | .mroom => s
      | .matom => s
      | .mfence => s
      | .mpref => s

/-- A room's operations in issue order. One that waits for earlier ones sees those that ended in an earlier cycle (R104). -/
def pumpRoom (s : State) (r : Nat) : State :=
  let q := getRoom s r
  (q.ops.filter (fun o => mayStart q o)).foldl (fun s o => pumpOp s r o.f.tk.toNat) s

/-! ### The cycle -/

/-- Links that are up send what they may. -/
def pumpLinks (s : State) : State :=
  if s.fab.out.isEmpty then s else (upTo 50).foldl (fun s l => if linkState s l = 2 then pumpLink s l else s) s

/-- A cycle in which the checkpoint engine holds the module's arrival at a barrier back counts in ATT_STAT.HOLDS (R405, R406, R409). -/
def countHold (s : State) : State :=
  match curBarrier s with
  | none => s
  | some y =>
    let held := (decide (y.role = 1) && !shadowReady s) || (decide (y.role = 2) && !epochReady s)
    if held && roomsArrived s y && s.seq.barrier.own.isNone && !s.seq.barrier.released then regCount s rAttStat 31 0 1 else s

/-- The engines' cycle; the interrupt controller then evaluates its sources under the targets' eligibility (R433). -/
def engines (s : State) : State :=
  let s := countHold s
  let s := (allRooms s).foldl pumpRoom s
  reassign (snapCycle (pumpLinks (passAbort (larderTick (collTake (serveHost (serveArrivals (cellarTick s))))))))

/-- One cycle: the numeric records of the cycle that ends are chosen (R62), and time advances; in a module whose clocks a freeze has stopped, nothing
else does. -/
def tick (s : State) : State :=
  let still := clocksStopped s
  let s := if still then s else flushNumeric (endCycle s)
  let s := { s with now := s.now + 1, cyc := { old := s.regs } }
  if still then s
  else
    let s := { s with att := { s.att with cqs := [] } }
    if clocksStopped s then s else engines (if isBeat s then beatRooms s else s)

end Sys2Proof.Machine
end

