-- ==== Sys2Proof/Machine/Encode.lean ====
section
/-!
DEFINITION. The encoder of bundles (R90, Tables 4.1 to 4.9): the slots' words from their commands, written from the same tables as the decoder of
Operands.lean. No command uses it; it says what a program's words mean.
-/
namespace Sys2Proof.Machine

/-! ### Slot words: the fields from the highest bit down, with OP lowest -/

/-- An array slot (Table 4.3). -/
def arrayWord (op : BitVec 8) (f : ArraySlot) : BitVec 80 :=
  f.cnt ++ f.xs ++ f.ofmt ++ f.dst ++ f.fin ++ f.rnd ++ f.ovf ++ f.blk ++ f.fmt ++ f.cin ++ f.e ++ f.rsvd ++ f.asc ++ f.ib ++ f.ab ++ f.ia ++
    f.aa ++ f.tp ++ f.gp ++ f.gs ++ f.gb ++ op

/-- A vector slot (Table 4.5). -/
def vectorWord (op : BitVec 8) (f : VectorSlot) : BitVec 64 :=
  f.bx ++ f.msk ++ f.xs ++ f.ro ++ f.fmt ++ f.imm ++ f.ia ++ f.aa ++ f.vc ++ f.vb ++ f.va ++ f.vd ++ op

/-- A move slot (Table 4.7). -/
def moveWord (op : BitVec 8) (f : MoveSlot) : BitVec 72 :=
  f.rsvd ++ f.xq ++ f.fen ++ f.sid ++ f.aop ++ f.ovf ++ f.rnd ++ f.dfmt ++ f.sfmt ++ f.xp ++ f.xl ++ f.adst ++ f.asrc ++ f.tk ++ op

/-- A control slot (Table 4.9). -/
def controlWord (op : BitVec 8) (f : ControlSlot) : BitVec 40 :=
  f.cf ++ f.d24 ++ f.tk ++ op

/-! ### Commands to slot words; a command of another slot, or of no slot, has none -/

/-- Opcodes of Table 4.4. -/
def encodeArray (i : Instr) : Option (BitVec 80) :=
  match i with
  | .aload _ f => some (arrayWord 0x01 f)
  | .aswap _ f => some (arrayWord 0x02 f)
  | .arow _ f => some (arrayWord 0x03 f)
  | .aorow _ f => some (arrayWord 0x04 f)
  | .adrain _ f => some (arrayWord 0x05 f)
  | .astat _ f => some (arrayWord 0x06 f)
  | .aclr _ f => some (arrayWord 0x07 f)
  | _ => none

/-- Opcodes of Table 4.6. -/
def encodeVector (i : Instr) : Option (BitVec 64) :=
  match i with
  | .vadd _ f => some (vectorWord 0x01 f)
  | .vsub _ f => some (vectorWord 0x02 f)
  | .vmul _ f => some (vectorWord 0x03 f)
  | .vfma _ f => some (vectorWord 0x04 f)
  | .vdiv _ f => some (vectorWord 0x05 f)
  | .vsqrt _ f => some (vectorWord 0x06 f)
  | .vmin _ f => some (vectorWord 0x07 f)
  | .vmax _ f => some (vectorWord 0x08 f)
  | .vceq _ f => some (vectorWord 0x09 f)
  | .vclt _ f => some (vectorWord 0x0A f)
  | .vcle _ f => some (vectorWord 0x0B f)
  | .vsel _ f => some (vectorWord 0x0C f)
  | .viadd _ f => some (vectorWord 0x0D f)
  | .visub _ f => some (vectorWord 0x0E f)
  | .vimul _ f => some (vectorWord 0x0F f)
  | .vrelu _ f => some (vectorWord 0x10 f)
  | .vrelud _ f => some (vectorWord 0x11 f)
  | .vcvtf _ f => some (vectorWord 0x12 f)
  | .vcvti _ f => some (vectorWord 0x13 f)
  | .vld _ f => some (vectorWord 0x18 f)
  | .vst _ f => some (vectorWord 0x19 f)
  | .vbc _ f => some (vectorWord 0x1A f)
  | .vrsum _ f => some (vectorWord 0x1B f)
  | .vrmin _ f => some (vectorWord 0x1C f)
  | .vrmax _ f => some (vectorWord 0x1D f)
  | .vxtr _ f => some (vectorWord 0x1E f)
  | .vsfu _ f => some (vectorWord 0x20 f)
  | .vsfud _ f => some (vectorWord 0x21 f)
  | _ => none

/-- Opcodes of Table 4.8. -/
def encodeMove (i : Instr) : Option (BitVec 72) :=
  match i with
  | .mload _ f => some (moveWord 0x01 f)
  | .mstore _ f => some (moveWord 0x02 f)
  | .mroom _ f => some (moveWord 0x03 f)
  | .matom _ f => some (moveWord 0x04 f)
  | .mgather _ f => some (moveWord 0x05 f)
  | .mscatter _ f => some (moveWord 0x06 f)
  | .msend _ f => some (moveWord 0x07 f)
  | .mrecv _ f => some (moveWord 0x08 f)
  | .mreduce _ f => some (moveWord 0x09 f)
  | .mfence _ f => some (moveWord 0x0A f)
  | .mpref _ f => some (moveWord 0x0B f)
  | _ => none

/-- Opcodes of Table 4.9. -/
def encodeControl (i : Instr) : Option (BitVec 40) :=
  match i with
  | .wait _ f => some (controlWord 0x01 f)
  | .tstat _ f => some (controlWord 0x02 f)
  | .xset _ f => some (controlWord 0x03 f)
  | .xadd _ f => some (controlWord 0x04 f)
  | .xsub _ f => some (controlWord 0x05 f)
  | .xmul _ f => some (controlWord 0x06 f)
  | .xand _ f => some (controlWord 0x07 f)
  | .xor _ f => some (controlWord 0x08 f)
  | .xshl _ f => some (controlWord 0x09 f)
  | .xshr _ f => some (controlWord 0x0A f)
  | .xaddi _ f => some (controlWord 0x0B f)
  | .amov _ f => some (controlWord 0x0C f)
  | .aadd _ f => some (controlWord 0x0D f)
  | .loop _ f => some (controlWord 0x10 f)
  | .jmp _ f => some (controlWord 0x11 f)
  | .bnz _ f => some (controlWord 0x12 f)
  | .sync _ f => some (controlWord 0x18 f)
  | .pend _ f => some (controlWord 0x19 f)
  | .halt _ f => some (controlWord 0x1A f)
  | .rstat _ f => some (controlWord 0x1B f)
  | .ftime _ f => some (controlWord 0x1C f)
  | _ => none

/-- The room of a bundle's command, and whether the command's fields are ones that R91 admits for it. -/
def slotForm (i : Instr) : Option (Nat × Bool) :=
  match i with
  | .aload r f => some (r, aloadLegal f)
  | .aswap r f => some (r, aswapLegal f)
  | .arow r f => some (r, arowLegal f)
  | .aorow r f => some (r, aorowLegal f)
  | .adrain r f => some (r, adrainLegal f)
  | .astat r f => some (r, astatLegal f)
  | .aclr r f => some (r, aclrLegal f)
  | .vadd r _ => some (r, true)
  | .vsub r _ => some (r, true)
  | .vmul r _ => some (r, true)
  | .vfma r f => some (r, unmasked f)
  | .vdiv r _ => some (r, true)
  | .vsqrt r _ => some (r, true)
  | .vmin r _ => some (r, true)
  | .vmax r _ => some (r, true)
  | .vceq r _ => some (r, true)
  | .vclt r _ => some (r, true)
  | .vcle r _ => some (r, true)
  | .vsel r f => some (r, unmasked f)
  | .viadd r _ => some (r, true)
  | .visub r _ => some (r, true)
  | .vimul r _ => some (r, true)
  | .vrelu r _ => some (r, true)
  | .vrelud r _ => some (r, true)
  | .vcvtf r _ => some (r, true)
  | .vcvti r _ => some (r, true)
  | .vld r f => some (r, vmemLegal f)
  | .vst r f => some (r, vstLegal f)
  | .vbc r _ => some (r, true)
  | .vrsum r _ => some (r, true)
  | .vrmin r _ => some (r, true)
  | .vrmax r _ => some (r, true)
  | .vxtr r _ => some (r, true)
  | .vsfu r f => some (r, vsfuLegal f)
  | .vsfud r f => some (r, vsfudLegal f)
  | .mload r f => some (r, moveLegal f)
  | .mstore r f => some (r, moveLegal f)
  | .mroom r f => some (r, moveLegal f)
  | .matom r f => some (r, moveLegal f)
  | .mgather r f => some (r, moveLegal f)
  | .mscatter r f => some (r, moveLegal f)
  | .msend r f => some (r, moveLegal f)
  | .mrecv r f => some (r, moveLegal f)
  | .mreduce r f => some (r, moveLegal f)
  | .mfence r f => some (r, moveLegal f)
  | .mpref r f => some (r, moveLegal f)
  | .wait r f => some (r, waitLegal f)
  | .tstat r f => some (r, controlLegal 5 0 f)
  | .xset r f => some (r, controlLegal 24 0 f)
  | .xadd r f => some (r, controlLegal 15 0 f)
  | .xsub r f => some (r, controlLegal 15 0 f)
  | .xmul r f => some (r, controlLegal 15 0 f)
  | .xand r f => some (r, controlLegal 15 0 f)
  | .xor r f => some (r, controlLegal 15 0 f)
  | .xshl r f => some (r, controlLegal 15 0 f)
  | .xshr r f => some (r, controlLegal 15 0 f)
  | .xaddi r f => some (r, controlLegal 24 0 f)
  | .amov r f => some (r, amovLegal f)
  | .aadd r f => some (r, amovLegal f)
  | .loop r f => some (r, controlLegal 17 0 f)
  | .jmp r f => some (r, controlLegal 12 0 f)
  | .bnz r f => some (r, controlLegal 17 0 f)
  | .sync r f => some (r, controlLegal 16 0 f)
  | .pend r f => some (r, controlLegal 0 0 f)
  | .halt r f => some (r, controlLegal 0 0 f)
  | .rstat r f => some (r, controlLegal 11 1 f)
  | .ftime r f => some (r, controlLegal 5 0 f)
  | _ => none

/-- The room of a bundle's command whose fields are legal. -/
def slotRoom (i : Instr) : Option Nat :=
  match slotForm i with
  | some (r, true) => some r
  | _ => none

/-- A bundle of four slots (Table 4.1); a slot without a command is a no-operation, all zeros. -/
def bundleWord (a v m c : Option Instr) : Option (BitVec 256) :=
  let slot {n : Nat} (encode : Instr → Option (BitVec n)) (x : Option Instr) : Option (BitVec n) := x.elim (some 0) encode
  match slot encodeArray a, slot encodeVector v, slot encodeMove m, slot encodeControl c with
  | some wa, some wv, some wm, some wc => some (wc ++ wm ++ wv ++ wa)
  | _, _, _, _ => none

end Sys2Proof.Machine
end

