-- ==== Sys2Proof/Safety.lean ====
section
/-!
DEFINITION. What claims are about: canonical memory, running and frozen modules, runs that never stop, and the conditions under which a command of a
family has its own effect.
-/
namespace Sys2Proof.Machine

/-- The canonical form of device memory: addresses strictly rising, and no byte listed that an unlisted address reads as (log 5). -/
abbrev Memory.wf (m : List Host.Cell) : Bool := smWf (fun _ => (0 : Byte)) m

/-- The canonical form of the control registers: addresses strictly rising, and no register listed at its reset value. -/
abbrev Registers.wf (m : List (Nat × Word)) : Bool := smWf regReset m

/-- The module's clocks run: no freeze has stopped them (R447). -/
abbrev Clocked (s : State) : Prop := clocksStopped s = false

/-- The module's clocks run and its main domains have power (R17, R447): what the units of the floors and of the base floor need to act. -/
abbrev Powered (s : State) : Prop := mainsIdle s = false

/-- The module's clocks stand still after a freeze (R447, R448). -/
abbrev Frozen (s : State) : Prop := clocksStopped s = true

/-- A state from which no run of any length ends in a fault or a refusal. -/
def NeverStops (s : State) : Prop := ∀ n, ∃ t, Host.Core.run Sys2Proof.core n s = Host.Outcome.next t

/-- A room of a powered module acts on the slots of its bundle in this beat. -/
abbrev Acts (s : State) (r : Nat) : Prop := Powered s ∧ issuing s r = true

/-- No pending result of the room reaches `port` or the register `reg` (its file and number) in beat `due` (R95). -/
abbrev PortFree (s : State) (r due : Nat) (port : Port) (reg : Nat × Nat) : Prop :=
  ∀ m ∈ (getRoom s r).micro, m.due = due → m.port ≠ port ∧ microReg m ≠ some reg

/-- The room with one more pending result: `op` reaches `port` in beat `due`. -/
def resultDue (s : State) (r due : Nat) (port : Port) (op : MicroOp) (src : Nat := 0) : State :=
  modRoom s r (fun q => { q with micro := q.micro ++ [{ due := due, ord := 0, issued := s.beat, port := port, op := op, src := src }] })

/-- No pending result of the room reaches the register `reg` (its file and number) in beat `due` (R95). -/
abbrev RegFree (s : State) (r due : Nat) (reg : Nat × Nat) : Prop := ∀ m ∈ (getRoom s r).micro, m.due = due → microReg m ≠ some reg

/-- Address register `a` may be post-incremented by `n`: by 0, which is no increment, or with no other result for it in the next beat (R94, R95). -/
abbrev PostFree (s : State) (r a n : Nat) : Prop := n ≠ 0 → RegFree s r (s.beat + 1) (2, a)

/-- Address register `a` post-incremented by `n` for the next beat. -/
def posted (s : State) (r a n : Nat) : State :=
  if n = 0 then s else resultDue s r (s.beat + 1) .post (.a a (aReg (getRoom s r) a + BitVec.ofNat 64 n))

/-- The banks of the room that a scheduled access of `n` bytes at `off` would use in `beat` are free (R86). -/
abbrev BanksFree (s : State) (r off n beat : Nat) : Prop := ∀ u ∈ (getRoom s r).banks, ¬(u.beat = beat ∧ u.bank ∈ banksOf off n)

/-- A scheduled access of `n` bytes at `off` of the room's store is allowed in `beat`: aligned, whole lines, inside the store, its banks free (R85, R86, R94). -/
abbrev Claimable (s : State) (r off n beat : Nat) : Prop :=
  off % 64 = 0 ∧ n % 64 = 0 ∧ off + n ≤ storeBytes ∧ n ≤ 1024 ∧ BanksFree s r off n beat

/-- The room with those banks taken, for access `src` of the bundle that issues now. -/
def withBanks (s : State) (r src off n beat : Nat) : State :=
  modRoom s r (fun q => { q with banks := q.banks ++ (banksOf off n).map (fun b => { beat := beat, bank := b, issued := s.beat, src := src }) })

/-- The gang of shape `gs`, `gp` at array `gb` may act (R66): the shape is one of the table's, with `g` arrays in `p` rows of `k`, and the gang is already in
use with that shape or overlaps no gang in use. -/
abbrev GangFree (s : State) (r gb gs gp g p k : Nat) : Prop :=
  gangShape gb gs gp = some (g, p, k) ∧
    (((getGang (getRoom s r) gb).used = true ∧ (getGang (getRoom s r) gb).gs = gs) ∨
      ∀ e ∈ (getRoom s r).gangs, e.2.used = true → gb + g ≤ e.1 ∨ e.1 + 2 ^ e.2.gs ≤ gb)

/-- The gang in use: its record is cleared at its first operation of the phase (R114). -/
def gangUsed (s : State) (r gb gs : Nat) : State :=
  if (getGang (getRoom s r) gb).used = true ∧ (getGang (getRoom s r) gb).gs = gs then s
  else modRoom s r (fun q => setGang q gb { (getGang q gb).clearAll with used := true, gs := gs })

/-- The shadow plane of an array, which ALOAD fills, and the active one, which rows use. -/
abbrev shadowOf (s : State) (r a : Nat) : Plane := planeOf (getArr (getRoom s r) a) (1 - (getArr (getRoom s r) a).active)
abbrev activeOf (s : State) (r a : Nat) : Plane := planeOf (getArr (getRoom s r) a) (getArr (getRoom s r) a).active

/-- A scheduled read of `n` bytes at `off` of the room's store succeeds in this beat: it may be made, and every word it meets is correctable (R86, R88). -/
abbrev Readable (s : State) (r off n : Nat) : Prop := Claimable s r off n s.beat ∧ storeBad s r off n = false

/-- The banks of a read in this beat taken, and its corrected words counted (R88). -/
def readDone (s : State) (r src off n : Nat) : State :=
  let t := withBanks s r src off n s.beat
  countWeak t (storeAddr (getRoom t r).floor (getRoom t r).pos off) n

/-- The line of a row's scale bytes at `off` is the one that the gang holds (R98). -/
abbrev ScalesHeld (s : State) (r gb off : Nat) : Prop := ∃ h, (getGang (getRoom s r) gb).held = some h ∧ h.1 = off - off % 64

/-- The `n` scale bytes at `off`: of the line that the gang holds where it is that line, and otherwise of the room's store. -/
def scaleBytes (s : State) (r gb off n : Nat) : List Nat :=
  let line := match (getGang (getRoom s r) gb).held with
    | some h => if h.1 = off - off % 64 then h.2 else storeRead s r (off - off % 64) 64
    | none => storeRead s r (off - off % 64) 64
  ((line.drop (off % 64)).take n).map (fun b => b.toNat)

/-- What an operation of the array slot may change as it issues: its own room, in which the registers, the tokens, the elastic operations and the program's
progress stand; the numeric watch's counts, which are registers; and the counts of corrected words. -/
def ArrayFrame (s t : State) (r : Nat) : Prop :=
  t = { s with rooms := t.rooms, regs := t.regs, cyc := t.cyc, storeCe := t.storeCe } ∧ (∀ r', r' ≠ r → getRoom t r' = getRoom s r') ∧
    getRoom t r = { getRoom s r with
      arrays := (getRoom t r).arrays, gangs := (getRoom t r).gangs, micro := (getRoom t r).micro, banks := (getRoom t r).banks,
      drainTok := (getRoom t r).drainTok, watch := (getRoom t r).watch }

/-- The state with field `[hi:lo]` of a register holding `v`, noted as the device's write of this cycle (R10), and nothing else changed. -/
def withField (s : State) (a hi lo v : Nat) : State :=
  { s with
    regs := smSet (regReset a) s.regs a (setBits (regGet s a) hi lo v)
    cyc := { s.cyc with new := smSet 0 s.cyc.new a (setBits (smGet 0 s.cyc.new a) hi lo v) } }

/-- A transfer for this module whose header is sound, and which its destination has not taken yet (R358). -/
abbrev Fresh (s : State) (x : Transfer) : Prop :=
  x.drank = rank s ∧ x.dfloor < 10 ∧ headerOk x = true ∧
    ∀ d ∈ s.fab.done, ¬(d.srank = x.srank ∧ d.sfloor = x.sfloor ∧ d.xid = x.xid ∧ s.now < d.expiry)

/-- The destination acknowledges the transfer with STATUS 0 and remembers it for the life of its XID (R358). -/
def delivered (s : State) (x : Transfer) : State :=
  { s with fab := { s.fab with acks := s.fab.acks ++ [(x.srank, x.sfloor, x.xid, 0)], done := s.fab.done ++ [{ srank := x.srank, sfloor := x.sfloor, xid := x.xid, status := 0, expiry := s.now + xidLife s }] } }

/-- What a destination leaves of a transfer (R358): the outcome's state, with the transfer acknowledged, its STATUS remembered for the life of its XID, and a
STATUS that is not 0 counted; a transfer without a STATUS yet is neither. -/
def remembered (r : State × Option Nat) (x : Transfer) : State :=
  match r.2 with
  | none => r.1
  | some st =>
    let t := if st = 0 then r.1 else regCount r.1 rFabStat 63 48 1
    { t with fab := { t.fab with acks := t.fab.acks ++ [(x.srank, x.sfloor, x.xid, st)], done := t.fab.done ++ [{ srank := x.srank, sfloor := x.sfloor, xid := x.xid, status := st, expiry := t.now + xidLife t }] } }

/-- A barrier transfer of one SUB, the first copy that has come (R365). -/
abbrev FreshBarrier (s : State) (x : Transfer) (sub : Nat) : Prop := Fresh s x ∧ x.kind = 8 ∧ argNat x 0 1 = sub ∧ firstCopy s x = true

/-- A live channel that may be commanded: LIVE or PENDING_OUT, in a cellar that is not quiesced (R178, R179). -/
abbrev Commandable (s : State) (cellar ch : Nat) : Prop :=
  cellar < 20 ∧ ch < 32 ∧ cellar * 32 + ch ∈ s.cel.live ∧ (chState s (cellar * 32 + ch) = 0 ∨ chState s (cellar * 32 + ch) = 2) ∧ quiesced s cellar = false

/-- Queue `q` executes a command with opcode `op` that a session of one of `roles` may give; `args` are its bytes from ARGS on (R399). -/
def Executes (s : State) (q op : Nat) (roles : List Nat) (args : List Byte) : Prop :=
  ∃ c, (getQueue s q).cmd = some c ∧ cmdNat c 0 2 = op ∧ slotReserved c = false ∧ queueRole s q ∈ roles ∧ (q = 16 → op ∈ mgmtOps) ∧ args = c.drop 16

end Sys2Proof.Machine
end

