-- ==== Sys2Proof/Certificates/Slice0/Obligations.lean ====
section
/-!
DEFINITION. What is claimed of the model: how a step runs the queue, what every command does where it completes, and the rules of the whole machine.
-/
open Sys2Proof.Machine

/-! ### Reset -/

/-- Right after power-on (R11): no command waits, the clocks run, no byte is listed, and every register holds its reset value. The values shown are of the
Reset columns; a register whose column reads "cfg" or "meas" holds 0 until start-up loads it (log 2), and a byte that nothing has written reads as 0 (log 5). -/
def Obligations.ResetState : Prop :=
  let s := State.reset
  s.pending = [] ∧ Clocked s ∧ Memory.wf s.mem = true ∧ Registers.wf s.regs = true ∧ (∀ a, regGet s a = regReset a) ∧ (∀ a n, memBytes s a n = zeros n) ∧
  schState s = 0 ∧ (∀ r, (getRoom s r).run = .idle) ∧ (∀ k, k < 64 → sessState s k = 0) ∧ (∀ q, q < 17 → qOwned s q = false) ∧
  (∀ c, c < 4 → regBits s (rIrqRpri c) 4 0 = 16) ∧ (∀ n, n < 1024 → regBits s (rIrqSrc n) 15 13 = 7) ∧
  (∀ k, k < 32 → regGet s (rCvu k 0) = 0x1EDC6F41#64) ∧ regBits s rEvrCtrl 0 0 = 1 ∧ s.att.epochs = [] ∧ s.fab.out = []

/-! ### The queue and the clock -/

/-- A step takes the command at the front of the queue and runs it on the state with the queue's rest. -/
def Obligations.StepRunsFrontCommand : Prop :=
  ∀ (c : Sys2Proof.Instr) (rest : List Sys2Proof.Instr) (s : State),
    step { s with pending := c :: rest } = exec c { s with pending := rest }

/-- With no command waiting a cycle passes (log 4): always a next state, and in a module whose clocks are stopped the count of cycles goes on, the
notes of what this cycle changed begin anew (R10), and nothing else changes (R448). -/
def Obligations.EmptyQueueIsOneCycle : Prop :=
  ∀ s : State, s.pending = [] → (∃ t, step s = .next t) ∧ (Frozen s → step s = .next { s with now := s.now + 1, cyc := { old := s.regs } })

/-- No command and no cycle ends in a fault or a refusal, from any state: a failure that the spec describes is a change of state. -/
def Obligations.NoRunStops : Prop := ∀ s : State, NeverStops s

/-- In a module that a freeze has stopped, a command of a unit without a clock has no effect: bundle slots, completions, links, sessions, Travar's
commands and register accesses alike (R448). The sensors, the input stage and the scan port are the exceptions. -/
def Obligations.FrozenUnitsDoNothing : Prop :=
  ∀ (c : Sys2Proof.Instr) (s : State), Frozen s →
    (match c with
      | .scanSelect _ => False
      | .scanRead => False
      | .powerSample _ _ _ _ _ => False
      | .carrierRegulatorSensorTrip => False
      | .floorTempSample _ _ _ _ => False
      | .cellarTempReading _ _ _ => False
      | .presentNAssert => False
      | .presentNDeassert => False
      | .standbyStage _ => False
      | _ => True) →
    exec c s = .next s

/-! ### Rooms: the vector slot -/

/-- Vector operations of the arithmetic port (R59, R80, R84, R101, Table 4.10): in a room that acts, with the port and the destination free in the
beat the result is due, the lanes that act are computed from VA, the second operand and VC as they stand, the result is pending for that beat, the
cases met are noted, and nothing else changes. -/
def Obligations.LaneOperationsComplete : Prop :=
  ∀ (s : State) (r : Nat) (f : Sys2Proof.VectorSlot), Acts s r →
    let q := getRoom s r
    let run (fn : Sys2Proof.Lane → Sys2Proof.Lane → Sys2Proof.Lane → Sys2Proof.Lane × NumFlags) :=
      laneRun fn 0 (vecOn q f) (vReg q f.va.toNat) (vecB q f) (vReg q f.vc.toNat)
    let after (lat : Nat) (fn : Sys2Proof.Lane → Sys2Proof.Lane → Sys2Proof.Lane → Sys2Proof.Lane × NumFlags) : Host.Outcome State Fault Refusal :=
      .next (vecNote (resultDue s r (s.beat + lat) .arith (.v f.vd.toNat (run fn).1)) r (run fn).2)
    (PortFree s r (s.beat + 4) .arith (0, f.vd.toNat) →
      exec (.vadd r f) s = after 4 (fun a b _ => b32Add a b) ∧ exec (.vsub r f) s = after 4 (fun a b _ => b32Sub a b) ∧
      exec (.vmul r f) s = after 4 (fun a b _ => b32Mul a b) ∧ exec (.vmin r f) s = after 4 (fun a b _ => b32Min a b) ∧
      exec (.vmax r f) s = after 4 (fun a b _ => b32Max a b) ∧ exec (.vceq r f) s = after 4 (fun a b _ => b32Eq a b) ∧
      exec (.vclt r f) s = after 4 (fun a b _ => b32Lt a b) ∧ exec (.vcle r f) s = after 4 (fun a b _ => b32Le a b) ∧
      exec (.viadd r f) s = after 4 (fun a b _ => i32Add (decide (f.ro = 1)) a b) ∧
      exec (.visub r f) s = after 4 (fun a b _ => i32Sub (decide (f.ro = 1)) a b) ∧
      exec (.vimul r f) s = after 4 (fun a b _ => i32Mul (decide (f.ro = 1)) a b) ∧
      exec (.vrelu r f) s = after 4 (fun a _ _ => (b32Relu a, noFlags)) ∧ exec (.vrelud r f) s = after 4 (fun a _ _ => (b32ReluD a, noFlags)) ∧
      exec (.vcvtf r f) s = after 4 (fun a _ _ => (b32OfInt32 a, noFlags)) ∧ exec (.vcvti r f) s = after 4 (fun a _ _ => b32ToInt32 a) ∧
      (f.msk = 0 → exec (.vsel r f) s = after 4 (fun a b c => (if c = 0 then b else a, noFlags)))) ∧
    (PortFree s r (s.beat + 5) .arith (0, f.vd.toNat) → f.msk = 0 → exec (.vfma r f) s = after 5 (fun a b c => b32Fma a b c)) ∧
    (PortFree s r (s.beat + 2) .arith (0, f.vd.toNat) →
      exec (.vbc r f) s = after 2 (fun _ _ _ => (BitVec.ofNat 32 (bits (xReg q f.xs.toNat) 31 0), noFlags)))

/-- The iterative stage and the special-function unit (R82, R84, R102): when the unit is not busy, the operation occupies it, for 8 beats or for
4 beats a pass, its result is pending for the beat of Table 4.10, and the cases met are noted. A busy unit stops the room with SLOT_BUSY.
Operations across lanes (R81, R101): the fixed tree over all 256 lanes, masked-off lanes giving the identity, into a scalar register ten beats on,
with the cases met noted; VXTR moves one lane into a scalar register two beats on. -/
def Obligations.LongAndTreeOperationsComplete : Prop :=
  (∀ (s : State) (r : Nat) (f : Sys2Proof.VectorSlot), Acts s r →
     let q := getRoom s r
     let n := sfuPasses f.imm.toNat
     let run (fn : Sys2Proof.Lane → Sys2Proof.Lane → Sys2Proof.Lane → Sys2Proof.Lane × NumFlags) :=
       laneRun fn 0 (vecOn q f) (vReg q f.va.toNat) (vecB q f) (vReg q f.vc.toNat)
     let iter (fn : Sys2Proof.Lane → Sys2Proof.Lane → Sys2Proof.Lane → Sys2Proof.Lane × NumFlags) : Host.Outcome State Fault Refusal :=
       .next (vecNote (resultDue (modRoom s r (fun q => { q with iterBusy := s.beat + 8 })) r (s.beat + 14) .arith (.v f.vd.toNat (run fn).1)) r (run fn).2)
     let sfu (fn : Sys2Proof.Lane → Sys2Proof.Lane × NumFlags) : Host.Outcome State Fault Refusal :=
       .next (vecNote (resultDue (modRoom s r (fun q => { q with sfuBusy := s.beat + 4 * n })) r (s.beat + (4 * n + 6)) .sfu
         (.v f.vd.toNat (run (fun a _ _ => fn a)).1)) r (run (fun a _ _ => fn a)).2)
     (PortFree s r (s.beat + 14) .arith (0, f.vd.toNat) → q.iterBusy ≤ s.beat →
       exec (.vdiv r f) s = iter (fun a b _ => b32Div a b) ∧ exec (.vsqrt r f) s = iter (fun a _ _ => b32Sqrt a)) ∧
     (PortFree s r (s.beat + (4 * n + 6)) .sfu (0, f.vd.toNat) → q.sfuBusy ≤ s.beat →
       (f.imm.toNat ≤ 10 → exec (.vsfu r f) s = sfu (sfuFn f.imm.toNat)) ∧
       (4 ≤ f.imm.toNat → f.imm.toNat ≤ 10 → exec (.vsfud r f) s = sfu (sfuDeriv f.imm.toNat))) ∧
     (s.beat < q.iterBusy → exec (.vdiv r f) s = .next (stopRoom s r codeSlotBusy 0) ∧ exec (.vsqrt r f) s = .next (stopRoom s r codeSlotBusy 0)) ∧
     (s.beat < q.sfuBusy →
       (f.imm.toNat ≤ 10 → exec (.vsfu r f) s = .next (stopRoom s r codeSlotBusy 0)) ∧
       (4 ≤ f.imm.toNat → f.imm.toNat ≤ 10 → exec (.vsfud r f) s = .next (stopRoom s r codeSlotBusy 0)))) ∧
  (∀ (s : State) (r : Nat) (f : Sys2Proof.VectorSlot), Acts s r →
     let q := getRoom s r
     let tree (fn : Sys2Proof.Lane → Sys2Proof.Lane → Sys2Proof.Lane × NumFlags) (ident : Sys2Proof.Lane) :=
       treeRun fn 8 (((vecOn q f).zip (vReg q f.va.toNat)).map (fun p => if p.1 then p.2 else ident)) noFlags
     let after (x : Sys2Proof.Lane × NumFlags) : Host.Outcome State Fault Refusal :=
       .next (vecNote (resultDue s r (s.beat + 10) .vecArr (.x f.xs.toNat (x.1.zeroExtend 64))) r (VecCases.addArith {} x.2))
     (PortFree s r (s.beat + 10) .vecArr (1, f.xs.toNat) →
       exec (.vrsum r f) s = after (tree b32Add 0) ∧ exec (.vrmin r f) s = after (tree b32Min 0x7F800000#32) ∧
       exec (.vrmax r f) s = after (tree b32Max 0xFF800000#32)) ∧
     (PortFree s r (s.beat + 2) .vecArr (1, f.xs.toNat) →
       exec (.vxtr r f) s =
         .next (resultDue s r (s.beat + 2) .vecArr (.x f.xs.toNat ((vLane q f.va.toNat (f.imm.toNat % 256)).zeroExtend 64)))))

/-! ### Rooms: the control slot -/

/-- Scalar and address operations (R93, R95, R107, R115, R117, Table 4.9): with the unused D24 bits and CF 0 and the result's port and register free, the
value is pending for the next beat (RSTAT: the beat after it), and nothing else changes. XOR is the bitwise OR of the table's row (log 24). -/
def Obligations.ScalarOperationsComplete : Prop :=
  ∀ (s : State) (r : Nat) (f : Sys2Proof.ControlSlot), Acts s r →
    let q := getRoom s r
    let d := d24d f
    let a := xReg q (d24a f)
    let b := xReg q (d24b f)
    let x (v : Sys2Proof.Word) : Host.Outcome State Fault Refusal := .next (resultDue s r (s.beat + 1) .ctl (.x d v))
    let ad (v : Sys2Proof.Word) : Host.Outcome State Fault Refusal := .next (resultDue s r (s.beat + 1) .addr (.a (d24ad f) v))
    (PortFree s r (s.beat + 1) .ctl (1, d) →
      (controlLegal 24 0 f = true → exec (.xset r f) s = x (d24imm19 f) ∧ exec (.xaddi r f) s = x (a + d24imm14 f)) ∧
      (controlLegal 15 0 f = true →
        exec (.xadd r f) s = x (a + b) ∧ exec (.xsub r f) s = x (a - b) ∧ exec (.xmul r f) s = x (a * b) ∧ exec (.xand r f) s = x (a &&& b) ∧
        exec (.xor r f) s = x (a ||| b) ∧ exec (.xshl r f) s = x (a <<< bits b 5 0) ∧ exec (.xshr r f) s = x (a >>> bits b 5 0)) ∧
      (controlLegal 5 0 f = true → exec (.tstat r f) s = x (token q f.tk.toNat).word ∧ exec (.ftime r f) s = x (BitVec.ofNat 64 s.now))) ∧
    (PortFree s r (s.beat + 1) .addr (2, d24ad f) → amovLegal f = true →
      exec (.amov r f) s = ad a ∧ exec (.aadd r f) s = ad (aReg q (d24ad f) + a)) ∧
    (PortFree s r (s.beat + 2) .ctl (1, d) → controlLegal 11 1 f = true →
      exec (.rstat r f) s = .next (resultDue (if f.cf = 1 then modRoom s r (fun q => clearStatus q (d24sel f)) else s) r (s.beat + 2) .ctl
        (.x d (roomStatus s q (d24sel f)))))

/-- Branches (R108): a target inside the program becomes the next bundle's address; LOOP's count falls by one, pending for the next beat, and branches
while it is not 0; BNZ branches when its register is not 0 and otherwise changes nothing. A branch taken to a target outside the program stops the room with
SEQUENCER_BOUNDS. -/
def Obligations.BranchesComplete : Prop :=
  ∀ (s : State) (r : Nat) (f : Sys2Proof.ControlSlot), Acts s r →
    let q := getRoom s r
    let taken := modRoom s r (fun q => { q with addr := d24target f })
    let n := xReg q (d24brA f) - 1
    (controlLegal 12 0 f = true →
      (d24target f < q.progLen → exec (.jmp r f) s = .next taken) ∧
      (q.progLen ≤ d24target f → exec (.jmp r f) s = .next (stopRoom s r codeBounds 0))) ∧
    (controlLegal 17 0 f = true →
      (xReg q (d24brA f) ≠ 0 → d24target f < q.progLen → exec (.bnz r f) s = .next taken) ∧
      (xReg q (d24brA f) ≠ 0 → q.progLen ≤ d24target f → exec (.bnz r f) s = .next (stopRoom s r codeBounds 0)) ∧
      (n ≠ 0 → q.progLen ≤ d24target f → exec (.loop r f) s = .next (stopRoom s r codeBounds 0)) ∧
      (xReg q (d24brA f) = 0 → exec (.bnz r f) s = .next s) ∧
      (PortFree s r (s.beat + 1) .ctl (1, d24brA f) →
        (n ≠ 0 → d24target f < q.progLen → exec (.loop r f) s = .next (resultDue taken r (s.beat + 1) .ctl (.x (d24brA f) n))) ∧
        (n = 0 → exec (.loop r f) s = .next (resultDue s r (s.beat + 1) .ctl (.x (d24brA f) n)))))

/-! ### Rooms: loads and stores of the vector slot, the array slot, the move slot -/

/-- VLD and VST (R80, R86, R94, R101): a legal access, aligned and inside the store, whose banks are free takes them, VLD in the issue beat and VST two beats
on. VLD's widened values, of words that can be corrected, reach VD six beats on; VST's narrowed bytes reach the store two beats on, and the cases met are
noted. The address register is post-incremented, and nothing else changes but the count of corrected words. -/
def Obligations.VectorMemoryCompletes : Prop :=
  ∀ (s : State) (r : Nat) (f : Sys2Proof.VectorSlot), Acts s r → vmemLegal f = true →
    let q := getRoom s r
    let es := cellBytes f.fmt.toNat
    let off := vecAddr q f
    PostFree s r f.aa.toNat (64 * f.ia.toNat) →
    (Readable s r off (256 * es) → PortFree s r (s.beat + 6) .load (0, f.vd.toNat) →
      let vals := (valuesOf es (storeRead s r off (256 * es))).map (widenLane f.fmt.toNat)
      exec (.vld r f) s = .next (posted
        (resultDue (readDone s r srcVector off (256 * es)) r (s.beat + 6) .load
          (.v f.vd.toNat (laneRun (fun a _ _ => (a, noFlags)) 0 (vecOn q f) vals vals vals).1) srcVector)
        r f.aa.toNat (64 * f.ia.toNat))) ∧
    (Claimable s r off (256 * es) (s.beat + 2) → f.msk = 0 →
      let xv := xReg q f.xs.toNat
      let draw (i : Nat) := drawOf (roomDrawKey s r 2 (bits xv 63 56)) (256 * bits xv 55 32 + i)
      let x := storeRun f.fmt.toNat (BitVec.ofNat 32 (bits xv 31 0)) (decide (f.ro = 1)) draw 0 (vReg q f.va.toNat)
      exec (.vst r f) s = .next (posted
        (vecNote (addActionOf (withBanks s r srcVector off (256 * es) (s.beat + 2)) r s.beat srcVector (s.beat + 2) 2
          (.store off ((x.1.map (fun c => leBytes es c)).flatten))) r x.2)
        r f.aa.toNat (64 * f.ia.toNat)))

/-- Planes and status records (R64, R66, R97, R114), for a gang of an allowed shape that overlaps no other in use: ASTAT reads, and ACLR clears, the record
four beats on; ASWAP makes the shadow planes active once their load is over. ALOAD, once the shadow planes are free and with the banks of each of its rows
free in the row's beat, reads row 0 now and row i in beat b + i, row 0 being put into the shadow planes four beats on; the planes are ready eleven beats on,
twelve with a ninth row; the banks are taken, the address register is post-incremented, and nothing else of the room or outside it changes. -/
def Obligations.ArrayPlanesComplete : Prop :=
  ∀ (s : State) (r : Nat) (f : Sys2Proof.ArraySlot) (g p k : Nat), Acts s r →
    let gb := f.gb.toNat
    (GangFree s r gb f.gs.toNat 0 g p k →
      (astatLegal f = true → exec (.astat r f) s = .next (addAction (gangUsed s r gb f.gs.toNat) r (s.beat + 4) 0 (.statRead f))) ∧
      (aclrLegal f = true → exec (.aclr r f) s = .next (addAction (gangUsed s r gb f.gs.toNat) r (s.beat + 4) 0 (.statClear gb)))) ∧
    (GangFree s r gb f.gs.toNat f.gp.toNat g p k →
      (aswapLegal f = true → (∀ a ∈ arraysOf gb g, (shadowOf s r a).ready < s.beat + 4) →
        exec (.aswap r f) s =
          .next (modRoom (gangUsed s r gb f.gs.toNat) r (fun q => modArrs q (arraysOf gb g) (fun _ a => { a with active := 1 - a.active })))) ∧
      (aloadLegal f = true →
        let fmt := f.fmt.toNat
        let base := (aReg (getRoom s r) f.aa.toNat).toNat
        let st := loadRowBytes g fmt 0
        let sh := shadowBits (getRoom s r) gb g
        (∀ a ∈ arraysOf gb g, (shadowOf s r a).free ≤ s.beat + 4) →
        (∀ i, i < 8 → Claimable s r (base + i * st) st (s.beat + i)) → storeBad s r base st = false →
        (ninthRow fmt = true → Claimable s r (base + 8 * st) (roundUp (loadRowBytes g fmt 8) 64) (s.beat + 8)) →
        PostFree s r f.aa.toNat (64 * f.ia.toNat) →
        ∃ t, exec (.aload r f) s = .next t ∧ ArrayFrame s t r ∧
          (∀ a ∈ arraysOf gb g, (shadowOf t r a).ready = s.beat + 11 + b2n (ninthRow fmt)) ∧
          (∃ m ∈ (getRoom t r).micro, m.due = s.beat + 4 ∧ m.op = .loadPut gb g sh fmt 0 (storeRead s r base st)) ∧
          (∀ i, 1 ≤ i → i < 8 + b2n (ninthRow fmt) → ∃ m ∈ (getRoom t r).micro,
            m.due = s.beat + i ∧ m.op = .loadRow gb g sh fmt i (base + i * st)) ∧
          (∀ i, i < 8 → ∀ b ∈ banksOf (base + i * st) st, ∃ u ∈ (getRoom t r).banks, u.beat = s.beat + i ∧ u.bank = b) ∧
          (ninthRow fmt = true → ∀ b ∈ banksOf (base + 8 * st) (roundUp (loadRowBytes g fmt 8) 64), ∃ u ∈ (getRoom t r).banks, u.beat = s.beat + 8 ∧ u.bank = b) ∧
          (f.ia ≠ 0 → ∃ m ∈ (getRoom t r).micro, m.due = s.beat + 1 ∧
            m.op = .a f.aa.toNat (aReg (getRoom s r) f.aa.toNat + BitVec.ofNat 64 (64 * f.ia.toNat)))))

/-- Rows and drains (R66, R69, R73, R96, R98, R99, R100), for a gang of an allowed shape that overlaps no other in use, c being the issue beat + 4. AROW, with no
accumulator hazard and valid active planes, reads its values and scale bytes now; the row acts at the arrays in c, its chain ends' entries are written until
c + W(d), and the entry is tagged with its mode and kind. AOROW, with its plane drained, reads both operands now; the row acts in c, and with END the plane
drains from c + 16 on. ADRAIN, of entries of one half and one tag that are no longer written, converts entry E + i in c + i; its rows' banks are taken from
six beats on, and for integer entries the token scales' lines from now on. Address registers are post-incremented, and nothing else of the room or outside
it changes but the numeric watch's counts and the corrected words'. -/
def Obligations.ArrayRowsComplete : Prop :=
  ∀ (s : State) (r : Nat) (f : Sys2Proof.ArraySlot) (g p k : Nat), Acts s r →
    let q := getRoom s r
    let gb := f.gb.toNat
    let tp := f.tp.toNat
    let fmt := f.fmt.toNat
    let e := f.e.toNat
    let h := e / 256
    let c := s.beat + 4
    let aa := (aReg q f.aa.toNat).toNat
    let ab := (aReg q f.ab.toNat).toNat
    let asc := (aReg q f.asc.toNat).toNat
    let line := asc - asc % 64
    let postedTo (t : State) (a n : Nat) : Prop := n ≠ 0 → ∃ m ∈ (getRoom t r).micro, m.due = s.beat + 1 ∧ m.op = .a a (aReg q a + BitVec.ofNat 64 n)
    (GangFree s r gb f.gs.toNat f.gp.toNat g p k →
      (arowLegal f = true →
        let d := if tp = 0 then p else k
        let n := roundUp (valueBytes fmt (8 * d * (if fmt = 7 then 2 else 1))) 64
        let ends := chainEnds gb p k tp
        let nsc := if fmt = 4 ∨ fmt = 5 then ceilDiv (8 * d) (blockSize f.blk.toNat) else 0
        (∀ a ∈ ends, ¬(f.cin = 1 ∧ c ≤ smGet 0 (getArr q a).wr e) ∧ ¬((halfDrain (getArr q a) h).1 ≤ c ∧ c ≤ (halfDrain (getArr q a) h).2)) →
        (∀ a ∈ arraysOf gb g, (activeOf s r a).valid = true) → Readable s r aa n →
        (nsc ≠ 0 → asc % 64 + nsc ≤ 64 ∧ (ScalesHeld s r gb asc ∨ (Readable s r line 64 ∧ ∀ b ∈ banksOf line 64, b ∉ banksOf aa n))) →
        PostFree s r f.aa.toNat (64 * f.ia.toNat) → PostFree s r f.asc.toNat nsc → (f.ia ≠ 0 → nsc ≠ 0 → f.aa ≠ f.asc) →
        ∃ t, exec (.arow r f) s = .next t ∧ ArrayFrame s t r ∧
          (∃ m ∈ (getRoom t r).micro, m.due = c ∧ m.ord = 1 ∧ ∃ sample, m.op = .row f ((arraysOf gb g).map (fun a => (getArr q a).active))
            (operandCodes fmt (storeRead s r aa n)) (if nsc = 0 then [] else scaleBytes s r gb asc nsc) sample) ∧
          (∀ a ∈ ends, smGet 0 (getArr (getRoom t r) a).wr e = max (smGet 0 (getArr q a).wr e) (c + wDepth d)) ∧
          smGet 0 (getGang (getRoom t r) gb).tags e = tp + 2 * b2n (decide (fmt = 6 ∨ fmt = 7)) ∧
          postedTo t f.aa.toNat (64 * f.ia.toNat) ∧ postedTo t f.asc.toNat nsc) ∧
      (adrainLegal f = true →
        let gg := getGang q gb
        let tag := smGet 0 gg.tags e
        let ends := chainEnds gb p k (tag % 2)
        let sd := roundUp (8 * ends.length * outBytes f.ofmt.toNat) 64
        let lines := if tag / 2 = 1 then ceilDiv (4 * (f.cnt.toNat + 1)) 64 else 0
        (e + f.cnt.toNat) / 256 = h → gg.drain < c → (∀ i, i ≤ f.cnt.toNat → smGet 0 gg.tags (e + i) = tag) →
        (∀ a ∈ ends, halfWrite (getArr q a) h < c) →
        (∀ i, i ≤ f.cnt.toNat → Claimable s r (aa + i * sd) sd (s.beat + 6 + i)) →
        (∀ j, j < lines → Claimable s r (asc + 64 * j) 64 (s.beat + 16 * j) ∧
          ∀ i, i ≤ f.cnt.toNat → 6 + i = 16 * j → ∀ b ∈ banksOf (asc + 64 * j) 64, b ∉ banksOf (aa + i * sd) sd) →
        (lines ≠ 0 → storeBad s r asc 64 = false) → PostFree s r f.aa.toNat (64 * f.ia.toNat) →
        ∃ t, exec (.adrain r f) s = .next t ∧ ArrayFrame s t r ∧
          (∀ i, i ≤ f.cnt.toNat → ∃ m ∈ (getRoom t r).micro, m.due = c + i ∧
            m.op = .drainRead f i (tag % 2) (tag / 2) aa sd (xReg q f.xs.toNat) s.beat) ∧
          (∀ i, i ≤ f.cnt.toNat → ∀ b ∈ banksOf (aa + i * sd) sd, ∃ u ∈ (getRoom t r).banks, u.beat = s.beat + 6 + i ∧ u.bank = b) ∧
          (∀ j, j < lines → ∀ b ∈ banksOf (asc + 64 * j) 64, ∃ u ∈ (getRoom t r).banks, u.beat = s.beat + 16 * j ∧ u.bank = b) ∧
          (∀ j, 1 ≤ j → j < lines → ∃ m ∈ (getRoom t r).micro, m.due = s.beat + 16 * j ∧ m.op = .drainScales gb (asc + 64 * j) 64 s.beat) ∧
          postedTo t f.aa.toNat (64 * f.ia.toNat))) ∧
    (GangFree s r gb f.gs.toNat 0 g p k → aorowLegal f = true →
      let nx := roundUp (valueBytes fmt 8) 64
      let ny := roundUp (valueBytes fmt (8 * g)) 64
      let nsc := if fmt = 4 ∨ fmt = 5 then 1 + g else 0
      let into := (aReg q f.aa.toNat + BitVec.ofNat 64 (64 * f.ia.toNat)).toNat
      (∀ a ∈ arraysOf gb g, (planeOf (getArr q a) tp).lastDrain < c) →
      Readable s r aa nx → Readable s r ab ny → (∀ b ∈ banksOf ab ny, b ∉ banksOf aa nx) →
      (nsc ≠ 0 → asc % 64 + nsc ≤ 64 ∧ (ScalesHeld s r gb asc ∨
        (Readable s r line 64 ∧ (∀ b ∈ banksOf line 64, b ∉ banksOf aa nx) ∧ ∀ b ∈ banksOf line 64, b ∉ banksOf ab ny))) →
      (f.fin = 1 → f.dst = 0 → ∀ i, i < 8 → Claimable s r (into + 1024 * i) (roundUp (32 * g) 64) (s.beat + 22 + i)) →
      PostFree s r f.aa.toNat (64 * f.ia.toNat) → PostFree s r f.ab.toNat (64 * f.ib.toNat) → PostFree s r f.asc.toNat nsc →
      (f.ia ≠ 0 → f.ib ≠ 0 → f.aa ≠ f.ab) → (f.ia ≠ 0 → nsc ≠ 0 → f.aa ≠ f.asc) → (f.ib ≠ 0 → nsc ≠ 0 → f.ab ≠ f.asc) →
      ∃ t, exec (.aorow r f) s = .next t ∧ ArrayFrame s t r ∧
        (∃ m ∈ (getRoom t r).micro, m.due = c ∧ m.op = .orow f (operandCodes fmt (storeRead s r aa nx)) (operandCodes fmt (storeRead s r ab ny))
          (if nsc = 0 then [] else scaleBytes s r gb asc nsc)) ∧
        (f.fin = 1 → ∃ m ∈ (getRoom t r).micro, m.due = c + 16 ∧ m.op = .odrain f into) ∧
        (f.fin = 1 → f.dst = 0 → ∀ i, i < 8 → ∀ b ∈ banksOf (into + 1024 * i) (roundUp (32 * g) 64),
          ∃ u ∈ (getRoom t r).banks, u.beat = s.beat + 22 + i ∧ u.bank = b) ∧
        postedTo t f.aa.toNat (64 * f.ia.toNat) ∧ postedTo t f.ab.toNat (64 * f.ib.toNat) ∧ postedTo t f.asc.toNat nsc)

/-- The move slot (R103, R104), for each of its operations: when its token is idle, the operation queues last in issue order with the registers as they stand,
its token is pending from the next beat on, and nothing else changes. A request of length 0 queues as one that has ended well; a malformed one as one that
has ended with MOVE_SHAPE, every part failed, which is recorded. A token that is not idle stops the room with TOKEN_BUSY. -/
def Obligations.MoveSlotArms : Prop :=
  ∀ (s : State) (r : Nat) (f : Sys2Proof.MoveSlot), Acts s r → f.rsvd = 0 →
    let q := getRoom s r
    let len := (xReg q f.xl.toNat).toNat
    let shape := if f.xq = 0 then 0 else xReg q f.xq.toNat
    let queued (kind : ElasticKind) : State := modRoom s r (fun x => { x with ops := x.ops ++ [{
      kind := kind, f := f, issued := s.now, src := (aReg q f.asrc.toNat).toNat, dst := (aReg q f.adst.toNat).toNat, len := len,
      par := xReg q f.xp.toNat, shape := shape }] })
    let armed (t : State) : State := addAction t r (s.beat + 1) 0 (.tok f.tk.toNat { st := .pending, word := 0x10000#64, armed := s.beat, doneAt := 0 })
    let each (claim : ElasticKind → Sys2Proof.Instr → Prop) : Prop :=
      claim .mload (.mload r f) ∧ claim .mstore (.mstore r f) ∧ claim .mroom (.mroom r f) ∧ claim .matom (.matom r f) ∧
      claim .mgather (.mgather r f) ∧ claim .mscatter (.mscatter r f) ∧ claim .msend (.msend r f) ∧ claim .mrecv (.mrecv r f) ∧
      claim .mreduce (.mreduce r f) ∧ claim .mfence (.mfence r f) ∧ claim .mpref (.mpref r f)
    ((token q f.tk.toNat).st = .idle → each (fun kind cmd =>
      (requestOk q kind f len shape = true → (hasLength kind = true → len ≠ 0) → exec cmd s = .next (armed (queued kind))) ∧
      (requestOk q kind f len shape = true → hasLength kind = true → len = 0 → exec cmd s = .next (armed (queued (.done 0 0)))) ∧
      (requestOk q kind f len shape = false →
        exec cmd s = .next (armed (recordFault (queued (.done codeMoveShape allParts)) codeMoveShape (unitRoom q.floor) (roomItems r q 0)))))) ∧
    ((token q f.tk.toNat).st ≠ .idle → each (fun _ cmd => exec cmd s = .next (stopRoom s r codeTokenBusy 0)))

/-! ### Completions in a room -/

/-- Completions (R87, R103, R106, R107): the operation of a pending token that may complete, and that no access to a retraining channel or a held row and no
earlier atomic holds back, moves its data, its last line taking its bank of the room store where it writes one, and its token completes with the first fault's
code and the failed parts; a last line whose bank is taken waits in the staging buffer. An operation that another unit serves completes with what that unit
noted once it waits on nothing more, and MFENCE with nothing failed. -/
def Obligations.ElasticCompletionsComplete : Prop :=
  ∀ (s : State) (r tk : Nat) (o : Elastic), Powered s → startedOp s r tk = some o → opWaits s o = false → atomWaits (getRoom s r) o = false →
    (∀ x ∈ (getRoom s r).ops, x.staged = false) →
    let u := match lastLine s r o with
      | none => s
      | some (p, off) => modRoom s p (fun q => { q with ebanks := q.ebanks ++ [(s.now, off / 64 % 16)] })
    let staged := modRoom s r (fun q => { q with ops := modifyFirst (fun x => decide (x.f.tk = o.f.tk)) (fun x => { x with staged := true }) q.ops })
    let free : Prop := ∀ p off, lastLine s r o = some (p, off) → bankFree s p off = true
    let taken : Prop := ∃ p off, lastLine s r o = some (p, off) ∧ bankFree s p off = false
    let moved (x : State × Nat × Nat) : Host.Outcome State Fault Refusal := .next (completeToken x.1 r tk x.2.1 x.2.2)
    let served : Host.Outcome State Fault Refusal := .next (completeToken s r tk o.fault o.parts)
    (free →
      (o.kind = .mload → exec (.mloadDone r tk) s = moved (loadDone u r o)) ∧ (o.kind = .mstore → exec (.mstoreDone r tk) s = moved (storeDone u r o)) ∧
      (o.kind = .mroom → exec (.mroomDone r tk) s = moved (roomDone u r o)) ∧ (o.kind = .matom → exec (.matomDone r tk) s = moved (atomDone u r o)) ∧
      (o.kind = .mpref → exec (.mprefDone r tk) s = moved (prefDone u r o)) ∧
      (o.kind = .mfence → exec (.mfenceDone r tk) s = .next (completeToken u r tk 0 0))) ∧
    (taken →
      (o.kind = .mload → exec (.mloadDone r tk) s = .next staged) ∧ (o.kind = .mroom → exec (.mroomDone r tk) s = .next staged) ∧
      (o.kind = .matom → exec (.matomDone r tk) s = .next staged)) ∧
    (o.accepted = true → o.left = 0 →
      (o.kind = .mgather → exec (.mgatherDone r tk) s = served) ∧ (o.kind = .mscatter → exec (.mscatterDone r tk) s = served) ∧
      (o.kind = .msend → exec (.msendDone r tk) s = served) ∧ (o.kind = .mrecv → exec (.mrecvDone r tk) s = served) ∧
      (o.kind = .mreduce → exec (.mreduceDone r tk) s = served))

/-- A token that completes (R107, R120, Table 4.11) holds COMPLETE, its word says done, failed exactly when there is a code, and carries the code and the
failed parts; its operation leaves the queue; the other tokens are unchanged; and no other room, register or byte of memory changes while no WAIT holds the
room on it. -/
def Obligations.TokenCompletes : Prop :=
  ∀ (s : State) (r tk code parts : Nat), code < 2 ^ 16 → parts < 2 ^ 32 → (getRoom s r).hold = none →
    let t := completeToken s r tk code parts
    let k := token (getRoom t r) tk
    k.st = .complete ∧ bits k.word 15 0 = code ∧ bits k.word 17 17 = 1 ∧ bits k.word 18 18 = b2n (decide (code ≠ 0)) ∧ bits k.word 63 32 = parts ∧
    k.doneAt = seenBeat s ∧ (∀ j, j ≠ tk → token (getRoom t r) j = token (getRoom s r) j) ∧ (∀ r', r' ≠ r → getRoom t r' = getRoom s r') ∧
    t = { s with rooms := t.rooms }

/-! ### Phases, sync points and barriers -/

/-- SYNC, PEND, HALT, the end of a program fill and a WAIT's limit (R108, R111, R112, R126, R127): SYNC, once a phase and of the phase's END_SYNC, reports the
room's late counters to the sequencer, starts them again at 0, and arrives the room; PEND, with every token idle, and HALT end the room's program; a fill that
has ended puts the program of its phase in the bundle buffer and starts a room that awaits it; a WAIT that has held longer than the phase's limit stops the
room with WAIT_TIMEOUT. -/
def Obligations.PhaseCommandsComplete : Prop :=
  ∀ (s : State) (r : Nat) (f : Sys2Proof.ControlSlot),
    let q := getRoom s r
    (Acts s r →
      (∀ p, controlLegal 16 0 f = true → phaseAt s q.phase = some p → q.synced = false → p.endSync = d24sync f →
        let late : LateReport := { cycles := q.lateCycles, waits := q.lateWaits, max := q.lateMax, first := q.firstLate }
        exec (.sync r f) s = .next (arriveRoom (modRoom { s with
            rooms := (modRoom s r (fun q => { q with synced := true })).rooms
            seq := { s.seq with reports := smSet {} s.seq.reports r late } } r
          (fun q => { q with lateCycles := 0, lateWaits := 0, lateMax := 0, firstLate := 0 })) r)) ∧
      (controlLegal 0 0 f = true → q.run ≠ .stopped → (∀ t ∈ q.toks, t.2.st = .idle) →
        exec (.pend r f) s = .next (endProgram s r .ended (phaseAfter s q.phase))) ∧
      (controlLegal 0 0 f = true → q.run ≠ .stopped → exec (.halt r f) s = .next (endProgram s r .halted 0))) ∧
    (Powered s → q.filled = false → q.fillEnd ≤ s.now →
      (q.run = .filling → exec (.programFillDone r) s = .next (runRoom (loadBundles s r q.fillPhase) r)) ∧
      (q.run = .idle ∨ q.run = .ended ∨ q.run = .halted ∨ q.run = .stopped → exec (.programFillDone r) s = .next (loadBundles s r q.fillPhase))) ∧
    (∀ h p, Powered s → q.hold = some h → phaseAt s q.phase = some p → (q.run = .held ∨ (q.run = .running ∧ s.beat < q.resumeAt)) → h.w + p.waitLimit < s.beat →
      exec (.waitTimeout r) s = .next (stopRoom s r codeWaitTimeout 0))

/-- A turn's end and a sync point's release (R128, R130, R138): while a phase runs with turns left and its resident rooms all arrived, the departing
rooms are saved, the next turn's loaded and started, or a failed swap stops the step; a sync point that is no barrier releases, on a module that has locked,
at T_plan, or 16 cycles after the last arrival where that is later, and is recorded. -/
def Obligations.TurnsAndReleasesComplete : Prop :=
  ∀ (s : State) (y : SyncEnt), Powered s → curSync s = some y → schState s = 3 → s.seq.stopped = false →
    (s.seq.inPhase = true → s.seq.turnsDone + 1 < tau s → turnOver s y = true →
      let b := turnAt s s.seq.phase (s.seq.turnsDone + 1)
      let t := swapRooms s s.seq.phase b
      exec (.turnSwap false) s = .next (startTurn { t with seq := { t.seq with turn := b, turnsDone := t.seq.turnsDone + 1 } } t.seq.phase
        (syncMembers { t with seq := { t.seq with turn := b, turnsDone := t.seq.turnsDone + 1 } } y)) ∧
      exec (.turnSwap true) s = .next (stopFault s rSchFault 16 codeSwapFailed unitSch [])) ∧
    (y.scope ≠ 2 → s.seq.everLocked = true → roomsArrived s y = true →
      let rel := if s.seq.lastArrival + 16 ≤ tPlanNow s then tPlanNow s else s.seq.lastArrival + 16
      rel ≤ s.now →
      exec .syncRelease s = .next (goOn (noteRelease (noteSync s y false (rel - tPlanNow s) (decide (tPlanNow s < s.seq.lastArrival + 16)))
        (if y.scope = 0 then [y.floor] else upTo 10)) y rel))

/-- Arrivals at a barrier and its root (R129, R131): a module whose rooms have arrived and that nothing holds arrives with its own arrival and forwards its
subtree's, at a start barrier after it has read its journal's records for a replay, and at the commit barrier unless a frame of the step is left over or its
turns have come to exceed TURNS_MAX; a child's first arrival is kept and forwarded in turn; the root, holding the whole tree, names T_plan or the later cycle H after the last arrival; a
tolerant barrier's root names H after T_plan + θ without the missing ranks; and any other that is incomplete at T_plan + BARRIER_LIMIT aborts the step. Of a
step that is replayed, whose record names the ranks absent, the second is not said here. -/
def Obligations.BarrierArrivalsComplete : Prop :=
  ∀ (s : State) (y : SyncEnt), Powered s → curBarrier s = some y →
    (let u := if y.role = 1 then readReplay s else s
     roomsArrived s y = true → s.seq.barrier.released = false → s.seq.barrier.own = none → mayArrive u y = true →
     (y.role = 2 → (∀ x ∈ s.col.early, x.step ≠ stepNo s) ∧ tauMod s ≤ s.seq.image.turnsMax) →
      let a := ownArrival u y
      exec .barrierArrival s = .next (passAbort (forwardArrival
        { a.1 with seq := { a.1.seq with barrier := { a.1.seq.barrier with own := some u.now, children := [(rank u, a.2)] } } } y))) ∧
    (∀ x, FreshBarrier s x 1 →
      let t := noteCopy s x
      exec (.barrierArriveReceive x) s = .next (delivered (passAbort (forwardArrival { t with seq := { t.seq with early := t.seq.early ++ [x] } } y)) x)) ∧
    (s.seq.barrier.notice = none → s.seq.abort = none →
      (∀ tc, s.seq.barrier.rootAt = some tc → tPlanNow s ≤ s.now + horizon s y → recordedAbsent s y = none →
        exec .rootDeadline s = .next (takeNotice s y (rootNotice s y (if tc + horizon s y ≤ tPlanNow s then tPlanNow s else tc + horizon s y) []))) ∧
      (s.seq.barrier.rootAt = none → rank s = 0 →
        (y.policy = 1 → recordedAbsent s y = none → tPlanNow s + y.theta ≤ s.now →
          exec .tolerantRelease s = .next (takeNotice s y (rootNotice s y (tPlanNow s + y.theta + horizon s y)
            ((upTo s.seq.image.modules).filter (fun r => !(((ownEntry s ++ childArrivals s y).map (fun x => x.2.ranks)).flatten.contains r)))))) ∧
        (y.policy ≠ 1 ∨ (recordedAbsent s y).isSome = true → tPlanNow s + s.seq.image.barrierLimit ≤ s.now →
          exec .barrierTimeout s = .next (passAbort (stopFault s rSchFault 16 codeBarrierTimeout unitSch [(y.id, 2)])))))

/-- Notices, releases and aborts (R129, R130, R132): the awaited barrier's notice is taken and goes down the tree; in the cycle it names the barrier releases
and the step goes on; an abort that names its stop cycle is taken and goes down; from that cycle on every room is stopped, and SCH_STATE holds STOPPED, or FAULTED in
the module the abort came from. -/
def Obligations.NoticesAndAbortsComplete : Prop :=
  ∀ s : State, Powered s →
    (∀ y x, curBarrier s = some y → FreshBarrier s x 2 → y.id = argNat x 2 2 → x.step = stepNo s → s.seq.barrier.notice = none →
      exec (.barrierNoticeReceive x) s = .next (delivered (takeNotice (noteCopy s x) y (noticeOf y.id x.data)) x)) ∧
    (∀ y n, curBarrier s = some y → s.seq.barrier.notice = some n → s.seq.barrier.released = false → n.release ≤ s.now → roomsArrived s y = true →
      exec .barrierRelease s = .next (goOn (releaseBarrier s y n) y n.release)) ∧
    (∀ x, FreshBarrier s x 3 → schState s = 3 → (∀ a, s.seq.abort = some a → a.stop = none) → leNat ((x.data.drop 8).take 8) ≠ 0 →
      let t := noteCopy s x
      exec (.barrierAbortReceive x) s = .next (delivered (passAbort { t with seq := { t.seq with
        abort := some { code := leNat (x.data.take 2), origin := leNat ((x.data.drop 2).take 2), stop := some (leNat ((x.data.drop 8).take 8)) } } }) x)) ∧
    (∀ a c, s.seq.abort = some a → a.stop = some c → schState s = 3 → c ≤ s.now →
      ∃ t, exec .stepStop s = .next t ∧ t.seq.stopped = true ∧ (∀ r, r < t.seq.image.lrooms → (getRoom t r).run = .stopped) ∧
        schState t = (if a.origin = rank s ∧ a.code ≠ 0 then 5 else 4))

/-- SCH_CTRL (R27, R124, R132, R344, Table 5.7): LOAD verifies the image, and with a good signature and the job's module count the schedule is in place;
START in state LOADED, with a journal ring and no replay, is RUNNING at the start barrier of the first phase; STOP aborts the step with code 0.
The journal (R338, R346): a readable firmware record of at least its header is appended with its type, its OBSERVATION bit, its step and its body; the replay
ring's HEAD moves on. -/
def Obligations.JournalAndScheduleControlComplete : Prop :=
  (∀ s : State, Powered s →
     (∀ b : List Sys2Proof.Byte, schState s ≠ 3 →
       let h := readBytes s (regBits s rSchImage 63 6 * 64) 0x100
       let len := leNat ((h.1.drop 0x10).take 8)
       h.2 = 0 → len ≤ 2 ^ 41 → readBytes s (regBits s rSchImage 63 6 * 64) len = (b, 0) → 0x100 ≤ b.length → secOff b 9 ≤ b.length →
       let u := mrExtend (noteFetch s (regBits s rSchImage 63 6 * 64) len unitSch) 2 (digest64 (b.take (secOff b 9)))
       let refuse (t : State) (code : Nat) : State :=
         let v := withField (withField (withField (withField t rSchState 2 0 0) rLdrJob 16 16 0) rFabJob 16 16 0) rCelZone 6 6 0
         imageFault { v with seq := { v.seq with image := {} }, rooms := [] } code
       exec .schCtrlLoad s = .next (if imageSigned u b = true
         then match parseImage b with
           | none => refuse u codeImageFormat
           | some im => if im.modules = u.seq.jobModules ∧ tauMod (takeImage u im) ≤ im.turnsMax ∧ closeNamed u im = true
             then takeImage u im else refuse u codeImageMismatch
         else refuse (withField u rSecEvent 0 0 1) codeImageSignature)) ∧
     (∀ p, schState s = 2 → regBits s rJrnlCtl 23 0 ≠ 0 → phaseAt s 0 = some p → regBits s rReplay 0 0 = 0 → s.jrnl.read = [] →
       let t := withField (withField s rSchState 2 0 3) rReplay 1 1 0
       exec .schCtrlStart s = .next (openSync { t with seq := { t.seq with stopped := false, abort := none } } p.startSync 0 s.now)) ∧
     (schState s = 3 → s.seq.abort = none →
       let stop := if rank s = 0 then some (s.now + (match commitSync s with | some y => horizon s y | none => 0)) else none
       exec .schCtrlStop s = .next (passAbort { s with seq := { s.seq with abort := some { code := 0, origin := rank s, stop := stop } } }))) ∧
  (∀ s : State, Powered s →
     (∀ addr : Nat,
       let a := addr / 16 * 16
       let h := (readBytes s a 32).1
       let u := leNat ((h.drop 2).take 2)
       (readBytes s a 32).2 = 0 → 2 ≤ u → (readBytes s a (16 * u)).2 = 0 →
       exec (.journalPut addr) s = .next (journalAppend (noteFetch s a (max 32 (16 * u)) unitSch) (leNat (h.take 2)) (leNat ((h.drop 6).take 1) % 2) (leNat ((h.drop 16).take 8))
         ((readBytes s a (16 * u)).1.drop 32))) ∧
     (∀ head : Nat, exec (.replayRingLoad head) s = .next (withField s rRplyPtr 31 0 head)))

/-! ### Fabric time -/

/-- Fabric time on the links (R118, R119, R366, R367, R368, Table 14.11): a valid exchange at least 2^16 cycles after the last writes the round trip and the offset
and moves the lock; the first one of a module that has never locked sets its count; a failed one counts, and the third in succession on TIME_LINK moves the module
to BACKUP; holdover expires 650,000 cycles after the last valid exchange; an offset outside for 1,300,000 cycles stops a module's step; a grandmaster latches
its time at a PPS edge; the roles are written as the switches carry them, on a change of REF_OK too where the grandmaster stays, a module whose PRIORITY is 255 showing REF_OK 0 and
keeping its roles (R480). -/
def Obligations.FabricTimeCompletes : Prop :=
  ∀ s : State, Powered s →
    let t := s.fab.time
    let l := timeLink s
    let u := { s with fab := { s.fab with time := { t with lastExchange := s.now } } }
    ((t.lastExchange = 0 ∨ t.lastExchange + 2 ^ 16 ≤ s.now) →
      (∀ t1 t2 t3 t4, exec (.timeExchange false t1 t2 t3 t4) s = .next (exchangeFails u)) ∧
      (∀ t1 t2 t3 t4 : Nat, linkState s l = 2 → s.seq.everLocked = true →
        let z : Int := (Int.ofNat t2 - Int.ofNat t1) - (Int.ofNat t4 - Int.ofNat t3)
        let rtt : Int := (Int.ofNat t4 - Int.ofNat t1) - (Int.ofNat t3 - Int.ofNat t2)
        let num : Int := z * 10000 - toSigned 32 (regBits s (rLnkTime l) 31 0) * 3328
        let v := withField u (rLnkTime l) 63 32 (ofSigned 32 ((rtt * 10000).tdiv 6656))
        let w := withField { v with fab := { v.fab with time := { v.fab.time with lastGood := v.now, fails := 0 } } } rSchOffset 31 0 (ofSigned 32 (num.tdiv 6656))
        exec (.timeExchange true t1 t2 t3 t4) s = .next (noteOffset w (decide (-(1500 * 6656) ≤ num) && decide (num ≤ 1500 * 6656)))) ∧
      (∀ t1 t2 t3 t4 : Nat, linkState s l = 2 → s.seq.everLocked = false → t.counted = false → isGm s = false →
        let rtt : Int := (Int.ofNat t4 - Int.ofNat t1) - (Int.ofNat t3 - Int.ofNat t2)
        let v := withField u (rLnkTime l) 63 32 (ofSigned 32 ((rtt * 10000).tdiv 6656))
        let n := (t3 + (rtt / 2).toNat) / 256
        exec (.timeExchange true t1 t2 t3 t4) s = .next { v with
          now := n
          fab := { v.fab with time := { lastExchange := n, lastGood := n, fails := 0, counted := true } } })) ∧
    (s.seq.everLocked = true → isGm s = false → t.lastGood + 650000 ≤ s.now → exec .holdoverExpiry s = .next (noteOffset s false)) ∧
    (∀ c, s.seq.outSince = some c → c + 1300000 ≤ s.now →
      exec .timeUnlocked s = .next (stopFault { s with seq := { s.seq with outSince := none } } rSchFault 16 codeTimeUnlocked unitSch [])) ∧
    (isGm s = true → exec .ppsEdge s = .next (latchIrq (let v := BitVec.ofNat 64 s.now; { s with regs := smSet (regReset rFabPps) s.regs rFabPps v, cyc := { s.cyc with new := smSet 0 s.cyc.new rFabPps v } }) 39)) ∧
    (∀ standby sb,
      let gm := decide (regBits s rFabTimeStat 2 2 = 1)
      let v := setRoles s gm (standby && !gm) (regBits s rFabTimeStat 47 32) sb
      exec (.gmChange standby sb) s = .next (fabFault v codeGmChange (timeLink v) [(regBits v rFabTimeStat 31 16, 2)])) ∧
    (∀ ok gm standby gmRank sbRank,
      let v := withField { s with fab := { s.fab with time := { t with refIn := ok } } } rFabTimeStat 0 0 (b2n (ok && decide (regBits s rFabTimeCfg 7 0 ≠ 255)))
      (regBits s rFabTimeCfg 7 0 = 255 → exec (.refOkChange ok gm standby gmRank sbRank) s = .next v) ∧
      (regBits s rFabTimeCfg 7 0 ≠ 255 → regBits v rFabTimeStat 31 16 = gmRank % 65536 →
        exec (.refOkChange ok gm standby gmRank sbRank) s = .next (setRoles v gm standby gmRank sbRank)))

/-! ### Cellars -/

/-- Scrub, retrains and map-out (R176, R179, R181, R182, R184, R185): a scrub read checks the next line of the channel and moves its line on; the lowest due
channel that may start begins its periodic retrain, one at a time; a drift or firmware request starts one; an attempt whose margins meet R185 ends the retrain,
a failed one is counted and the third fails the channel; a LIVE channel that is mapped out is PENDING_OUT at once. -/
def Obligations.ChannelCareCompletes : Prop :=
  ∀ (s : State) (cellar ch : Nat), Powered s →
    let id := cellar * 32 + ch
    let c := getChan s id
    let st := rMemChState cellar ch
    (Commandable s cellar ch →
      (regBits s (rMemCtrl cellar) 6 6 = 1 → (c.lastScrub = 0 ∨ c.lastScrub + 2048 ≤ s.now) →
        exec (.scrubRead cellar ch) s = .next (scrubLine (withField (setChan s id { c with lastScrub := s.now }) st 63 32
          ((regBits s st 63 32 + 1) % 50331648)) id (regBits s st 63 32))) ∧
      exec (.driftRetrainStart cellar ch) s = .next (startRetrain s id 1) ∧ exec (.firmwareRetrain cellar ch) s = .next (startRetrain s id 2) ∧
      (chState s id = 0 → exec (.channelMapout cellar ch) s = .next (channelSums (setChState s id 2) cellar))) ∧
    (∀ i, periodicRuns s = false → (s.cel.live.filter (fun id => retrainDue s id && periodicMay s id)).min? = some i →
      exec .periodicRetrainStart s = .next (startRetrain { s with cel := { s.cel with periodicUsed := true } } i 0)) ∧
    (∀ (r : Retrain) (rdT wrT rdV wrV : Nat), c.retrain = some r →
      let u := recordMargins s id rdT wrT rdV wrV
      ((20 ≤ rdT ∧ 20 ≤ wrT ∧ 24 ≤ rdV ∧ 24 ≤ wrV) →
        let v := recordRetrain (setChan u id { c with lastTrain := s.now, retrain := none }) id (s.now - r.start)
        exec (.retrainComplete cellar ch rdT wrT rdV wrV) s =
          .next (channelSums (withField (setChState v id (if regBits v st 4 4 = 1 then 2 else r.prior)) st 4 4 0) cellar)) ∧
      (¬(20 ≤ rdT ∧ 20 ≤ wrT ∧ 24 ≤ rdV ∧ 24 ≤ wrV) →
        let v := regCount u (rMemChRetrain cellar ch) 49 48 1
        (regBits v (rMemChRetrain cellar ch) 49 48 < 3 → exec (.retrainComplete cellar ch rdT wrT rdV wrV) s = .next v) ∧
        (3 ≤ regBits v (rMemChRetrain cellar ch) 49 48 →
          exec (.retrainComplete cellar ch rdT wrT rdV wrV) s = .next (failChannel (recordRetrain v id (s.now - r.start)) id 0))))

/-- Heat of a cellar, floating moves and packed blocks (R154, R162, R178, Table 7.3): a reading, in 0.0625 °C, sets the temperature, its die, the peak and the flags
with their hysteresis, quiesces above 105 °C while the main domains run and trips at 125 °C; the move in progress, once no retrain holds its copying, copies the
granules it still has and takes its new backing; a packed block held unpacked, whose ranges no retrain holds, is written back. -/
def Obligations.CellarConditionsComplete : Prop :=
  ∀ (s : State),
    (∀ cellar temp die : Nat, cellar < 20 →
      let t := toSigned 12 temp
      let a := rCelTemp cellar
      let u := withField (withField s a 11 0 temp) a 15 12 die
      let v := regPeakSigned u a 43 32 temp
      let w := if 16 * 85 < t then withField v a 16 16 1 else if t ≤ 16 * 82 then withField v a 16 16 0 else v
      let h := noteHeat (if 16 * 95 ≤ t then withField w a 17 17 1 else if t < 16 * 92 then withField w a 17 17 0 else w)
      (16 * 125 ≤ t → exec (.cellarTempReading cellar temp die) s = .next (thermalTrip h (cellar / 2))) ∧
      (16 * 105 < t → t < 16 * 125 → quiesced h cellar = false → Powered s → exec (.cellarTempReading cellar temp die) s = .next (quiesce h cellar)) ∧
      (t ≤ 16 * 105 → exec (.cellarTempReading cellar temp die) s = .next h)) ∧
    (Powered s →
      (∀ entry : Nat, s.cel.moves.head? = some entry → regBits s (rCelFloatA entry) 44 44 = 1 →
        let k := regBits s (rCelFloatA entry) 60 45
        let u := copyGranules s entry k (floatUnits s entry - k)
        let a := rCelFloatA entry
        let b := rCelFloatB entry
        moveWaits s entry k = false →
        let v := withField u a 38 36 (regBits u b 42 40)
        let v := withField v a 43 39 (regBits u b 47 43)
        let v := withField v b 19 0 (regBits u b 39 20)
        let v := withField v a 60 45 (floatUnits v entry)
        let v := withField v a 44 44 0
        let v := withField v b 48 48 0
        exec (.floatMoveComplete entry) s = .next { v with cel := { v.cel with moves := v.cel.moves.drop 1, moveAt := v.now } }) ∧
      (∀ slot p, smGet none s.cel.packs slot = some p → (∀ q ∈ blockRanges s p.desc p.j, accessWaits s q.1 q.2 = false) →
        exec (.packedBlockWriteback slot) s = .next (packWriteback s p)))

/-! ### Larders: gathers, scatters, versions, migration, prefetch -/

/-- Preparation and prefetch (R192, R193, R241): a seventeenth list is dropped with PREP_OVERRUN and any other queued, its STATE 0 (log 81); the preparation in
progress ends no earlier than its planned cycle, and the next begins then; a prepared list of the coming step, of a sound descriptor and row map, is queued for
prefetch while fewer than 16 are in progress, and any other is refused with PREFETCH_REFUSED, a malformed row map with TABLE_INVALID as well. -/
def Obligations.PreparationsComplete : Prop :=
  ∀ (s : State) (floor addr : Nat), Powered s → floor < 10 →
    let l := getLarder s floor
    let list := addr / 64 * 64
    let out := regBits s (rLdrPrepOut floor) 63 6 * 64
    let d := tableDesc s (memNat s list 2)
    let m := rowMapOf s d
    (l.preps.length < 16 →
      let u := (sendBytes s (out + 2) (zeros 1) (unitLdr floor)).1
      exec (.ldrPrepSubmit floor addr) s = .next (larderRegs (setLarder u floor { l with preps := l.preps ++ [(list, out, u.now)] }) floor)) ∧
    (16 ≤ l.preps.length →
      let u := withField (noteFetch s list 64 (unitLdr floor)) (rLdrPrepStatus floor) 5 5 1
      exec (.ldrPrepSubmit floor addr) s = .next (ldrFault u floor codePrepOverrun (memNat s list 2))) ∧
    (∀ a o t rest, l.preps = (a, o, t) :: rest → t + prepCycles (memNat s (a + 4) 4) ≤ s.now →
      let next := match rest with | (a', o', _) :: r => (a', o', s.now) :: r | [] => []
      exec (.prepComplete floor) s =
        .next (latchIrq (larderRegs (prepare (modLarder s floor (fun l => { l with preps := next })) floor a o) floor) (16 * (floor + 3) + 1))) ∧
    (let u := noteFetch s list 64 (unitLdr floor)
     let good := regBits u (rLdrPfStatus floor) 4 0 < 16 ∧ memNat u (list + 2) 1 = 1 ∧ memNat u (list + 8) 8 = stepNo u + 1 ∧ d.ok = true ∧ m.ok = true
     (good →
      let n := memNat s (list + 4) 4
      let rows := listRows u list 0 n
      let home := (rows.zipIdx.filter (fun x => decide ((resolve u d m (curSlot u d) x.1).home = rank u))).map (fun x => x.2)
      let v := rows.foldl (fun s x => countProbe s floor d m (curSlot u d) x) (noteFetch u (list + 0x40) (16 * n) (unitLdr floor))
      exec (.prefetchSubmit floor addr) s = .next (larderRegs (modLarder v floor (fun l => { l with prefetches := l.prefetches ++
        [{ list := list, buf := regBits u (rLdrPfBuf floor) 63 6 * 64, table := memNat s list 2, step := stepNo u + 1, homeTodo := home }] })) floor)) ∧
     (¬good →
      let v := ldrFault (withField u (rLdrPfStatus floor) 5 5 1) floor codePrefetch (memNat s list 2)
      exec (.prefetchSubmit floor addr) s =
        .next (if d.ok = true ∧ m.ok = false then ldrStop v floor codeTableInvalid (memNat s list 2) else v)))

/-- Row reads (R197, R203, R242): an issued home row of a gather that nothing holds is read and finished; so is a prefetched copy that has arrived, and one that
failed or cannot be read fails the row; of a block being served a row is read and counted, and its last row sends the block's replies. -/
def Obligations.RowReadsComplete : Prop :=
  ∀ s : State, Powered s →
    (∀ (room tk i : Nat) (g : Gather) (r : RowJob),
      let f := (getRoom s room).floor
      let d := tableDesc s g.table
      (getLarder s f).gathers.find? (fun g => decide (g.room = room ∧ g.tk = tk)) = some g →
      g.rows.find? (fun r => decide (r.i = i) && r.issued) = some r →
      (∀ a, r.via = .home a → rowHeld s g.table a = false → accessWaits s a (tableWire d) = false →
        let x := readRow s f d a (tableWire d) r.row
        exec (.gatherRowReadDone room tk i) s = .next (finishRow x.1 f g r false (if x.2.2 then some x.2.1 else none))) ∧
      (∀ p, r.via = .copy → prefetchOf (getLarder s f) g.prep = some p →
        let a := pfAddr p d (g.first + i)
        let e := fetchBytes s a 8 (unitLdr f)
        let x := fetchBytes s a (8 + tableWire d) (unitLdr f)
        accessWaits s a (pfEntry d) = false →
        ((e.2.2 ≠ 0 ∨ nbits (leNat e.2.1) 57 56 = 3) → exec (.gatherRowReadDone room tk i) s = .next (finishRow e.1 f g r true none)) ∧
        (e.2.2 = 0 → nbits (leNat e.2.1) 57 56 = 2 →
          exec (.gatherRowReadDone room tk i) s = .next (finishRow x.1 f g r true (if x.2.2 = 0 then some (x.2.1.drop 8) else none))))) ∧
    (∀ (floor k e a : Nat) (b : Serve) (r : ServeRow),
      let d := tableDesc s b.table
      (getLarder s floor).serves[k]? = some b → b.rows[e]? = some r → r.addr = some a → r.issued = true → r.read = none →
      rowHeld s b.table a = false → accessWaits s a (tableWire d) = false →
      let x := readRow s floor d a (tableWire d) r.row
      let t := countLoad (regCount x.1 (rLdrStatServed floor) 47 0 1) floor 2 b.table r.row
      let b' := { b with rows := listSet b.rows e { r with read := some (x.2.2, if x.2.2 then x.2.1 else []) } }
      (b'.rows.all (fun r => r.read.isSome) = true → exec (.serveRowReadDone floor k e) s =
        .next (larderRegs (sendReplies (modLarder t floor (fun l => { l with serves := l.serves.eraseIdx k })) floor b') floor)) ∧
      (b'.rows.all (fun r => r.read.isSome) = false → exec (.serveRowReadDone floor k e) s =
        .next (larderRegs (modLarder t floor (fun l => { l with serves := listSet l.serves k b' })) floor)))

/-- Transfers of rows (R203, R204, R207, R238, R318, R358): the first copy of a sound transfer of its kind, a record or a migrated row once nothing holds the place
it goes to, is taken by the destination floor, which remembers it;
a record that is malformed is refused with STATUS FORMAT and remembered so. -/
def Obligations.RowTransfersComplete : Prop :=
  ∀ (s : State) (x : Sys2Proof.Transfer), Powered s → Fresh s x →
    (x.kind = 3 → exec (.indexReceive x) s = .next (larderRegs (remembered (acceptIndex s x) x) x.dfloor)) ∧
    (x.kind = 4 → exec (.replyReceive x) s =
      .next (larderRegs (delivered (replyRows s x.dfloor (tableWire (tableDesc s (leNat (x.data.take 2))))
        (leNat ((x.data.drop 2).take 2)) (x.data.drop 32)) x) x.dfloor)) ∧
    (x.kind = 5 → queuesWait s x.data.length = false → exec (.scatterReceive x) s =
      .next (remembered (queueAll x.dfloor (splitRecords s (x.data.length + 1) x.data) s) x)) ∧
    (x.kind = 6 → landingWaits s = false → exec (.migrateReceive x) s = .next (remembered (match migrateRecords x.dfloor (x.data.length + 1) x.data s with
      | some t => (t, some 0)
      | none => (s, some stFormat)) x))

/-- Version commands (R226 to R230): the block is executed when its OP is the command's and the descriptor, the row map and the version slots can be read: a
LOAD into the first free slot with a number that exceeds all and ranges that fit, READY of a loading slot, SWITCH and BIND of one that is ready, UNBIND of one that
is referenced, DISCARD of one that is not; its STATUS is written last, 1 done or 2 refused. -/
def Obligations.VersionCommandsComplete : Prop :=
  ∀ (s : State) (addr : Nat), Powered s →
    let c := verCmdAt s addr
    let d := tableDesc s c.table
    let m := rowMapOf s d
    let done (t : State) : Host.Outcome State Fault Refusal := .next (writeNat (verSums t) (addr + 0x3F) 1 1)
    d.ok = true → m.ok = true → (fetchBytes s d.versions 320 (unitLdr 0)).2.2 = 0 →
    (∀ v, c.op = 1 → (upTo 4).find? (fun v => decide (verState s d v = 0) && !(justFreed s d v)) = some v → loadFits s d m c = true →
      exec (.versionLoad addr) s = done (loadVersion s d m c v)) ∧
    (∀ v, c.op = 2 → slotOf s d c.version [1] = some v → exec (.versionReady addr) s = done (setVerState s d v 2)) ∧
    (∀ v, c.op = 3 → slotOf s d c.version [2] = some v →
      exec (.versionSwitchRequest addr) s = done { s with ldr := { s.ldr with switch := some (c.table, c.version) } }) ∧
    (∀ v, c.op = 4 → slotOf s d c.version [2, 3] = some v → exec (.versionBind addr) s = done (setVerRefs s d v (verRefs s d v + 1))) ∧
    (∀ v, c.op = 5 → (upTo 4).find? (fun v => decide (verNumber s d v = c.version) && decide (verState s d v ≠ 0) && decide (0 < verRefs s d v)) = some v →
      exec (.versionUnbind addr) s = done (setVerRefs s d v (verRefs s d v - 1))) ∧
    (∀ v, c.op = 6 → slotOf s d c.version [1, 2] = some v → verRefs s d v = 0 → s.ldr.switch ≠ some (c.table, c.version) →
      exec (.versionDiscard addr) s = done (setVerState s d v 0)) ∧
    (verEffect s d m c = none →
      (c.op = 1 → exec (.versionLoad addr) s = .next (writeNat s (addr + 0x3F) 1 2)) ∧
      (c.op = 2 → exec (.versionReady addr) s = .next (writeNat s (addr + 0x3F) 1 2)) ∧
      (c.op = 3 → exec (.versionSwitchRequest addr) s = .next (writeNat s (addr + 0x3F) 1 2)) ∧
      (c.op = 4 → exec (.versionBind addr) s = .next (writeNat s (addr + 0x3F) 1 2)) ∧
      (c.op = 5 → exec (.versionUnbind addr) s = .next (writeNat s (addr + 0x3F) 1 2)) ∧
      (c.op = 6 → exec (.versionDiscard addr) s = .next (writeNat s (addr + 0x3F) 1 2)))

/-! ### Updates and collectives -/

/-- Updates (R212, R238, R281, R282): a cellar's engine that no retrain holds finishes no earlier than T_cue after the close release, and the copies of its
migrating rows go out; a reduced slice reaches its owner's engine after the earlier ones of its collective, once its blocks have buffers, and its wait for them
is counted; the block unit processes the block at the head of its queue C_blk cycles after it could begin.
Collective transfers (R316 to R319, R325): a frame of another step's all-gather, or a direct partial that disagrees, stops the step; a direct partial is kept,
or dropped and counted where its collective has closed without it; a frame of a live collective enters it, and one of a collective that is not bound yet is
kept for it. -/
def Obligations.UpdatesComplete : Prop :=
  (∀ s : State, Powered s →
     (∀ cellar t : Nat, cellar < 20 → s.ldr.closed = some t → cellar ∉ s.ldr.cellarsDone → t + tCue s (takenRecords s cellar) ≤ s.now → engineWaits s cellar = false →
       exec (.cellarUpdateComplete cellar) s =
         .next (sendCopies (runEngine s cellar) (fun r => decide (rowCellar (runEngine s cellar) r.from_ = cellar)))) ∧
     (∀ (k : Nat) (q : Delivery) (t : State), s.den.queue[k]? = some q → q.at_ ≤ s.now → s.seq.stopped = false →
       (∀ p ∈ s.den.queue.take k, p.cid ≠ q.cid) → (if q.vals.isEmpty then some s else takeSlice s q) = some t →
       let wait := match q.waitFrom with | some c => s.now - c | none => 0
       let u := dropDelivery (setDen t q.floor { getDen t q.floor with bufWait := (getDen t q.floor).bufWait + wait }) k
       exec (.sliceDeliver k) s = .next (if q.last then collDone u q.floor q.tensor else u)) ∧
     (∀ (floor : Nat) (r : ReadyBlock) (rest : List ReadyBlock) (d : DenseDesc), (getDen s floor).ready = r :: rest →
       denseDesc s floor r.tensor = some d → max (getDen s floor).blkFree r.since + blockCost s d ≤ s.now → s.seq.stopped = false →
       exec (.blockProcessComplete floor) s = .next (processBlock s floor d r.blk))) ∧
  (∀ (s : State) (x : Sys2Proof.Transfer), Powered s → Fresh s x → x.kind = 7 →
     let stale := argNat x 0 1 = 1 ∧ x.step ≠ stepNo s
     let bad := s.col.live.any (fun c => decide (c.floor = x.dfloor ∧ c.tensor = argNat x 2 2 ∧ c.group = argNat x 4 2) && reducing c.kind && !(frameAgrees c x))
     let gone := partialDropped s x.dfloor (argNat x 2 2) (argNat x 4 2) x.srank x.step
     (stale → exec (.collectiveReceive x) s = .next (delivered (collStop s x.dfloor codeShardVersion (argNat x 2 2) x.srank) x)) ∧
     (argNat x 0 1 = 3 → bad = true → exec (.collectiveReceive x) s = .next (delivered (collStop s x.dfloor codeCollMismatch (argNat x 2 2) x.srank) x)) ∧
     (argNat x 0 1 = 3 → bad = false → gone = true →
       exec (.collectiveReceive x) s = .next (delivered (dropPartial s x.dfloor (argNat x 2 2) x.srank) x)) ∧
     (argNat x 0 1 = 3 → bad = false → gone = false → exec (.collectiveReceive x) s = .next (delivered { s with col := { s.col with partials := s.col.partials ++ [{
       floor := x.dfloor, tensor := argNat x 2 2, group := argNat x 4 2, pos := argNat x 12 2, rank := x.srank, origin := x.step,
       counts := argNat x 6 2, nslices := argNat x 8 4, wire := x.wire, exp := toSigned 8 x.exp, data := x.data }] } } x)) ∧
     (¬stale → argNat x 0 1 ≠ 3 →
       (∀ c, s.col.live.find? (fun c => frameFor c x) = some c → exec (.collectiveReceive x) s = .next (delivered (frameIn s c x) x)) ∧
       (s.col.live.find? (fun c => frameFor c x) = none →
         exec (.collectiveReceive x) s = .next (delivered { s with col := { s.col with early := s.col.early ++ [x] } } x))))

/-! ### The fabric's links and transfers -/

/-- Lanes and links (R350, R351, R353, Table 14.1): a bad lane of an active link is replaced by the spare, and a second one takes the link
down; SPARE_NOW moves a lane, RETRAIN of an enabled link retrains it and of another stays set; a training that succeeds brings
the link up with lane 4 as its spare and its partner's credits, a third failure in succession fails it; no acknowledgement for 2^20 cycles takes it down. -/
def Obligations.LinksComplete : Prop :=
  ∀ (s : State) (link : Nat), Powered s → link < 50 →
    let k := getLink s link
    let st := rLnkState link
    let ctl := rLnkCtrl link
    let spared (lane pause : Nat) : State :=
      let u := fabFault (withField s st 5 3 lane) codeLaneSpared link [(link, 2), (lane, 1)]
      setLink u link { getLink u link with pause := u.now + pause }
    (linkState s link = 2 →
      (∀ lane : Nat, regBits s st 5 3 = 7 → lane < 4 →
        exec (.laneSpare link lane) s = .next (spared lane 180) ∧ exec (.laneLossOfLock link lane) s = .next (spared lane 2600)) ∧
      (∀ lane : Nat, regBits s st 5 3 ≠ 7 → lane ≠ regBits s st 5 3 → lane < 5 →
        exec (.laneSpare link lane) s = .next (linkFails s link) ∧ exec (.laneLossOfLock link lane) s = .next (linkFails s link))) ∧
    (regBits s ctl 5 3 < 4 → regBits (withField s ctl 2 2 0) st 5 3 = 7 →
      exec (.spareNow link) s = .next (spareLane (withField s ctl 2 2 0) link (regBits s ctl 5 3) 180)) ∧
    (regBits s ctl 0 0 = 1 → exec (.linkRetrain link) s = .next (linkDown (withField s ctl 1 1 0) link 1)) ∧
    (regBits s ctl 0 0 = 0 → exec (.linkRetrain link) s = .next (withField s ctl 1 1 1)) ∧
    (linkState s link = 2 → k.acked < k.sent → k.lastAck + 2 ^ 20 ≤ s.now → exec (.linkAckTimeout link) s = .next (linkDown s link 1)) ∧
    (∀ c0 c1 c2 : Nat, linkState s link = 1 →
      let up := withField (withField (setLinkState s link 2) st 15 8 0) st 5 3 7
      let n := regBits s st 15 8 + 1
      exec (.linkTrainComplete link true c0 c1 c2) s =
        .next (pumpLink (reroute (setLink up link { cr0 := c0, cr1 := c1, cr2 := c2, lastAck := up.now }) 50) link) ∧
      (n < 3 → exec (.linkTrainComplete link false c0 c1 c2) s = .next (withField s st 15 8 n)) ∧
      (3 ≤ n → exec (.linkTrainComplete link false c0 c1 c2) s = .next (linkFails (withField s st 15 8 (min 255 n)) link)))

/-- Flits (R353 to R356, R364): on an active link a flit that fails its check or FEC is refused and asked for again; a control flit gives acknowledgements and
credits; a sound flit of another job is counted, the first recorded; one for this rank joins its transfer; a NAK replays, and more than 16 replays of one flit
take the link down. -/
def Obligations.FlitsComplete : Prop :=
  ∀ (s : State) (link : Nat), Powered s → link < 50 → linkState s link = 2 →
    let k := getLink s link
    (∀ fec, exec (.flitReceive link (.bad fec)) s = .next (refuseFlit s link fec)) ∧
    (∀ e0 e1 e2 e3 e4 : Nat, exec (.flitReceive link (.symbols [e0, e1, e2, e3, e4])) s =
      .next ([(0, e0), (1, e1), (2, e2), (3, e3), (4, e4)].foldl (fun t e => regCount t (rLnkLane link) (8 * e.1 + 7) (8 * e.1) e.2)
        (regCount s (rLnkFec link) 39 0 (e0 + e1 + e2 + e3 + e4)))) ∧
    (∀ acked c0 c1 c2 : Nat, exec (.flitReceive link (.control acked c0 c1 c2)) s = .next (pumpLink (setLink s link { k with
      acked := max k.acked (min acked k.sent), lastAck := s.now, cr0 := k.cr0 + c0, cr1 := k.cr1 + c1, cr2 := k.cr2 + c2 }) link)) ∧
    (∀ b : List Sys2Proof.Byte,
      let u := setLink s link { k with received := k.received + 1, nakOut := false }
      let n (o w : Nat) : Nat := leNat ((b.drop o).take w)
      let v := regCount u rFabStat 47 32 1
      (flitOk b = false → exec (.flitReceive link (.bytes b)) s = .next (refuseFlit s link false)) ∧
      (flitOk b = true → n 5 1 = 0x10 →
        (n 6 2 ≠ regBits u rFabJob 15 0 → exec (.flitReceive link (.bytes b)) s =
          .next (if v.fab.foreign then v else fabFault { v with fab := { v.fab with foreign := true } } codeForeign link [(n 2 2, 2)])) ∧
        (n 6 2 = regBits u rFabJob 15 0 → n 0 2 = rank u → exec (.flitReceive link (.bytes b)) s = .next (takeFlit u b)))) ∧
    (∀ seq : Nat, k.acked ≤ seq → seq < k.sent →
      let n := if k.replaySeq = seq then k.replays + 1 else 1
      let u := regCount s (rLnkRetry link) 31 0 (k.sent - seq)
      (n ≤ 16 → exec (.nakReceive link seq) s = .next (setLink u link { k with replaySeq := seq, replays := n })) ∧
      (16 < n → exec (.nakReceive link seq) s = .next (linkDown u link 1)))

/-- Transfers (R357 to R359, R361, R363): acknowledgements are taken one by one; a transfer unacknowledged for the timeout is sent again whole, and after its retries is
unreachable; an XID serves again after its life, and a transfer that waits is sent under it; a SEND reaches its slot; a peer write admitted by an entry lands
unchanged, and any other is denied and writes nothing. -/
def Obligations.TransfersComplete : Prop :=
  ∀ s : State, Powered s →
    (∀ acks, exec (.ackReceive acks) s = .next (acks.foldl ackOne s)) ∧
    (∀ (floor xid : Nat) (x : Xfer), outXfer s floor xid = some x → x.lastSent + e2eTimeout s ≤ s.now →
      let y := putOnLink s { x with tries := x.tries + 1 }
      (x.tries ≤ regBits s rFabE2e 18 16 → exec (.e2eTimeout floor xid) s =
        .next (pumpLink { s with fab := { s.fab with out := modifyFirst (fun z => decide (z = x)) (fun _ => y) s.fab.out } } y.link)) ∧
      (regBits s rFabE2e 18 16 < x.tries → exec (.e2eTimeout floor xid) s = .next (xferFails (dropXfer s floor xid) x codeUnreachable))) ∧
    (∀ floor xid : Nat, xid < 16384 →
      let k := floor * 16384 + xid
      let u := { s with fab := { s.fab with xids := smSet 0 s.fab.xids k 0, done := s.fab.done.filter (fun d => decide (s.now < d.expiry)) } }
      smGet 0 s.fab.xids k ≠ 0 → smGet 0 s.fab.xids k ≤ s.now → outXfer s floor xid = none →
      (u.fab.out.find? (fun x => x.waiting && decide (x.t.sfloor = floor)) = none → exec (.xidRelease floor xid) s = .next u) ∧
      (∀ x, u.fab.out.find? (fun x => x.waiting && decide (x.t.sfloor = floor)) = some x →
        let r := startXfer u x
        exec (.xidRelease floor xid) s =
          .next (pumpLink { r.1 with fab := { r.1.fab with out := modifyFirst (fun z => decide (z = x)) (fun _ => r.2) r.1.fab.out } } r.2.link))) ∧
    (∀ x, Fresh s x → x.kind = 1 → sendWaits s x = false → exec (.sendReceive x) s = .next (remembered (receiveSend s x) x)) ∧
    (∀ x, Fresh s x → x.kind = 2 →
      let a := argNat x 0 8
      accessWaits s a x.data.length = false →
      ((upTo 64).any (permits s x.srank a x.data.length) = true →
        exec (.peerWriteReceive x) s = .next (delivered (noteWritten (sendBytes s a x.data (unitId 5 x.dfloor)).1 a x.data.length) x)) ∧
      ((upTo 64).any (permits s x.srank a x.data.length) = false →
        exec (.peerWriteReceive x) s = .next (remembered (fabFault s codePeerDenied (5 * x.dfloor) [(x.srank, 2), (a, 8)], some 1) x)))

/-! ### The Porch and host sessions -/

/-- RDMA and SENDs of a session (R379, R382, R383, R389, R390, R392): a packet marked CE sends a CNP first; under the Window key a write or read inside the Window is
placed or answered once nothing holds the bytes or an earlier request of the queue pair; under the Letterbox key a write reaches the session's slots and doorbells and a read its records; any other key or range is NAKed; 128 B sent
are a command slot of the session's lowest queue, whose doorbell they ring. -/
def Obligations.RdmaCompletes : Prop :=
  ∀ (s : State) (qp k va : Nat) (ce : Bool), Powered s → qpSession s qp = some k →
    let u := noteCe s qp ce
    sessState u k = 1 → (∀ h ∈ u.por.held, h.qp ≠ qp) →
    let wkey := regBits u (rWinKeys k) 31 0
    let lkey := regBits u (rWinKeys k) 63 32
    (∀ bs : List Sys2Proof.Byte,
      (wkey ≠ 0 →
        (∀ a, windowAddr u k va bs.length = some a → accessWaits u a bs.length = false → exec (.rdmaWrite qp wkey va bs ce) s = .next (windowWrite u qp k a bs)) ∧
        (windowAddr u k va bs.length = none → exec (.rdmaWrite qp wkey va bs ce) s = .next (rangeNak u qp k va))) ∧
      (lkey ≠ 0 → lkey ≠ wkey → exec (.rdmaWrite qp lkey va bs ce) s = .next (letterboxWrite u qp k va bs)) ∧
      (∀ key, key ≠ wkey → key ≠ lkey → exec (.rdmaWrite qp key va bs ce) s = .next (rangeNak u qp k va))) ∧
    (∀ n : Nat,
      (wkey ≠ 0 →
        (∀ a, windowAddr u k va n = some a → accessWaits u a n = false → shardHeld u a n = false → exec (.rdmaRead qp wkey va n ce) s =
          .next (porchOut (fetchBytes u a n (unitId 7 k)).1 (.data qp (fetchBytes u a n (unitId 7 k)).2.1))) ∧
        (windowAddr u k va n = none → exec (.rdmaRead qp wkey va n ce) s = .next (rangeNak u qp k va))) ∧
      (lkey ≠ 0 → lkey ≠ wkey → ∀ bs, letterboxRead u k va n = some bs → exec (.rdmaRead qp lkey va n ce) s = .next (porchOut u (.data qp bs))) ∧
      (∀ key, key ≠ wkey → key ≠ lkey → exec (.rdmaRead qp key va n ce) s = .next (rangeNak u qp k va))) ∧
    (∀ (bs : List Sys2Proof.Byte) (q : Nat), bs.length = 128 → (upTo 16).find? (ownsQueue u k) = some q →
      let seq := cmdNat bs 4 4
      (lbxOpen u = true → exec (.roceSend qp bs ce) s =
        .next (porchOut (ringProducer (lbxPut u (q * 0x8000 + (seq % 256) * 0x80) bs) q ((seq + 1) % 2 ^ 32)) (.ack qp))) ∧
      (lbxOpen u = false → exec (.roceSend qp bs ce) s = .next (porchOut u (.ack qp))))

/-- Congestion, retries and errors of a queue pair (R371, R372, R374, R381), with exact rates (log 88): a CNP cuts the rate and raises alpha, a timer without one raises the
rate again; an unacknowledged request is sent again until the retries run out; receiver-not-ready arms a retry, any other NAK is the error state; a notice's
first write acknowledged issues the write of its MARK, the second delivers it. -/
def Obligations.QueuePairsComplete : Prop :=
  ∀ (s : State) (n : Nat) (q : Qp), Powered s → getQp s n = some q →
    let st := rPrcStat q.port
    let g := ccG s q.port
    exec (.cnpReceive n) s = .next (setQp (regCount s st 47 32 1) n (some { q with
      target := q.rate, rate := max (q.rate * (1 - q.alpha / 2)) ((regBits s (rPrcCc q.port) 47 32 * 1000 : Nat) : Rat)
      alpha := (1 - g) * q.alpha + g, cnt := 0, ccAt := s.now })) ∧
    (q.ccAt + 1300 * regBits s (rPrcCc q.port) 31 24 ≤ s.now →
      let t := if 5 < q.cnt + 1 then min (q.target + ((regBits s (rPrcCc q.port) 23 8 : Nat) : Rat)) 800000 else q.target
      exec (.ccTimer n) s = .next (setQp s n (some { q with alpha := (1 - g) * q.alpha, cnt := q.cnt + 1, target := t, rate := (q.rate + t) / 2, ccAt := s.now }))) ∧
    (∀ t, q.sentAt = some t → q.err = false → 10 * t + 53248 * 2 ^ q.texp ≤ 10 * s.now →
      (q.tries < q.retry → exec (.roceAckTimeout n) s =
        .next (porchOut (setQp (regCount s st 63 48 1) n (some { q with tries := q.tries + 1, sentAt := some s.now })) (.resend n))) ∧
      (q.retry ≤ q.tries → exec (.roceAckTimeout n) s = .next (qpError (prcFault s q.port codeRetryOut [(n, 4)]) n))) ∧
    (q.tries < q.retry → exec (.roceNakReceive n true) s =
      .next (setQp s n (some { q with rnr := true, tries := q.tries + 1, sentAt := q.sentAt.map (fun _ => s.now) }))) ∧
    (q.retry ≤ q.tries → exec (.roceNakReceive n true) s = .next (qpError (prcFault s q.port codeRetryOut [(n, 4)]) n)) ∧
    exec (.roceNakReceive n false) s = .next (qpError s n) ∧
    (∀ (slot nseq : Nat) (w : Nat × Bool) (r : Region), (getSess s slot).writes.find? (fun w => decide (w.1 = nseq)) = some w → noticeRegion s slot = some r →
      (getSess s slot).qps.head? = some n →
      let others := (getSess s slot).writes.filter (fun v => decide (v.1 ≠ nseq))
      let u := setQp s n (some { q with tries := 0, rnr := false, sentAt := if others.isEmpty && w.2 then none else some s.now })
      (w.2 = true → exec (.noticeWriteAck slot nseq) s = .next (modSess u slot (fun e => { e with writes := others }))) ∧
      (w.2 = false → exec (.noticeWriteAck slot nseq) s =
        .next (modSess (qpSends u n (r.host + (nseq % (r.len / 64)) * 64 + 0x3F) (leBytes 1 ((nseq / (r.len / 64)) % 255 + 1))) slot
          (fun e => { e with writes := e.writes.map (fun v => if v.1 = nseq then (nseq, true) else v) }))))

/-- The Porch's ports (R369, R371 to R373, R374, R381, R484): an enabled port with an allowed pluggable comes up, with any other it reports PORCH_DOWN; a port that goes
down is recorded; service frames are answered and others dropped and counted; a key installed lets MACsec traffic through, and its exhaustion moves traffic
to the other association; a PFC frame of the port's priority pauses or resumes it. -/
def Obligations.PorchPortsComplete : Prop :=
  ∀ (s : State) (port : Nat), Powered s → port < 8 →
    let ctl := rPrcCtrl port
    let st := rPrcStatus port
    (regBits s ctl 0 0 = 1 →
      exec (.porchLinkUp port true) s = .next (checkKey (withField s st 0 0 1) port) ∧ exec (.porchLinkUp port false) s = .next (prcFault s port codePorchDown [])) ∧
    (regBits s st 0 0 = 1 →
      exec (.porchLinkDown port) s = .next (prcFault (withField s st 0 0 0) port codePorchDown []) ∧
      exec (.eapolFrame port true) s = .next (withField s st 1 1 1) ∧ exec (.eapolFrame port false) s = .next (checkKey s port)) ∧
    (portCarries s port = true →
      exec (.portServiceFrame port .service) s = .next (porchOut s (.service port)) ∧
      exec (.portServiceFrame port .other) s = .next (setPort s port { getPort s port with dropped := (getPort s port).dropped + 1 })) ∧
    (regBits s ctl 0 0 = 1 → regBits s st 0 0 = 1 →
      exec (.portServiceFrame port .badFcs) s = .next (regCount s (rPrcStat port) 15 0 1) ∧
      (regBits s ctl 5 5 = 1 → exec (.portServiceFrame port .unsecured) s = .next (regCount s (rPrcStat port) 31 16 1))) ∧
    (regBits s ctl 5 5 = 1 → regBits s st 1 1 = 1 → exec (.macsecRekey port) s = .next (setPort s port { getPort s port with sa := 1 - (getPort s port).sa })) ∧
    (∀ pause, regBits s ctl 1 1 = 1 →
      exec (.priorityFlowControlFrame port (regBits s ctl 4 2) pause) s = .next (setPort s port { getPort s port with paused := pause }))

/-- Doorbells (R392): while the Letterbox is open, a PRODUCER value ahead of P, modulo 2^32, and within 256 slots of C is P; a CQ_CONSUMER value not past the records
written is H; a RESUME of a stopped queue that equals C makes it idle. Any other value changes no pointer and is recorded.
Command slots (R391, R393): an idle queue with a slot to read and room for its record reads slot C mod 256; one that passes its check is taken, C and the state moving
on; a torn one is read again every 325 cycles, and the eighth failure stops the queue with a notice. -/
def Obligations.LetterboxQueuesComplete : Prop :=
  (∀ (s : State) (q v : Nat), Powered s → q < 16 → qOwned s q = true → lbxOpen s = true → v < 2 ^ 32 →
     (ahead (qP s q) v < 2 ^ 31 →
       (ahead (qC s q) v ≤ 256 → exec (.producerWrite q v) s = .next (withField s (rLbxPtr q) 63 32 v)) ∧
       (256 < ahead (qC s q) v → exec (.producerWrite q v) s = .next (lbxFault s q codeDoorbell v))) ∧
     (2 ^ 31 ≤ ahead (qP s q) v → exec (.producerWrite q v) s = .next s) ∧
     (ahead (qH s q) v ≤ ahead (qH s q) (qDone s q) → exec (.cqConsumerWrite q v) s = .next (withField s (rLbxCq q) 63 32 v)) ∧
     (ahead (qH s q) (qDone s q) < ahead (qH s q) v → exec (.cqConsumerWrite q v) s = .next (lbxFault s q codeDoorbell v)) ∧
     (qState s q = 2 →
       (v = qC s q → exec (.resumeWrite q v) s = .next (withField s (rLbxOwner q) 8 7 0)) ∧
       (v ≠ qC s q → exec (.resumeWrite q v) s = .next (lbxFault s q codeDoorbell v)))) ∧
  (∀ (s : State) (q : Nat), Powered s → mayConsume s q = true →
     let c := slotCmd s q
     ((getQueue s q).torn = none →
       (c.2 = true → exec (.commandConsume q) s = .next (takeCmd s q c.1)) ∧
       (c.2 = false → exec (.commandConsume q) s = .next (setQueue s q { getQueue s q with torn := some (0, s.now) }))) ∧
     (∀ k t : Nat, (getQueue s q).torn = some (k, t) → t + 325 ≤ s.now →
       (c.2 = true → exec (.commandReread q) s = .next (takeCmd (regCount s (rLbxStat q) 47 32 1) q c.1)) ∧
       (c.2 = false → k < 7 → exec (.commandReread q) s = .next (setQueue s q { getQueue s q with torn := some (k + 1, s.now) })) ∧
       (c.2 = false → 7 ≤ k →
         let u := withField (setQueue s q { getQueue s q with torn := none }) (rLbxOwner q) 8 7 2
         exec (.commandReread q) s = .next (sendNotice (lbxFault (regCount u (rLbxStat q) 63 48 1) q codeTorn (qC u q)) (qOwner u q) 5 q (qC u q)))))

/-! ### Travar's commands -/

/-- NOP, QUERY, REG_READ, REG_WRITE (R399, R400, Table 15.7): each ends with a completion record whose RESULT the table gives; QUERY 4 before a first commit is a free
value (log 3); a register access outside the region is COMMAND_FORMAT, one to a closed block or to a unit that does not answer is COMMAND_REFUSED, and any other,
misaligned ones among them (log 139), is an access of 64 bits of R8. -/
def Obligations.RegisterCommandsComplete : Prop :=
  ∀ (s : State) (q : Nat) (b : List Sys2Proof.Byte), Clocked s →
    let a := baseCtl + fld b 0 8
    (Executes s q 0x0001 [0, 1, 2] b → exec (.nop q) s = .next (finish s q 0 0 0)) ∧
    (Executes s q 0x0002 [0, 1, 2] b →
      (fld b 0 2 = 0 → exec (.query q) s = .next (finish s q 0 (stepNo s) 0)) ∧
      (fld b 0 2 = 1 → exec (.query q) s = .next (finish s q 0 (regGet s rSchState).toNat 0)) ∧
      (fld b 0 2 = 2 → exec (.query q) s = .next (finish s q 0 (regGet s rCelLive).toNat 0)) ∧
      (fld b 0 2 = 3 → exec (.query q) s = .next (finish s q 0 (if q = 16 then 0 else regBits s (rWinStageCtl (qOwner s q)) 63 48) 0)) ∧
      (fld b 0 2 = 4 → 0 < stepNo s → exec (.query q) s = .next (finish s q 0 (stepNo s - 1) 0)) ∧
      (fld b 0 2 = 4 → stepNo s = 0 →
        exec (.query q) s = .next (finish { s with freeCount := s.freeCount + 1 } q 0 (Sys2Proof.Config.freeWord s.freeCount).toNat 0)) ∧
      (4 < fld b 0 2 → exec (.query q) s = .next (formatCmd s q))) ∧
    (Executes s q 0x0003 [1, 2] b → inCtl a = true →
      (answers s a = true → exec (.regRead q) s = .next (finish (readCtl s a 8) q 0 (readCtl s a 8).lastRead.toNat 0)) ∧
      (answers s a = false → exec (.regRead q) s = .next (refuseCmd s q))) ∧
    (Executes s q 0x0004 [1] b → inCtl a = true →
      (a % 2 ^ 40 / 2 ^ 24 ∉ closedBlocks → answers s a = true →
        exec (.regWrite q) s = .next (finish (writeCtl s a 8 (BitVec.ofNat 64 (fld b 8 8))) q 0 0 0)) ∧
      (a % 2 ^ 40 / 2 ^ 24 ∈ closedBlocks ∨ answers s a = false → exec (.regWrite q) s = .next (refuseCmd s q))) ∧
    (inCtl a = false →
      (Executes s q 0x0003 [1, 2] b → exec (.regRead q) s = .next (formatCmd s q)) ∧
      (Executes s q 0x0004 [1] b → exec (.regWrite q) s = .next (formatCmd s q)))

/-- Session commands (R377, R378, R380, R381, R384, R400): OPEN_SESSION takes a session block, refuses what R378 refuses, and answers the slot's generation; CLOSE_SESSION
drops a session and its queues; REGISTER_REGION registers a notice region; WIN_MOVE moves the Window inside its bounds. -/
def Obligations.SessionCommandsComplete : Prop :=
  ∀ (s : State) (q : Nat) (b : List Sys2Proof.Byte), Clocked s →
    (Executes s q 0x0010 [1] b →
      let r := if q = 16 then (s, memBytes s payloadAt 256, if fld b 0 8 = 0 then 0 else 1) else fetchBytes s (fld b 0 8) 256 (unitId 10 0)
      r.2.2 = 0 → openBlockOk r.2.1 = true →
      (openRefused s (openBlock r.2.1) = false → sessionUnits s = true →
        let o := openSlot r.1 r.2.1
        exec (.openSession q) s = .next (if q = 16 then finish o.1 q 0 (fld o.2 0x90 2) 0 o.2
          else finish (sendBytes o.1 (fld b 0 8) o.2 (unitId 10 0)).1 q 0 (fld o.2 0x90 2) 0)) ∧
      (openRefused s (openBlock r.2.1) = true ∨ sessionUnits s = false → exec (.openSession q) s = .next (refuseCmd r.1 q))) ∧
    (Executes s q 0x0011 [0, 1, 2] b → fld b 0 1 < 64 → (queueRole s q = 1 ∨ fld b 0 1 = qOwner s q) →
      let k := fld b 0 1
      let t := (upTo 16).foldl (fun s n => if qOwned s n ∧ qOwner s n = k then closeQueue s n else s) (dropSession s k false)
      exec (.closeSession q) s = .next (finish (withField (withField t (rWinSess k) 1 0 0) (rWinSess k) 47 32 0) q 0 0 0)) ∧
    (Executes s q 0x0012 [0, 1, 2] b → fld b 20 1 = 1 → (∃ i < 9, fld b 8 8 = 4096 * 2 ^ i) →
      let rs := (getSess s (qOwner s q)).regions
      (rs.length < 4 → (∀ r ∈ rs, r.purpose ≠ 1) →
        exec (.registerRegion q) s = .next (finish (modSess s (qOwner s q) (fun e => { e with
          regions := rs ++ [{ host := fld b 0 8, len := fld b 8 8, rkey := fld b 16 4, purpose := 1 }] })) q 0 rs.length 0)) ∧
      ((∃ r ∈ rs, r.purpose = 1) → exec (.registerRegion q) s = .next (refuseCmd s q))) ∧
    (Executes s q 0x0013 [0, 1, 2] b →
      let k := qOwner s q
      let u := fld b 0 8 / unit64
      (fld b 0 8 % unit64 = 0 → regBits s (rWinBounds k) 14 0 ≤ u → u < regBits s (rWinBounds k) 30 16 → unit64 + fld b 0 8 ≤ stackBytes s →
        exec (.winMove q) s = .next (finish (withField s (rWinBase k) 40 26 u) q 0 (fld b 0 8) 0)) ∧
      (fld b 0 8 % unit64 ≠ 0 ∨ u < regBits s (rWinBounds k) 14 0 ∨ regBits s (rWinBounds k) 30 16 ≤ u →
        exec (.winMove q) s = .next (formatCmd s q)))

/-- Feeding a job (R385, R387, R388): SET_STAGING configures a slot while no job is loaded; an accepted BATCH locks its staging slot, is journalled and submits its
lists, and one whose lists wait goes on when it runs again; a batch that fails a check is refused with that check's code. Of a replayed step whose record has
not been read nothing is said here (log 159). -/
def Obligations.FeedingCommandsComplete : Prop :=
  ∀ (s : State) (q : Nat) (b : List Sys2Proof.Byte), Clocked s →
    (Executes s q 0x0020 [1] b →
      let k := fld b 0 1
      let part := fld b 1 1
      let parts := fld b 2 1
      let n := fld b 3 1
      let size := fld b 16 8
      k < 64 → parts ≤ 16 → part < parts → 2 ≤ n → n ≤ 16 → fld b 8 8 % 4096 = 0 → size % 4096 = 0 → size ≠ 0 → size / 4096 < 2 ^ 24 →
      (s.job.loaded = false → (sessState s k = 0 ∨ sessRole s k = 0) →
        let w := rWinStageCtl k
        let t := withField (withField (withField (withField (regSet (withField s (rWinStageBase k) 63 12 (fld b 8 8 / 4096)) w 0) w 23 0 (size / 4096)) w 28 24 n)
          w 35 32 part) w 40 36 parts
        exec (.setStaging q) s = .next (finish (modSess t k (fun e => { e with accepted := [] })) q 0 0 0)) ∧
      (s.job.loaded = true → exec (.setStaging q) s = .next (refuseCmd s q))) ∧
    (Executes s q 0x0021 [0] b →
      let k := qOwner s q
      let g := stagedAt s k (fld b 0 1)
      let step := fld b 8 8
      (∀ i, (getQueue s q).next = some i → exec (.batch q) s = .next (goOnBatch s q g step i)) ∧
      ((getQueue s q).next = none → s.job.loaded = true → g.k ≠ 0 → batchUnread s g step = false →
        let u := noteFetch s g.base (max 64 (memNat s (g.base + 0x10) 8)) (unitId 7 k)
        (batchCode s g step = 0 →
          let w := rWinStageCtl k
          let t := withField u w 63 48 (regBits u w 63 48 + 2 ^ g.slot)
          let t := journalAppend t 6 0 step (leBytes 1 k ++ leBytes 1 g.slot ++ zeros 6 ++ leBytes 8 (memNat t (g.base + 0x18) 8))
          exec (.batch q) s = .next (goOnBatch t q g step 0)) ∧
        (batchCode s g step ≠ 0 → exec (.batch q) s = .next (refuseBatch u q k g step (batchCode s g step)))))

/-- Job control (R124, R125, R341, R400, R418): JOB_LOAD, for an image that verifies and allocations that fit, places them and leaves the schedule LOADED, and otherwise
fails with the code of what failed; JOB_START of a loaded job with a journal ring opens the start barrier of its first phase, and with REPLAY_EN does so unless the
replayed job's record disagrees; JOB_STOP stops the step; JOB_UNLOAD clears the job; RESTORE
of an epoch the attic holds restores it once the module is cool; JOURNAL_SAFE raises SAFE. -/
def Obligations.JobCommandsComplete : Prop :=
  ∀ (s : State) (q : Nat) (b : List Sys2Proof.Byte), Clocked s →
    (∀ modules : Nat, Executes s q 0x0030 [1] b → fld b 0 8 % 64 = 0 → s.job.loaded = false → schState s ≠ 3 →
      let r := tryImage (mrSet (withField { s with seq := { s.seq with jobModules := modules } } rSchImage 63 6 (fld b 0 8 / 64)) 2 (zeros 64))
      exec (.jobLoad q modules) s = .next (if r.2 ≠ 0 then failCmd r.1 q r.2
        else match allocTable r.1 (fld b 8 8) (fld b 16 4) with
          | none => formatCmd s q
          | some es => match placement r.1 es (fld b 8 8) (fld b 16 4) with
            | none => failCmd s q codePlacement
            | some p => match denseLoadBad (takePlaced r.1 p (fld b 8 8)) 0 with
              | some x => failCmd (raiseFault s (rUpdFault x.1) 16 codeUpdateFormat (unitId 4 x.1) [(x.2, 2), (0, 8)]) q codeUpdateFormat
              | none => finish (takeJob r.1 p (fld b 8 8)) q 0 0 0)) ∧
    (Executes s q 0x0031 [1] b → s.job.loaded = true → schState s = 2 → stagingWhole s = true →
      (∀ p, fld b 0 1 = 0 → regBits s rJrnlCtl 23 0 ≠ 0 → phaseAt s 0 = some p → s.jrnl.read = [] →
        let u := regSet (withField s rReplay 0 0 0) rReplayUntil (BitVec.ofNat 64 (fld b 8 8))
        let v := withField (withField u rSchState 2 0 3) rReplay 1 1 0
        let t := openSync { v with seq := { v.seq with stopped := false, abort := none } } p.startSync 0 s.now
        exec (.jobStart q) s = .next (finish t q 0 (stepNo t) 0)) ∧
      (let t := startJob (regSet (withField s rReplay 0 0 (fld b 0 1)) rReplayUntil (BitVec.ofNat 64 (fld b 8 8)))
       fld b 0 1 = 1 → schState t = 3 → exec (.jobStart q) s = .next (finish t q 0 (stepNo t) 0))) ∧
    (Executes s q 0x0032 [1] b →
      (schState s = 3 → exec (.jobStop q) s = .next (finish (stopStep s) q 0 (stepNo s) 0)) ∧
      (schState s ≠ 3 → exec (.jobStop q) s = .next (refuseCmd s q))) ∧
    (Executes s q 0x0033 [1] b → s.job.loaded = true → schState s ≠ 3 → exec (.jobUnload q) s = .next (finish (unloadJob s) q 0 0 0)) ∧
    (∀ written, Executes s q 0x0034 [1] b → s.job.loaded = true → (schState s = 2 ∨ schState s = 4 ∨ schState s = 5) →
      (∀ e, s.att.epochs.find? (fun e => decide (e.num = fld b 0 8 ∧ e.rank = rank s)) = some e → restoreWaits s = false →
        exec (.restore q written) s = .next (restoreEpoch s q e written)) ∧
      (s.att.epochs.find? (fun e => decide (e.num = fld b 0 8 ∧ e.rank = rank s)) = none → exec (.restore q written) s = .next (refuseCmd s q))) ∧
    (Executes s q 0x0035 [1] b →
      let v := max (regGet s rJrnlSafe).toNat (fld b 0 8)
      exec (.journalSafe q) s = .next (finish (regSet s rJrnlSafe (BitVec.ofNat 64 v)) q 0 v 0))

/-- VERSION, MAPOUT, ATTEST, WRAP_CAK and the management channel (R182, R227, R462, R470, R471): a version command answers its STATUS; a map-out acts on its channel; a
quote, whose signature is a free value (log 3), goes to its address or into the reply; a wrapped entry follows in the reply of the management channel alone; a
request that authenticates is taken by queue 16, any other is recorded and answered. -/
def Obligations.SystemCommandsComplete : Prop :=
  ∀ (s : State) (q : Nat) (b : List Sys2Proof.Byte), Clocked s →
    (Executes s q 0x0040 [1] b → 1 ≤ fld b 0 1 → fld b 0 1 ≤ 6 →
      let c : VerCmd := { op := fld b 0 1, table := fld b 2 2, version := fld b 8 8, shard := fld b 0x10 8, overlay := fld b 0x18 8, census := fld b 0x20 8 }
      let d := tableDesc s c.table
      let m := rowMapOf s d
      (fetchBytes s d.versions 320 (unitLdr 0)).2.2 = 0 →
      exec (.version q) s = .next (match (if d.ok = true ∧ m.ok = true then verEffect s d m c else none) with
        | some t => finish (verSums t) q 0 1 0
        | none => finish s q 0 2 0)) ∧
    (Powered s → Executes s q 0x0041 [1] b → fld b 0 1 < 20 → fld b 1 1 < 32 →
      ∃ t, exec (.channelMapout (fld b 0 1) (fld b 1 1)) s = .next t ∧ exec (.mapout q) s = .next (finish t q 0 0 0)) ∧
    (Executes s q 0x0050 [1, 2] b → ∀ key, idSeed s = some key → regBits s rSecStatus 1 1 = 1 →
      let n := if fld b 0 8 = 0 then (s, (b.drop 16).take 64, 0) else fetchBytes s (fld b 0 8) 64 (unitId 16 0)
      let z := quote s key n.2.1
      let t := { n.1 with freeCount := n.1.freeCount + 1 }
      n.2.2 = 0 →
      (q = 16 → exec (.attest q) s = .next (finish t q 0 z.length 0 z)) ∧
      (q ≠ 16 → exec (.attest q) s = .next (if (sendBytes t (fld b 8 8) z (unitId 16 0)).2 = 0
        then finish (sendBytes t (fld b 8 8) z (unitId 16 0)).1 q 0 z.length 0 else formatCmd t q))) ∧
    (Executes s q 0x0051 [1] b →
      (q ≠ 16 → exec (.wrapCak q) s = .next (refuseCmd s q)) ∧
      (q = 16 → fld b 0 1 < 8 → ∀ key, wrapKey s = some key → exec (.wrapCak q) s =
        .next (finish s q 0 0 0 (wrapCakEntry key (confBytes s 0x18 8) ((b.drop 8).take 8) (fld b 0 1) ((b.drop 16).take 16) ((b.drop 32).take 32))))) ∧
    (∀ d : List Sys2Proof.Byte, 4 ≤ s.mgmt.stage → s.mgmt.service = false → regBits s rLbxCtrl 1 1 = 1 →
      (d.take 2 = ascii "MC" → fld d 2 1 = 0xFF → exec (.mgmtRequest d) s = .next (mgmtAnswer s [])) ∧
      (fld d 2 1 ≠ 0xFF →
        ((getQueue s 16).cmd = none → exec (.mgmtRequest d) s = .next (if mgmtAccepts s d = true then mgmtTakes s d else mgmtFails s d)) ∧
        (mgmtAccepts s d = false → exec (.mgmtRequest d) s = .next (mgmtFails s d))))

/-! ### The attic and epochs -/

/-- Epoch capture (R405, R406, R409, R410): the shadow copy takes the engine state, PLAIN and HELD ranges; the dense copy the DENSE ranges at the next commit; a range
that cannot be captured stops the step; an epoch whose chunks no retrain holds and whose records all have room in the export ring completes and is kept; the
storage host's TAIL frees the ring up to it and journals each replica, and one past the records placed is stored and does nothing else (log 140). -/
def Obligations.EpochsComplete : Prop :=
  ∀ s : State, Powered s →
    (s.att.active = true → s.att.shadowDone = false → rangesWait s 1 = false →
      let u := noteRanges s 1
      (∀ rs, captureRanges s 2 1 = some rs → exec .epochShadowCopyDone s = .next { u with att := { u.att with
        shadowDone := true, recs := u.att.recs ++ [attRec u 1 0 0 0 (engineBytes u)] ++ rs ++ heldRecords u } }) ∧
      (captureRanges s 2 1 = none → exec .epochShadowCopyDone s = .next (captureFails u))) ∧
    (s.att.active = true → s.att.shadowDone = true → s.att.denseDone = false → stepNo s = s.att.captured + 1 → rangesWait s 0 = false →
      let u := noteRanges s 0
      (∀ rs, captureRanges s 3 0 = some rs → exec .denseCopyDone s = .next { u with att := { u.att with denseDone := true, recs := u.att.recs ++ rs } }) ∧
      (captureRanges s 3 0 = none → exec .denseCopyDone s = .next (captureFails u))) ∧
    (s.att.active = true → s.att.shadowDone = true → s.att.denseDone = true → atticWrites s = true →
      (∀ o ∈ s.att.owed, accessWaits s o.addr o.len = false) →
      let num := regBits s rAttEpoch 31 0
      let u := captureAll s.att.owed.length s
      let base := chainBase u num u.att.full
      let list := ((recPlaces u u.att.ringHead u.att.recs).map (fun p => leBytes 8 p.1 ++ leBytes 4 p.2.ty ++ leBytes 4 p.2.id)).flatten
      let v := if u.att.recs.any (fun r => decide (r.ty = 8)) then u
        else { u with att := { u.att with recs := u.att.recs ++ [{ attRec u 8 0 0 0 list with base := base }] } }
      let w := placeRecords (v.att.recs.drop v.att.placed) v
      (w.att.placed < w.att.recs.length → exec .epochComplete s = .next w) ∧
      (w.att.recs.length ≤ w.att.placed →
        let z := keepEpoch w { num := num, step := w.att.captured, rank := rank w, full := w.att.full, base := base, recs := w.att.recs }
        let z := withField (withField z rAttEpoch 31 0 0) rAttLast 31 0 num
        exec .epochComplete s = .next (latchIrq { z with att := { z.att with active := false, patches := [], recs := [], placed := 0 } } 258))) ∧
    (∀ tail : Nat,
      let n := expSize s
      let taken := s.att.expTaken + (tail % n + n - regBits s rAttExportPtr 63 32 % n) % n
      let u := withField s rAttExportPtr 63 32 tail
      let done := s.att.exported.filter (fun x => decide (x.1 ≤ taken))
      let v := match done.getLast? with | some x => withField u rAttLast 63 32 x.2 | none => u
      let w := done.foldl (fun s x => journalAppend s 9 1 (epochStep s x.2) (leBytes 8 x.2 ++ zeros 8)) v
      ((n = 0 ∨ s.att.expPlaced < taken) → exec (.exportTailAdvance tail) s = .next u) ∧
      (n ≠ 0 → taken ≤ s.att.expPlaced → exec (.exportTailAdvance tail) s = .next { w with att := { w.att with
        expTaken := taken
        exported := w.att.exported.filter (fun x => decide (taken < x.1))
        epochs := w.att.epochs.map (fun e =>
          if done.any (fun x => decide (x.2 = e.num)) && decide (e.rank = rank w) then { e with replica := true } else e) } }))

/-- The attic's drives (R411, R412, R415 to R417, Table 16.4): a drive that answers has its completion counted, a media error repaired or recorded, a third abort
within a minute or a lost link or a fatal controller fails it; a poll records its health, wear once; a finished rebuild makes it a member again, one that
cannot complete fails the module; scrub, adoption, retirement and import act as the attic gives them. -/
def Obligations.DrivesComplete : Prop :=
  ∀ (s : State) (d : Nat), Powered s → d < 4 →
    let there := drvState s d ≠ 0 ∧ drvState s d ≠ 3
    let u := withField s (rDrvState d) 3 3 0
    let z := withField s (rDrvState d) 4 4 0
    (there → ∀ queue : Nat, queue < 16 →
      let u := { s with att := { s.att with cqs := smSet 0 s.att.cqs (16 * d + queue) (smGet 0 s.att.cqs (16 * d + queue) + 1) } }
      exec (.atticIoComplete d queue 0) s = .next u ∧ exec (.atticIoComplete d queue 1) s = .next (mediaError u d) ∧
      exec (.atticIoComplete d queue 2) s = .next (regCount u (rDrvErr d) 31 16 1)) ∧
    (there →
      let ts := (getDrive s d).timeouts.filter (fun t => decide (s.now ≤ t + 60 * 1300000000)) ++ [s.now]
      let u := setDrive (regCount s (rDrvErr d) 47 32 1) d { getDrive s d with timeouts := ts }
      exec (.atticCommandTimeout d) s = .next (if ts.length < 3 then u else driveFails u d)) ∧
    exec (.atticDriveLinkLost d) s = .next (driveFails (setDriveLink (setDrive s d { getDrive s d with lost := true }) d false) d) ∧
    exec (.atticControllerFatal d) s = .next (driveFails s d) ∧
    (there → ∀ used spare threshold warn : Nat,
      let a := rDrvHealth d
      let u := withField (withField (withField s a 7 0 used) a 15 8 spare) a 23 16 warn
      let v := if warn.testBit 3 ∧ drvState u d = 1 then withField u (rDrvState d) 2 0 4 else u
      ((used < 80 ∧ threshold ≤ spare) ∨ (getDrive v d).worn = true → exec (.atticHealthPoll d used spare threshold warn) s = .next v) ∧
      ((80 ≤ used ∨ spare < threshold) → (getDrive v d).worn = false → exec (.atticHealthPoll d used spare threshold warn) s =
        .next (attFault (setDrive v d { getDrive v d with worn := true }) codeWear d))) ∧
    (s.att.active = false → drvState s d = 1 →
      let u := { s with att := { s.att with scrubAt := s.now } }
      exec (.atticScrub d false) s = .next u ∧ exec (.atticScrub d true) s = .next (mediaError u d)) ∧
    (drvState s d = 2 →
      exec (.atticRebuildComplete d true) s = .next (withField s (rDrvState d) 2 0 1) ∧
      exec (.atticRebuildComplete d false) s = .next (moduleFailure (attFault s codeAtticUnavailable d) codeAtticUnavailable)) ∧
    (drvState u d ≠ 1 → drvState u d ≠ 2 → (getDrive u d).member = true → ∀ serial blocks : Nat,
        let v := withField (setDriveLink u d true) (rDrvCap d) 47 0 blocks
        exec (.atticAdopt d serial blocks false) s = .next (attFault u codeDriveFailed d) ∧
        exec (.atticAdopt d serial blocks true) s = .next (withField
          (setDrive v d { getDrive v d with serial := serial, lost := false, timeouts := [], worn := false }) (rDrvState d) 2 0 2)) ∧
    (drvState z d ≠ 0 → exec (.atticRetire d) s =
        .next (if (getDrive z d).member then checkArray (withField z (rDrvState d) 2 0 3) d else withField z (rDrvState d) 2 0 3)) ∧
    (∀ (addr : Nat) (rs : List AttRec), schState s ≠ 3 →
      let n := regBits s rAttImportLen 31 0 * 4096
      let r := readBytes s (addr / 4096 * 4096) n
      let u := latchIrq (noteFetch s (addr / 4096 * 4096) n (unitId 9 0)) 259
      r.2 = 0 → parseRun (rank u) (n / 4096 + 1) r.1 = some rs →
      let all := u.att.imports ++ rs
      let es := epochsOf (rank u) all
      exec (.atticImport addr) s = .next (es.foldl keepEpoch { u with att := { u.att with
        imports := all.filter (fun r => decide (r.ty ≠ 9) && !(es.any (fun (e : Epoch) => decide (e.num = r.epoch)))) } }))

/-! ### The management processor, interrupts, the recorder, freezes -/

/-- The management processor and check-value channels (R427 to R430, R443 to R446, R469): every watchdog that has reached zero is recorded and Travar restarts;
so does a double-bit error of the SRAM; a kick reloads the count; a reset core runs as RUN says; a computation with good settings on an idle channel starts and
ends no earlier than 8 B a cycle allow, any other is CHECK_CONFIG; SEC_MR3_EXT extends measurement register 3 with 64 bytes, as they are read (log 59). -/
def Obligations.ManagementProcessorCompletes : Prop :=
  ∀ s : State, Clocked s →
    (∀ core : Nat, core < 4 →
      exec (.watchdogKick core) s = .next (setWdog s core ((if wdogOn s core then s.now else 0) + 1300 * max 1 (regBits s (rMpWdog core) 23 0))) ∧
      (wdogOn s core = true → wdogEnd s core ≤ s.now → exec (.mpWatchdog core) s =
        .next (warmRestart (((upTo 4).filter (fun c => wdogOn s c && decide (wdogEnd s c ≤ s.now))).foldl
          (fun t c => mpFault (withField t rMpCoreStat (4 + c) (4 + c) 1) codeWatchdog c [(c, 2)]) s) codeWatchdog))) ∧
    (∀ word : Nat, word < sramBytes / 8 →
      let u := withField (regCount s rMpSram 39 24 1) rMpSram 59 40 word
      exec (.mpSramUncorrectable word false) s = .next (regCount s rMpSram 23 0 1) ∧
      exec (.mpSramUncorrectable word true) s = .next (warmRestart (mpFault u codeSramEcc 0 [(word, 4)]) codeSramEcc)) ∧
    (∀ mask, exec (.coreReset mask) s =
      .next ((upTo 4).foldl (fun t c => if mask.testBit c then withField t rMpCoreStat c c (regBits t rMpCoreCtl c c) else t) s)) ∧
    (∀ k n : Nat, k < 32 →
      let ws := (upTo 6).map (fun i => regGet s (rCvu k (8 * i)))
      let len := n % 2 ^ 32
      (regBits s (rCvu k 0x18) 16 16 = 0 → cvuBad (cvuCfg ws) = false → exec (.cvuGo k n) s = .next (setCvu (withField s (rCvu k 0x18) 16 16 1) k { getCvu s k with
        todo := len, ends := s.now + ceilDiv ((cvuFold ws).length + len) 8, set := ws })) ∧
      (regBits s (rCvu k 0x18) 16 16 = 1 ∨ cvuBad (cvuCfg ws) = true → exec (.cvuGo k n) s =
        .next (mpFault (withField (withField s (rCvu k 0x18) 18 18 1) (rCvu k 0x18) 47 32 codeCheckConfig) codeCheckConfig k [(k, 2)]))) ∧
    (∀ k : Nat, k < 32 → regBits s (rCvu k 0x18) 16 16 = 1 → (getCvu s k).ends ≤ s.now → exec (.cvuComplete k) s = .next (cvuEnd s k)) ∧
    (∀ addr : Nat,
      let r := fetchBytes s (addr / 64 * 64) 64 (unitId 10 0)
      exec (.secMr3Ext addr) s = .next (mrExtend r.1 3 r.2.1))

/-- The interrupt controller (R431 to R436, Table 17.2): a source's level is taken into its register, and what changes is assigned, delivered or withdrawn; a hold-off that expires
lets its group be assigned; a claim returns the most urgent assigned source, activates it and stacks its priority; an EOI of the source at the top of the
stack ends it, any other is counted as bad; software levels rise and fall; the management port's link change is source 217. -/
def Obligations.InterruptsComplete : Prop :=
  ∀ s : State, Clocked s →
    (∀ n : Nat, n < 1024 → regBits s (rIrqSrc n) 10 10 ≠ b2n (levelOf s n) →
      let u := putPending (withField s (rIrqSrc n) 10 10 (b2n (levelOf s n))) n
      exec (.irqLevelChange n) s = .next (reassign (if levelOf s n then fireSourceTriggers u n else u))) ∧
    (∀ g : Nat, g < 64 → regBits s (rIrqGrp g) 10 10 = 1 → smGet 0 s.irq.hold g ≤ s.now →
      exec (.irqHoldoffExpiry g) s = .next (reassign (withField { s with irq := { s.irq with hold := smSet 0 s.irq.hold g 0 } } (rIrqGrp g) 10 10 0))) ∧
    (∀ t : Nat, t < 4 →
      (claimable s t = none → exec (.irqClaim t) s = .next { s with lastRead := 0 }) ∧
      (∀ n, claimable s t = some n →
        let p := srcPrio s n
        let u := withField s (rIrqSrc n) 12 12 1
        let v := reassign (startHold (setStack u t ((n, p) :: irqStack s t)) (n / 16))
        exec (.irqClaim t) s = .next { v with lastRead := BitVec.ofNat 64 (n + 2 ^ 10 + p * 2 ^ 11) })) ∧
    exec (.irqClaim 4) s = .next { s with lastRead := 0 } ∧
    (∀ t n : Nat, t < 4 → n < 1024 →
      (∀ e st, irqStack s t = e :: st → e.1 = n → exec (.irqEoi t n) s = .next (endActive (setStack s t st) n)) ∧
      ((∀ e ∈ (irqStack s t).head?, e.1 ≠ n) → exec (.irqEoi t n) s = .next (badEoi s))) ∧
    (∀ n : Nat, n < 1024 → srcActive s n = true → srcTarget s n = 4 → exec (.irqEoi 4 n) s = .next (endActive s n)) ∧
    (∀ n : Nat, 512 ≤ n → n < 1024 →
      exec (.irqSwset n) s = .next (putLevel { s with irq := { s.irq with sw := setInsert n s.irq.sw } } n) ∧
      exec (.irqSwclr n) s = .next (putLevel { s with irq := { s.irq with sw := setErase n s.irq.sw } } n)) ∧
    exec .managementPortLinkChange s = .next (putLevel (latchIrq s 217) 217)

/-- The event recorder (R437 to R442): the LOST record that is due, or else the oldest queued record, is written when the ring has room; EVR_DATA reads the 8 bytes at the cursor
and moves it on; the cursor moves only forward to HEAD; a software or time trigger that is enabled fires; a snapshot that has read its registers is queued;
a SOFT record carries CODE and ARG. -/
def Obligations.RecorderCompletes : Prop :=
  ∀ s : State, Clocked s →
    (s.evr.lost = 0 → ∀ r rest, s.evr.queue = r :: rest →
      (evrWrite s r = none → exec .evrRecordWrite s = .next s) ∧
      (∀ t, evrWrite s r = some t →
        let u := { t with evr := { t.evr with queue := rest } }
        exec .evrRecordWrite s = .next (if r.ty = 3 ∧ regBits u (rEvrTrg r.code) 4 4 = 1 then freeze u else u))) ∧
    (0 < s.evr.lost → s.evr.queue.length < 64 → regBits s rEvrCtrl 0 0 = 1 → ∀ t,
      evrWrite s { ty := 4, code := 0, unit := unitId 12 0, ftime := s.now, step := recStep s, body := [(s.evr.lost, 8)] } = some t →
      exec .evrRecordWrite s = .next { t with evr := { t.evr with lost := 0 } }) ∧
    (evrCursor s ≠ evrHead s → exec .evrData s = .next { withField s rEvrCursor 15 3 ((evrCursor s + 8) % 65536 / 8) with
      lastRead := BitVec.ofNat 64 (leNat (smGetList 0 s.evr.ring (evrCursor s) 8)) }) ∧
    (evrCursor s = evrHead s → exec .evrData s = .next { s with lastRead := 0 }) ∧
    (∀ off : Nat,
      let o := off % 65536 / 8 * 8
      ((o + 65536 - evrCursor s) % 65536 ≤ evrUnread s → exec (.evrCursor off) s = .next (withField s rEvrCursor 15 3 (o / 8))) ∧
      (evrUnread s < (o + 65536 - evrCursor s) % 65536 → exec (.evrCursor off) s = .next s)) ∧
    (∀ t : Nat, t < 8 → regBits s (rEvrTrg t) 0 0 = 1 →
      (regBits s (rEvrTrg t) 2 1 = 3 → exec (.evrFire t) s = .next (fireTrigger s t)) ∧
      (regBits s (rEvrTrg t) 2 1 = 2 → s.now = (regGet s (rEvrTrgTime t)).toNat → exec (.evrTimeTrigger t) s = .next (fireTrigger s t))) ∧
    (∀ p rest, s.evr.snaps = p :: rest → min 32 (regBits s (rEvrTrg p.trig) 10 5) ≤ p.vals.length →
      let u := { s with evr := { s.evr with snaps := rest } }
      exec .evrSnapshotComplete s = .next (submitRec u
        { ty := 3, code := p.trig, unit := unitId 12 0, ftime := p.ftime, step := recStep u, body := p.vals.map (fun w => (w.toNat, 8)) })) ∧
    (∀ code arg : Nat, code < 2 ^ 16 → arg < 2 ^ 48 → exec (.evrSoft code arg) s = .next (submitRec s
      { ty := 6, code := code, unit := unitId 10 0, ftime := s.now, step := recStep s, body := [(arg, 8)] }))

/-- Freezes and the scan port (R447 to R449, R481): FREEZE_N from stage 2 on, NOW with its key, and the timed freeze in its cycle freeze the module: fabric time is kept, the seed
and the keys are zeroed; a frozen module selects a chain and shifts out 64 bits of it, a free value (log 3), since the spec gives no chain its bits. -/
def Obligations.FreezesComplete : Prop :=
  ∀ s : State,
    (Clocked s → s.mgmt.frozen = none →
      let t := { s with mgmt := { s.mgmt with frozen := some s.now, keysZeroed := true }, sec := { s.sec with seed := none } }
      (2 ≤ s.mgmt.stage → s.mgmt.freezeIgnored = false → exec .freezeN s = .next t) ∧
      exec (.mpFreezeNow 0xF4EE) s = .next t ∧ (∀ key : Nat, key ≠ 0xF4EE → exec (.mpFreezeNow key) s = .next s) ∧
      (regBits s rMpFreeze 0 0 = 1 → s.now = (regGet s rMpFreezeAt).toNat → exec .timedFreeze s = .next t)) ∧
    (∀ c, s.mgmt.frozen = some c →
      (∀ chain : Nat, chain < 65536 → exec (.scanSelect chain) s = .next { s with mgmt := { s.mgmt with scanSel := some chain } }) ∧
      (s.mgmt.scanSel ≠ none → exec .scanRead s = .next { s with lastRead := Sys2Proof.Config.freeWord s.freeCount, freeCount := s.freeCount + 1 }))

/-! ### Power and heat -/

/-- The input stage, rails and sensors (R452, R454, R457, R458, Table 18.2), in 10 mV, W and 0.0625 °C: an input below 40 V loses all power; a rail that overloads or a floor below
VMIN aborts the step with its code; a floor's sample sets its flags with their hysteresis, aborts above 115 °C and trips at 125 °C; a carrier regulator trips the
module; the hot-swap stage closes and opens with PRESENT_N. -/
def Obligations.PowerAndHeatComplete : Prop :=
  ∀ s : State,
    (∀ (volts watts avg : Nat) (floors : List Nat) (cellars : List (Nat × Nat)),
      (volts < 4000 → exec (.powerSample volts watts avg floors cellars) s = .next (powerLoss s)) ∧
      (4000 ≤ volts →
        let h := noteHeat (noteRails (notePower s volts watts avg) floors cellars)
        let l := if h.mgmt.low = 0 then alarm h 1 false else if 10 ≤ h.mgmt.low then alarm h 1 true else h
        let v := if l.mgmt.high = 0 then alarm l 2 false else if 10 ≤ l.mgmt.high then alarm l 2 true else l
        let a := if v.mgmt.low = 10 ∨ v.mgmt.high = 10 then sendAbort (pwrFault v codePowerInput 0 [(volts, 2)]) codePowerInput else v
        (volts < 4400 → v.mgmt.lockout = 0 → exec (.powerSample volts watts avg floors cellars) s =
          .next (mainsOff (sendAbort (pwrFault v codePowerInput 0 [(volts, 2)]) codePowerInput))) ∧
        (4400 ≤ volts → exec (.powerSample volts watts avg floors cellars) s =
          .next (if a.mgmt.above = 10 then sendAbort (pwrFault a codePowerOverload 0 [(watts, 2)]) codePowerOverload else a)))) ∧
    (Powered s → ∀ kind inst : Nat,
      exec (.railOverload kind inst) s = .next (sendAbort (pwrFault s codePowerOverload inst [(kind, 2), (inst, 2)]) codePowerOverload)) ∧
    (Powered s → ∀ floor : Nat, floor < 10 →
      let u := regCount (withField s rPwrAlarm 3 3 1) rPwrAlarm 31 16 1
      exec (.droop floor false) s = .next u ∧
      exec (.droop floor true) s = .next (sendAbort (pwrFault u codeUndervolt floor [(floor, 2)]) codeUndervolt)) ∧
    (∀ floor temp sensor speed : Nat, floor < 10 →
      let t := toSigned 12 temp
      let a := rThmFloor floor
      let n := noteFloor s floor temp sensor speed
      let u := level2 n a 17 t (throttle n) (throttle n - 48)
      let v := level2 u a 18 t (16 * 105) (16 * 100)
      let w := noteHeat (level2 v a 19 t (16 * 115 + 1) (throttle v))
      (16 * 125 ≤ t → exec (.floorTempSample floor temp sensor speed) s = .next (thermalTrip w floor)) ∧
      (t < 16 * 125 → exec (.floorTempSample floor temp sensor speed) s =
        .next (if floorOver w floor ∧ floorOver s floor = false then sendAbort (thmFault w codeFloorOvertemp floor) codeFloorOvertemp else w))) ∧
    exec .carrierRegulatorSensorTrip s = .next (thermalTrip s 0) ∧
    exec .presentNAssert s = .next { s with mgmt := { s.mgmt with present := true } } ∧
    exec .presentNDeassert s = .next (powerLoss { s with mgmt := { s.mgmt with present := false } })

/-! ### Start-up and service mode -/

/-- Start-up (R472, R473, Table 18.8): each stage runs only after the one before it. The standby stage samples SERVICE_N, which when low
selects service mode and turns FREEZE_N off; the ROM stage derives the seed and clears the SRAM; a module
whose ROM fails is dead; Travar's image verifies or the stage does not end; a module without a factory configuration
or repair map fails into service mode; a rail without power-good fails it;
then training, links and drives, fabric time, attestation, and the Letterbox opens.
Service mode (R467): only there, a Travar image that verifies is written to its slot, a configuration part that verifies and is newer than a valid present one is written, what
does not verify is counted, and SERVICE_RESET goes through power-on reset again. -/
def Obligations.StartupCompletes : Prop :=
  (∀ s : State,
     (atStage s 0 = true →
       let u := endStage (withField s rPwrStatus 0 0 1) 1
       exec (.standbyStage false) s = .next u ∧
       exec (.standbyStage true) s = .next { u with mgmt := { u.mgmt with service := true, freezeIgnored := true } }) ∧
     (Clocked s →
       (atStage s 1 = true → ∀ stepping : Nat,
         let fac := flashBytes s factoryAt 0x6780
         let seed := Sys2Proof.Config.pufSeed (helperData fac)
         let u := endStage { withField s rMpId 23 16 stepping with mem := smClear s.mem sramBase sramBytes } 2
         exec (.bootRomStage false stepping) s = .next { s with mgmt := { s.mgmt with dead := true } } ∧
         exec (.bootRomStage true stepping) s = .next (if digest64 seed = seedCheck fac then { withField u rSecStatus 0 0 1 with sec := { u.sec with seed := some seed } }
           else secFault (withField (withField u rSecStatus 0 0 0) rSecEvent 2 2 1) codePufFailed [])) ∧
       (atStage s 2 = true → exec .travarStage s = .next (if (bootTravar s).2 then endStage (bootTravar s).1 3 else (bootTravar s).1)) ∧
       (atStage s 3 = true →
         ∃ t, exec .configurationStage s = .next t ∧ (match (factoryConf s).bind (factoryRepair s) with
           | none => t = moduleFailure (enterService (cfgFault s codeConfigFailed [])) codeConfigFailed
           | some _ => t.mgmt.stage = 4)) ∧
       (atStage s 4 = true → ∀ (f : Nat) vmins speeds arrays rooms,
         exec (.floorBringupStage (some f) vmins speeds arrays rooms) s = .next (moduleFailure (pwrFault s codeRailFailed f [(f, 2)]) codeRailFailed) ∧
         ∃ t, exec (.floorBringupStage none vmins speeds arrays rooms) s = .next t ∧ t.mgmt.stage = 5) ∧
       (atStage s 5 = true → ∀ failed margins, ∃ t, exec (.cellarTrainingStage failed margins) s = .next t ∧ t.mgmt.stage = 6 ∧
         ∀ id ∈ t.cel.live, id < 640 ∧ id ∉ failed) ∧
       (atStage s 6 = true → ∀ drives, ∃ t, exec (.linkStage drives) s = .next t ∧ t.mgmt.stage = 7) ∧
       (atStage s 7 = true → ∀ (standby : Bool) (gmRank sbRank : Nat),
         let g := withField (setRoles s true standby gmRank sbRank) rSchState 3 3 1
         exec (.fabricTimeStage false standby gmRank sbRank) s = .next (endStage (setRoles s false standby gmRank sbRank) 8) ∧
         exec (.fabricTimeStage true standby gmRank sbRank) s = .next (endStage { g with seq := { g.seq with everLocked := true } } 8)) ∧
       (atStage s 8 = true → ∀ written,
         (idSeed s = none → exec (.attestationStage written) s = .next (endStage s 9)) ∧
         (∀ k, idSeed s = some k →
           let id := digest64 (Sys2Proof.Config.falconPublic k)
           let u := (upTo 8).foldl (fun t j => regSet t (rSecId j) (BitVec.ofNat 64 (fld id (8 * j) 8))) s
           exec (.attestationStage written) s = .next (endStage (writeRepair (withField u rSecStatus 1 1 1) written) 9))) ∧
       (atStage s 9 = true → exec .letterboxStage s = .next (endStage (withField s rLbxCtrl 0 0 1) 10)))) ∧
  (∀ s : State, Clocked s → inService s = true →
     (∀ (slot : Nat) (image : List Sys2Proof.Byte), slot < 2 → image.length ≤ 0x800000 → exec (.serviceImageWrite slot image) s =
       .next (if (travarImage image).isSome then flashPut s (if slot = 0 then slotA else slotB) image else sigFail s)) ∧
     (∀ part : List Sys2Proof.Byte, part.length ≤ 0x10000 → exec (.serviceConfigWrite part) s =
       .next (match factoryConf s with
         | none => sigFail s
         | some fac => match userConf fac part, userConf fac (flashBytes s userAt 0x10000) with
           | none, _ => sigFail s
           | some p, some old => if fld old 0x10 8 < fld p 0x10 8 then flashPut s userAt p else s
           | some p, none => flashPut s userAt p)) ∧
     exec .serviceReset s = .next (powerLoss s))

/-- Register accesses (R8, R9, R25, Table 0.5): a write to an aligned register of a powered domain goes to its unit's rule; a read shows the register's readable fields and clears
what a read clears; an access of another width or alignment, or of an offset without a register, reads 0 and writes nothing; a register of an unpowered domain
reads a free value (log 3) and keeps what it holds; an address outside the control region is unmapped and recorded. -/
def Obligations.RegisterAccessesComplete : Prop :=
  ∀ (s : State) (a : Nat), Clocked s →
    (inCtl a = true → a % 8 = 0 → regFields a ≠ [] →
      (answers s a = true →
        (∀ d, exec (.registerWrite ⟨a, 8⟩ d) s = .next (writeReg s a d)) ∧ exec (.registerReadClear ⟨a, 8⟩) s = .next (readReg s a)) ∧
      (answers s a = false →
        (∀ d, exec (.registerWrite ⟨a, 8⟩ d) s = .next s) ∧
        exec (.registerReadClear ⟨a, 8⟩) s = .next { s with lastRead := Sys2Proof.Config.freeWord s.freeCount, freeCount := s.freeCount + 1 })) ∧
    (∀ w : Nat, inCtl a = true → (w ≠ 8 ∨ a % 8 ≠ 0 ∨ regFields a = []) →
      (∀ d, exec (.registerWrite ⟨a, w⟩ d) s = .next s) ∧ exec (.registerReadClear ⟨a, w⟩) s = .next { s with lastRead := 0 }) ∧
    (∀ w : Nat, inCtl a = false →
      (∀ d, exec (.registerWrite ⟨a, w⟩ d) s = .next (unmapped s a)) ∧ exec (.registerReadClear ⟨a, w⟩) s = .next { unmapped s a with lastRead := 0 })

/-! ### Bundles (R90, Tables 4.1 to 4.9) -/

/-- A bundle's word and its commands determine each other: what the encoder writes for up to four legal commands of one room, the decoder reads back in slot
order; and any word that the decoder accepts is the one that the encoder writes for the commands read. No bit of a legal bundle is dropped, and a word
with a bit that its operations do not use is no legal bundle. -/
def Obligations.BundlesRoundTrip : Prop :=
  ∀ (r : Nat) (w : BitVec 256),
    (∀ a v m c : Option Sys2Proof.Instr, bundleWord a v m c = some w → (∀ i ∈ a.toList ++ v.toList ++ m.toList ++ c.toList, slotRoom i = some r) →
      bundleCmds r w = some (a.toList ++ v.toList ++ m.toList ++ c.toList)) ∧
    (∀ cs, bundleCmds r w = some cs → ∃ a v m c : Option Sys2Proof.Instr, cs = a.toList ++ v.toList ++ m.toList ++ c.toList ∧
      bundleWord a v m c = some w ∧ ∀ i ∈ cs, slotRoom i = some r)

/-- Slot words written out field by field, highest bit first, from Tables 4.3, 4.5, 4.7 and 4.9, and the commands that they are: an AROW, a VLD, an MLOAD, an
XADDI and a LOOP; a reserved opcode, a reserved bit and a WAIT with CF 2 are none. -/
def Obligations.BundleWordsSpelled : Prop :=
  ∀ r : Nat,
    arrayCmd r 0b00000000_00000_0000_0_0_0_1_11_0010_1_000000101_000_0011_0000_0000_0001_0010_1_001_010_00100_00000011#80 = some [.arow r
      { gb := 4, gs := 2, gp := 1, tp := 1, aa := 2, ia := 1, asc := 3, e := 5, cin := 1, fmt := 2, blk := 3, ovf := 1 }] ∧
    vectorCmd r 0b0_1_00000_0_0001_1111111111111110_0011_0010_00111_00000_00000_00110_00011000#64 = some [.vld r
      { vd := 6, vc := 7, aa := 2, ia := 3, imm := 0xFFFE, fmt := 1, msk := 1 }] ∧
    moveCmd r 0b0000000000000_00000_1_00001001_000_0_1_0001_0000_01011_01010_0010_0001_001000_00000001#72 = some [.mload r
      { tk := 8, asrc := 1, adst := 2, xl := 10, xp := 11, sfmt := 0, dfmt := 1, rnd := 1, sid := 9, fen := 1 }] ∧
    (∀ f : Sys2Proof.ControlSlot, f = { d24 := 0b11111111111111_00100_00011#24 } →
      controlCmd r 0b00_11111111111111_00100_00011_000000_00001011#40 = some [.xaddi r f] ∧ d24d f = 3 ∧ d24a f = 4 ∧ d24imm14 f = -1) ∧
    (∀ f : Sys2Proof.ControlSlot, f = { d24 := 0b0000000_00101_000000010010#24 } →
      controlCmd r 0b00_0000000_00101_000000010010_000000_00010000#40 = some [.loop r f] ∧ d24target f = 18 ∧ d24brA f = 5) ∧
    bundleCmds r 0 = some [] ∧ vectorCmd r 0x22#64 = none ∧ moveCmd r 0x80000000000000000A#72 = none ∧ controlCmd r 0x8000000001#40 = none

/-- A bundle's command touches its own room, and otherwise what a stop records: whatever its fields, device memory, the other rooms, the clock, the queue,
cellars, Larders, update engines, collectives, links, journal, attic, Porch and job are as before. Fields that R91 does not admit stop the room with
ILLEGAL_BUNDLE. -/
def Obligations.SlotsTouchOneRoom : Prop :=
  ∀ (c : Sys2Proof.Instr) (s t : State) (r : Nat) (legal : Bool), slotForm c = some (r, legal) → exec c s = .next t →
    (∀ r', r' ≠ r → getRoom t r' = getRoom s r') ∧
    t.mem = s.mem ∧ t.poison = s.poison ∧ t.badWords = s.badWords ∧ t.now = s.now ∧ t.beat = s.beat ∧ t.pending = s.pending ∧ t.mgmt = s.mgmt ∧
    t.cel = s.cel ∧ t.ldr = s.ldr ∧ t.den = s.den ∧ t.col = s.col ∧ t.fab = s.fab ∧ t.jrnl = s.jrnl ∧ t.att = s.att ∧ t.por = s.por ∧ t.job = s.job ∧
    t.cvu = s.cvu ∧ t.pol = s.pol ∧ (legal = false → Acts s r → t = stopRoom s r codeIllegal 0)

/-! ### Time -/

/-- Beats (R121): with stretch code k, a cycle t from t0 on is a beat when (16 × (t − t0)) mod (16 + k) is below 16; every 16 + k cycles in succession hold
16 of them; t0 is one, and with k = 0 every cycle is; the first F(P, k) cycles from t0 hold at least P beats; and t0 is the cycle in which a start
barrier releases. -/
def Obligations.BeatsOfAStretch : Prop :=
  ∀ s : State,
    let k := regBits s rSchStretch 4 0
    let t0 := s.seq.t0
    let beat (t : Nat) : Bool := isBeat { s with now := t }
    (k ≤ 16 →
      (∀ t, t0 ≤ t → (beat t = true ↔ (16 * (t - t0)) % (16 + k) < 16)) ∧
      (∀ t, t0 ≤ t → ((List.range (16 + k)).filter (fun i => beat (t + i))).length = 16) ∧
      beat t0 = true ∧ (k = 0 → ∀ t, t0 ≤ t → beat t = true) ∧
      (∀ p, 16 * beatCycles s p < p * (16 + k) + 16 ∧ p * (16 + k) ≤ 16 * beatCycles s p ∧
        p ≤ ((List.range (beatCycles s p)).filter (fun i => beat (t0 + i))).length)) ∧
    (∀ t, (startRelease s t).seq.t0 = t)

/-- In a module that a freeze has stopped, time passes and nothing else that a job computes with changes, whatever command comes, while the power stays: not
a room, not a byte of memory, not a queue of any unit (R448). -/
def Obligations.FrozenModulesStayFrozen : Prop :=
  ∀ s t : State, Frozen s → s.mgmt.stage ≠ 0 → step s = .next t →
    (∀ c, s.pending.head? = some c →
      match c with
      | .powerSample v _ _ _ _ => 4400 ≤ v
      | .floorTempSample _ temp _ _ => toSigned 12 temp < 16 * 125
      | .cellarTempReading _ temp _ => toSigned 12 temp < 16 * 125
      | .carrierRegulatorSensorTrip => False
      | .presentNDeassert => False
      | _ => True) →
    Frozen t ∧ t.mgmt.stage ≠ 0 ∧ s.now ≤ t.now ∧ t.beat = s.beat ∧ t.pending = s.pending.tail ∧ t.rooms = s.rooms ∧ t.mem = s.mem ∧ t.poison = s.poison ∧
    t.seq = s.seq ∧ t.cel = s.cel ∧ t.ldr = s.ldr ∧ t.den = s.den ∧ t.col = s.col ∧ t.fab = s.fab ∧ t.jrnl = s.jrnl ∧ t.att = s.att ∧ t.por = s.por ∧
    t.job = s.job ∧ t.sec = s.sec ∧ t.evr = s.evr ∧ t.irq = s.irq ∧ t.cvu = s.cvu

/-! ### Numbers -/

/-- Integer arithmetic (R38, R101): without saturation the result is that of the 32-bit words modulo 2^32; with it, the exact result clamped to
[−2^31, 2^31 − 1]; and the overflow case is noted exactly when the exact result lies outside. -/
def Obligations.IntegersWrapOrSaturate : Prop :=
  ∀ a b : Sys2Proof.Lane,
    let lo : Int := -2147483648
    let hi : Int := 2147483647
    let sat (x : Int) : Int := if x < lo then lo else if hi < x then hi else x
    let outside (x : Int) : Bool := decide (x < lo) || decide (hi < x)
    (i32Add false a b).1 = a + b ∧ (i32Sub false a b).1 = a - b ∧ (i32Mul false a b).1 = a * b ∧
    int32 (i32Add true a b).1 = sat (a.toInt + b.toInt) ∧ int32 (i32Sub true a b).1 = sat (a.toInt - b.toInt) ∧
    int32 (i32Mul true a b).1 = sat (a.toInt * b.toInt) ∧
    (∀ m : Bool, (i32Add m a b).2.intRange = outside (a.toInt + b.toInt) ∧ (i32Sub m a b).2.intRange = outside (a.toInt - b.toInt) ∧
      (i32Mul m a b).2.intRange = outside (a.toInt * b.toInt))

/-- NaNs of the vector unit (R35, R60): a NaN operand of a sum, difference, product, fused sum, quotient or root gives the canonical NaN, with no invalid
operation noted, and any NaN that binary32 arithmetic produces, from operands of any kind, is the canonical one. -/
def Obligations.CanonicalNans : Prop :=
  ∀ a b c : Sys2Proof.Lane,
    (fvIsNan (b32 a) = true → b32Add a b = (b32Nan, noFlags) ∧ b32Add b a = (b32Nan, noFlags) ∧ b32Sub a b = (b32Nan, noFlags) ∧
      b32Sub b a = (b32Nan, noFlags) ∧ b32Mul a b = (b32Nan, noFlags) ∧ b32Mul b a = (b32Nan, noFlags) ∧ b32Fma a b c = (b32Nan, noFlags) ∧
      b32Div a b = (b32Nan, noFlags) ∧ b32Div b a = (b32Nan, noFlags) ∧ b32Sqrt a = (b32Nan, noFlags) ∧ b32Relu a = b32Nan) ∧
    (∀ x ∈ [(b32Add a b).1, (b32Sub a b).1, (b32Mul a b).1, (b32Fma a b c).1, (b32Div a b).1, (b32Sqrt a).1, (b32Min a b).1, (b32Max a b).1, b32Relu a],
      fvIsNan (b32 x) = true → x = b32Nan)

/-- A cut of Q units over P positions (R303): position p gets q + 1 units when p < e and else q, for q := Q div P and e := Q mod P, at offset
p × q + min(p, e); so the shares follow one another from 0 to Q, the remainder lies at the lowest positions, and with fewer units than positions the
last has none. -/
def Obligations.CutCoversItsUnits : Prop :=
  ∀ Q P : Nat, 0 < P →
    (∀ p, p < P → shareCount Q P p = (if p < Q % P then Q / P + 1 else Q / P) ∧ shareOff Q P p = p * (Q / P) + min p (Q % P)) ∧
    shareOff Q P 0 = 0 ∧ (∀ p, p < P → shareOff Q P (p + 1) = shareOff Q P p + shareCount Q P p) ∧ shareOff Q P P = Q ∧
    (∀ p p', p ≤ p' → p' < P → shareCount Q P p' ≤ shareCount Q P p) ∧ (Q < P → shareCount Q P (P - 1) = 0)

/-! ### Device memory (R5, R20 to R25) -/

/-- What is written to a pinned range is what a read of it gives, and nothing else changes: every other byte of memory, every register and every unit are as
before, and memory keeps its canonical form. Numbers are little-endian. -/
def Obligations.MemoryKeepsWhatIsWritten : Prop :=
  ∀ (s : State) (a : Nat) (bs : List Sys2Proof.Byte),
    (∀ i, i < bs.length → translate s (a + i) = a + i ∧ locate s (a + i) = .pinned) →
    let t := (writeBytes s a bs).1
    (writeBytes s a bs).2 = 0 ∧ readBytes t a bs.length = (bs, 0) ∧ (∀ b, b < a ∨ a + bs.length ≤ b → smGet 0 t.mem b = smGet 0 s.mem b) ∧
    (Memory.wf s.mem = true → Memory.wf t.mem = true) ∧ t = { s with mem := t.mem } ∧
    (∀ v, memNat (writeNat s a bs.length v) a bs.length = v % 256 ^ bs.length)

/-! ### Tokens that fail, and WAIT's timing -/

/-- A WAIT on a failed token (R110): under CF 0 the program goes on and the token keeps its word, which TSTAT reads; under CF 1 the room stops with
OPERATION_FAILED, and the event recorder, if it records and has room, holds that fault and the token's own code; CF 2 and 3 raise ILLEGAL_BUNDLE in the
issue beat, and no bundle that holds such a WAIT is decoded. -/
def Obligations.FailedTokens : Prop :=
  (∀ (s : State) (r : Nat) (f : Sys2Proof.ControlSlot), Acts s r →
    let q := getRoom s r
    let k := token q f.tk.toNat
    (waitLegal f = true → q.run ≠ .stopped → k.st = .complete → bitOf k.word 18 = true →
      (f.cf = 0 → ∃ t, exec (.wait r f) s = .next t ∧ (getRoom t r).run = .running ∧ (token (getRoom t r) f.tk.toNat).st = .idle ∧
        bits (token (getRoom t r) f.tk.toNat).word 18 0 = bits k.word 18 0 ∧ t.seq = s.seq ∧ t.evr = s.evr) ∧
      (f.cf = 1 → ∃ t, exec (.wait r f) s = .next t ∧ (getRoom t r).run = .stopped ∧
        (regBits s rEvrCtrl 0 0 = 1 → s.evr.queue.length < 63 →
          (∃ e ∈ t.evr.queue, e.ty = 1 ∧ e.code = bits k.word 15 0) ∧ ∃ e ∈ t.evr.queue, e.ty = 1 ∧ e.code = codeOpFailed))) ∧
    (f.cf = 2 ∨ f.cf = 3 → exec (.wait r f) s = .next (stopRoom s r codeIllegal 0))) ∧
  (∀ (r : Nat) (f : Sys2Proof.ControlSlot), f.cf = 2 ∨ f.cf = 3 → controlCmd r (controlWord 0x01 f) = none)

/-- WAIT (R109): on a pending token, at issue beat w, the sequencer is held with the deadline e = a + D from the beat a that armed it. When the token completes in
beat k, the next bundle issues in beat max(w, e, k) + 1 and the room's lateness grows by what k exceeds max(w, e); a WAIT on a token completed by then
does the same at once; a WAIT on an idle token raises TOKEN_UNARMED, and in a room that its bundle has just stopped it holds nothing (R116). -/
def Obligations.WaitCompletes : Prop :=
  (∀ (s : State) (r : Nat) (f : Sys2Proof.ControlSlot), Acts s r → waitLegal f = true →
    let q := getRoom s r
    let t := token q f.tk.toNat
    let e := t.armed + f.d24.toNat
    (t.st = .pending → q.run = .stopped → exec (.wait r f) s = .next s) ∧
    (t.st = .pending → q.run ≠ .stopped →
      exec (.wait r f) s = .next (modRoom s r (fun q => { q with
        run := .held, hold := some { tk := f.tk.toNat, w := s.beat, e := e, cf := f.cf.toNat, bundle := q.cur } }))) ∧
    (t.st = .complete → q.run ≠ .stopped → (f.cf = 0 ∨ bitOf t.word 18 = false) →
      let late := t.doneAt - max s.beat e
      exec (.wait r f) s = .next (setRoom s r { q with
        toks := smSet {} q.toks f.tk.toNat { t with st := .idle, word := setBits t.word 19 19 (b2n (decide (0 < late))) }
        run := .running
        hold := some { tk := f.tk.toNat, w := s.beat, e := e, cf := f.cf.toNat, bundle := q.cur }
        resumeAt := max (max s.beat e) t.doneAt + 1
        lateCycles := q.lateCycles + late
        lateWaits := q.lateWaits + b2n (decide (0 < late))
        lateMax := max q.lateMax late
        firstLate := if q.firstLate = 0 ∧ 0 < late then
          BitVec.ofNat 64 (q.cur % 2 ^ 12 + (f.tk.toNat % 2 ^ 6) * 2 ^ 12 + (late % 2 ^ 32) * 2 ^ 32) else q.firstLate })) ∧
    (t.st = .idle → exec (.wait r f) s = .next (stopRoom s r codeTokenUnarmed 0))) ∧
  (∀ (s : State) (r tk code parts : Nat) (h : Hold),
    (getRoom s r).hold = some h → (getRoom s r).run = .held → h.tk = tk → (h.cf = 0 ∨ code = 0) →
    let q := getRoom (completeToken s r tk code parts) r
    q.run = .running ∧ q.resumeAt = max (max h.w h.e) (seenBeat s) + 1 ∧ q.lateCycles = (getRoom s r).lateCycles + (seenBeat s - max h.w h.e))
end

