-- ==== Sys2Proof/Laws/Memory.lean ====
section
/-!
SUPPORT. Sparse maps: a read after a write, and the canonical form that every operation on device memory and on the control registers keeps.
-/
namespace Sys2Proof.Laws
open Sys2Proof.Machine

section maps
variable {α : Type} [DecidableEq α]

theorem smWfFrom_mono {d : Nat → α} {m : List (Nat × α)} {lo lo' : Nat} (h : smWfFrom d lo m = true) (hl : lo' ≤ lo) : smWfFrom d lo' m = true := by
  cases m with
  | nil => rfl
  | cons e m =>
    obtain ⟨k, v⟩ := e
    simp only [smWfFrom, Bool.and_eq_true, decide_eq_true_eq] at *
    exact ⟨⟨by omega, h.1.2⟩, h.2⟩

theorem smGet_below {d : Nat → α} {m : List (Nat × α)} {lo : Nat} (x : α) {a : Nat} (h : smWfFrom d lo m = true) (ha : a < lo) : smGet x m a = x := by
  induction m generalizing lo with
  | nil => rfl
  | cons e m ih =>
    obtain ⟨k, v⟩ := e
    simp only [smWfFrom, Bool.and_eq_true, decide_eq_true_eq] at h
    have : a ≠ k := by omega
    simp only [smGet, this, if_false]
    exact ih h.2 (by omega)

omit [DecidableEq α] in
theorem smGet_filter_other (x : α) (m : List (Nat × α)) {a b : Nat} (h : b ≠ a) : smGet x (m.filter (fun e => decide (e.1 ≠ a))) b = smGet x m b := by
  induction m with
  | nil => rfl
  | cons e m ih =>
    obtain ⟨k, w⟩ := e
    by_cases hk : k = a
    · subst hk
      rw [List.filter_cons_of_neg (by simp), ih]
      simp only [smGet, h, if_false]
    · rw [List.filter_cons_of_pos (by simpa using hk)]
      simp only [smGet, ih]

omit [DecidableEq α] in
theorem smGet_filter_same (x : α) (m : List (Nat × α)) (a : Nat) : smGet x (m.filter (fun e => decide (e.1 ≠ a))) a = x := by
  induction m with
  | nil => rfl
  | cons e m ih =>
    obtain ⟨k, w⟩ := e
    by_cases hk : k = a
    · subst hk; rw [List.filter_cons_of_neg (by simp), ih]
    · rw [List.filter_cons_of_pos (by simpa using hk)]
      simp only [smGet, Ne.symm hk, if_false, ih]

omit [DecidableEq α] in
theorem smGet_smPut_other (x : α) (m : List (Nat × α)) {a b : Nat} (v : α) (h : b ≠ a) : smGet x (smPut m a v) b = smGet x m b := by
  induction m with
  | nil => simp only [smPut, smGet, h, if_false]
  | cons e m ih =>
    obtain ⟨k, w⟩ := e
    simp only [smPut]
    split_ifs with h1 h2
    · simp only [smGet, h, if_false]
    · subst h2; simp only [smGet, h, if_false]
    · simp only [smGet, ih]

omit [DecidableEq α] in
theorem smGet_smPut_same (x : α) (m : List (Nat × α)) (a : Nat) (v : α) : smGet x (smPut m a v) a = v := by
  induction m with
  | nil => simp only [smPut, smGet, if_true]
  | cons e m ih =>
    obtain ⟨k, w⟩ := e
    simp only [smPut]
    split_ifs with h1 h2
    · simp only [smGet, if_true]
    · simp only [smGet, if_true]
    · simp only [smGet, h2, if_false, ih]

/-- A write at one key leaves every other key alone. -/
theorem smGet_smSet_other (x d : α) (m : List (Nat × α)) {a b : Nat} (v : α) (h : b ≠ a) : smGet x (smSet d m a v) b = smGet x m b := by
  unfold smSet
  split
  · exact smGet_filter_other x m h
  · exact smGet_smPut_other x m v h

/-- A read of the key just written gives the value written, whatever the map. -/
@[simp] theorem smGet_smSet_same (d : α) (m : List (Nat × α)) (a : Nat) (v : α) : smGet d (smSet d m a v) a = v := by
  unfold smSet
  split
  · rename_i h; rw [smGet_filter_same, h]
  · exact smGet_smPut_same d m a v

theorem smWfFrom_filter {d : Nat → α} {lo : Nat} {m : List (Nat × α)} (p : Nat × α → Bool) (h : smWfFrom d lo m = true) :
    smWfFrom d lo (m.filter p) = true := by
  induction m generalizing lo with
  | nil => rfl
  | cons e m ih =>
    obtain ⟨k, v⟩ := e
    simp only [smWfFrom, Bool.and_eq_true, decide_eq_true_eq] at h
    have hm := ih h.2
    by_cases hp : p (k, v) = true
    · rw [List.filter_cons_of_pos hp]
      simp only [smWfFrom, Bool.and_eq_true, decide_eq_true_eq]
      exact ⟨h.1, hm⟩
    · rw [List.filter_cons_of_neg (by simpa using hp)]
      exact smWfFrom_mono hm (by omega)

theorem smPut_wfFrom {d : Nat → α} {lo : Nat} {m : List (Nat × α)} {a : Nat} {v : α} (hv : v ≠ d a) (h : smWfFrom d lo m = true) (ha : lo ≤ a) :
    smWfFrom d lo (smPut m a v) = true := by
  induction m generalizing lo with
  | nil => simp [smPut, smWfFrom, hv, ha]
  | cons e m ih =>
    obtain ⟨k, w⟩ := e
    simp only [smWfFrom, Bool.and_eq_true, decide_eq_true_eq] at h
    simp only [smPut]
    split_ifs with h1 h2
    · simp only [smWfFrom, Bool.and_eq_true, decide_eq_true_eq]
      exact ⟨⟨ha, hv⟩, ⟨⟨by omega, h.1.2⟩, h.2⟩⟩
    · subst h2
      simp only [smWfFrom, Bool.and_eq_true, decide_eq_true_eq]
      exact ⟨⟨ha, hv⟩, h.2⟩
    · simp only [smWfFrom, Bool.and_eq_true, decide_eq_true_eq]
      exact ⟨h.1, ih h.2 (by omega)⟩

theorem smSet_wfFrom {d : Nat → α} {lo : Nat} {m : List (Nat × α)} {a : Nat} (v : α) (h : smWfFrom d lo m = true) (ha : lo ≤ a) :
    smWfFrom d lo (smSet (d a) m a v) = true := by
  unfold smSet
  split
  · exact smWfFrom_filter _ h
  · rename_i hv; exact smPut_wfFrom hv h ha

/-- A write keeps the canonical form. -/
theorem smSet_wf {d : Nat → α} {m : List (Nat × α)} (a : Nat) (v : α) (h : smWf d m = true) : smWf d (smSet (d a) m a v) = true :=
  smSet_wfFrom v h (Nat.zero_le _)

/-- Writing a list keeps the canonical form. -/
theorem smSetList_wf {x : α} {m : List (Nat × α)} (a : Nat) (vs : List α) (h : smWf (fun _ => x) m = true) :
    smWf (fun _ => x) (smSetList x m a vs) = true := by
  induction vs generalizing m a with
  | nil => exact h
  | cons v vs ih => exact ih (a + 1) (smSet_wf (d := fun _ => x) a v h)

theorem smGet_smSetList_below (x : α) (m : List (Nat × α)) (a : Nat) (vs : List α) {b : Nat} (h : b < a) :
    smGet x (smSetList x m a vs) b = smGet x m b := by
  induction vs generalizing m a with
  | nil => rfl
  | cons v vs ih => rw [smSetList, ih _ _ (by omega), smGet_smSet_other _ _ _ _ (by omega)]

/-- A list written at `a` leaves every key outside it alone. -/
theorem smGet_smSetList_other (x : α) (m : List (Nat × α)) (a : Nat) (vs : List α) {b : Nat} (h : b < a ∨ a + vs.length ≤ b) :
    smGet x (smSetList x m a vs) b = smGet x m b := by
  induction vs generalizing m a with
  | nil => rfl
  | cons v vs ih =>
    have hl : (v :: vs).length = vs.length + 1 := rfl
    have hb : b ≠ a := by omega
    rw [smSetList, ih _ _ (by omega), smGet_smSet_other _ _ _ _ hb]

/-- A list written reads back. -/
theorem smGetList_smSetList (x : α) (m : List (Nat × α)) (a : Nat) (vs : List α) : smGetList x (smSetList x m a vs) a vs.length = vs := by
  induction vs generalizing m a with
  | nil => rfl
  | cons v vs ih =>
    simp only [smSetList, List.length_cons, smGetList]
    rw [ih, smGet_smSetList_below _ _ _ _ (by omega), smGet_smSet_same]

/-- Clearing a range keeps the canonical form. -/
theorem smClear_wf {d : Nat → α} {m : List (Nat × α)} (a n : Nat) (h : smWf d m = true) : smWf d (smClear m a n) = true := smWfFrom_filter _ h

end maps

/-- The control registers keep their canonical form. -/
theorem regSet_wf {s : State} (a : Nat) (v : Word) (h : Registers.wf s.regs = true) : Registers.wf (regSet s a v).regs = true := smSet_wf a v h

theorem regPut_wf {s : State} (a hi lo v : Nat) (h : Registers.wf s.regs = true) : Registers.wf (regPut s a hi lo v).regs = true := by
  rw [regPut]; exact regSet_wf a _ h

/-- A register just written reads as written. -/
@[simp] theorem regGet_regSet_same (s : State) (a : Nat) (v : Word) : regGet (regSet s a v) a = v := smGet_smSet_same (regReset a) s.regs a v

/-- Every other register keeps its value. -/
theorem regGet_regSet_other (s : State) {a b : Nat} (v : Word) (h : b ≠ a) : regGet (regSet s a v) b = regGet s b := smGet_smSet_other _ _ _ _ h

theorem regGet_regPut_other (s : State) {a b : Nat} (hi lo v : Nat) (h : b ≠ a) : regGet (regPut s a hi lo v) b = regGet s b := by
  rw [regPut]; exact regGet_regSet_other s _ h

/-- Device memory keeps its canonical form. -/
theorem putBytes_wf {s : State} (a : Nat) (bs : List Byte) (h : Memory.wf s.mem = true) : Memory.wf (putBytes s a bs).mem = true := smSetList_wf a bs h

/-- What a write within one line does to memory: nothing, or its bytes at the address that backs it. -/
theorem writePiece_mem (s : State) (a : Nat) (bs : List Byte) :
    (writePiece s a bs).1.mem = s.mem ∨ (writePiece s a bs).1.mem = smSetList 0 s.mem (translate s a) bs := by
  unfold writePiece writeAt
  dsimp only
  split
  · exact .inl rfl
  · split
    · exact .inr rfl
    · split <;> exact .inr rfl

theorem writePiece_wf {s : State} (a : Nat) (bs : List Byte) (h : Memory.wf s.mem = true) : Memory.wf (writePiece s a bs).1.mem = true := by
  rcases writePiece_mem s a bs with e | e <;> rw [e]
  · exact h
  · exact smSetList_wf _ _ h

theorem writePart_wf {s : State} (a : Nat) (bs : List Byte) (h : Memory.wf s.mem = true) : Memory.wf (writePart s a bs).1.mem = true := by
  unfold writePart
  dsimp only
  split
  · exact writePiece_wf a bs h
  · exact writePiece_wf _ _ (writePiece_wf _ _ h)

theorem writeParts_wf {s : State} (a : Nat) (ps : List (List Byte)) (i : Nat) (r : ReqRes) (h : Memory.wf s.mem = true) :
    Memory.wf (writeParts s a ps i r).1.mem = true := by
  induction ps generalizing s a i r with
  | nil => exact h
  | cons p ps ih => exact ih _ _ _ (writePart_wf a p h)

/-- A store of any length keeps device memory canonical. -/
theorem writeBytes_wf {s : State} (a : Nat) (bs : List Byte) (h : Memory.wf s.mem = true) : Memory.wf (writeBytes s a bs).1.mem = true := by
  suffices k : ∀ (l : List (Nat × Nat)) (x : State × Nat), Memory.wf x.1.mem = true → Memory.wf ((l.foldl (fun x q =>
      ((writePiece x.1 q.1 ((bs.drop (q.1 - a)).take q.2)).1, firstCode x.2 (writePiece x.1 q.1 ((bs.drop (q.1 - a)).take q.2)).2)) x).1.mem) = true from
    k _ (s, 0) h
  intro l
  induction l with
  | nil => exact fun x hx => hx
  | cons p l ih => exact fun x hx => ih _ (writePiece_wf _ _ hx)

theorem writeNat_wf {s : State} (a n v : Nat) (h : Memory.wf s.mem = true) : Memory.wf (writeNat s a n v).mem = true := writeBytes_wf a _ h

/-- Memory and registers are canonical after power-on. -/
theorem reset_mem_wf : Memory.wf State.reset.mem = true := rfl
theorem reset_regs_wf : Registers.wf State.reset.regs = true := rfl

end Sys2Proof.Laws
end

