-- ==== Sys2Proof/Laws/Shared.lean ====
section
/-!
SUPPORT. What the operations that a room's slots share can do, once each: which fields a record of a fault, a stop, a pending result or a claim may
change, and what a slot's body leaves.
-/
namespace Sys2Proof.Laws
open Sys2Proof.Machine

/-! ### Commands of a clocked module, and Travar's commands -/

theorem clocked_runs {s : State} (h : Clocked s) (o : Host.Outcome State Fault Refusal) : clocked s o = o := by
  have h' : clocksStopped s = false := h
  simp only [clocked, h', Bool.false_eq_true, if_false]

theorem clocked_frozen {s : State} (h : Frozen s) (o : Host.Outcome State Fault Refusal) : clocked s o = .next s := by
  have h' : clocksStopped s = true := h
  simp only [clocked, h', if_true]

theorem travar_executes {s : State} {q op : Nat} {roles : List Nat} {b : List Byte} (h : Executes s q op roles b) (act : List Byte → State) :
    travar q op roles s act = .next (act b) := by
  obtain ⟨c, h1, h2, h3, h4, h5, h6⟩ := h
  simp only [travar, h1, h2, h3]
  rw [if_neg (by simp), if_neg (by simp), if_neg (by simp [h4]; exact h5), h6]

/-! ### Rooms -/

@[simp] theorem getRoom_setRoom (s : State) (r : Nat) (q : Room) : getRoom (setRoom s r q) r = q := smGet_smSet_same _ _ _ _

theorem getRoom_setRoom_other (s : State) {r r' : Nat} (q : Room) (h : r' ≠ r) : getRoom (setRoom s r q) r' = getRoom s r' :=
  smGet_smSet_other _ _ _ _ h

@[simp] theorem getRoom_modRoom (s : State) (r : Nat) (f : Room → Room) : getRoom (modRoom s r f) r = f (getRoom s r) := smGet_smSet_same _ _ _ _

theorem getRoom_modRoom_other (s : State) {r r' : Nat} (f : Room → Room) (h : r' ≠ r) : getRoom (modRoom s r f) r' = getRoom s r' :=
  smGet_smSet_other _ _ _ _ h

/-- What an action of a room adds: one pending action, in that room alone. -/
@[simp] theorem getRoom_addActionOf (s : State) (r issued src due ord : Nat) (op : MicroOp) : getRoom (addActionOf s r issued src due ord op) r =
    { getRoom s r with micro := (getRoom s r).micro ++ [{ due := due, ord := ord, issued := issued, port := .none, op := op, src := src }] } :=
  getRoom_modRoom s r _

@[simp] theorem getRoom_resultDue (s : State) (r due : Nat) (port : Port) (op : MicroOp) (src : Nat) : getRoom (resultDue s r due port op src) r =
    { getRoom s r with micro := (getRoom s r).micro ++ [{ due := due, ord := 0, issued := s.beat, port := port, op := op, src := src }] } :=
  getRoom_modRoom s r _

@[simp] theorem getRoom_withBanks (s : State) (r src off n beat : Nat) : getRoom (withBanks s r src off n beat) r =
    { getRoom s r with
      banks := (getRoom s r).banks ++ (banksOf off n).map (fun b => { beat := beat, bank := b, issued := s.beat, src := src }) } :=
  getRoom_modRoom s r _

/-- Counting the corrected words of a read changes that count alone. -/
theorem countWeak_eq (s : State) (a n : Nat) : countWeak s a n = { s with storeCe := (countWeak s a n).storeCe } := by
  unfold countWeak; split <;> rfl

@[simp] theorem countWeak_rooms (s : State) (a n : Nat) : (countWeak s a n).rooms = s.rooms := by rw [countWeak_eq]
@[simp] theorem countWeak_beat (s : State) (a n : Nat) : (countWeak s a n).beat = s.beat := by rw [countWeak_eq]
@[simp] theorem countWeak_mem (s : State) (a n : Nat) : (countWeak s a n).mem = s.mem := by rw [countWeak_eq]
@[simp] theorem countWeak_badWords (s : State) (a n : Nat) : (countWeak s a n).badWords = s.badWords := by rw [countWeak_eq]
@[simp] theorem getRoom_countWeak (s : State) (a n r : Nat) : getRoom (countWeak s a n) r = getRoom s r := by rw [countWeak_eq]; rfl

/-! ### What a slot may change -/

/-- The state with what a slot may change set aside: the rooms, the registers and what the cycle changed of them, the interrupt latches, the recorder, the
sequence unit's abort and arrivals, the repair actions, the numeric candidates and the corrected-error counts. -/
def aside (s : State) : State :=
  { s with rooms := [], regs := [], cyc := {}, irq := {}, evr := {}, seq := {}, sec := {}, numCand := [], storeCe := [] }

/-- Nothing but room `r`, and what `aside` sets aside, differs. -/
def OneRoom (r : Nat) (s t : State) : Prop := (∀ r', r' ≠ r → getRoom t r' = getRoom s r') ∧ aside t = aside s

theorem OneRoom.refl (r : Nat) (s : State) : OneRoom r s s := ⟨fun _ _ => rfl, rfl⟩

theorem OneRoom.trans {r : Nat} {s t u : State} (h : OneRoom r s t) (k : OneRoom r t u) : OneRoom r s u :=
  ⟨fun r' hr => (k.1 r' hr).trans (h.1 r' hr), k.2.trans h.2⟩

/-- Where no room differs. -/
theorem oneRoom_of_rooms {r : Nat} {s t : State} (h : t.rooms = s.rooms) (k : aside t = aside s) : OneRoom r s t :=
  ⟨fun _ _ => by simp only [getRoom, h], k⟩

theorem OneRoom.frame {r : Nat} {s t : State} (h : OneRoom r s t) :
    t.mem = s.mem ∧ t.poison = s.poison ∧ t.badWords = s.badWords ∧ t.now = s.now ∧ t.beat = s.beat ∧ t.pending = s.pending ∧ t.mgmt = s.mgmt ∧
    t.cel = s.cel ∧ t.ldr = s.ldr ∧ t.den = s.den ∧ t.col = s.col ∧ t.fab = s.fab ∧ t.jrnl = s.jrnl ∧ t.att = s.att ∧ t.por = s.por ∧ t.job = s.job ∧
    t.cvu = s.cvu ∧ t.pol = s.pol ∧ t.weakWords = s.weakWords ∧ t.conv = s.conv := by
  have e := h.2
  simp only [aside, State.mk.injEq] at e
  simp only [e, and_self]

theorem setRoom_one (s : State) (r : Nat) (q : Room) : OneRoom r s (setRoom s r q) := ⟨fun _ h => getRoom_setRoom_other s q h, rfl⟩
theorem modRoom_one (s : State) (r : Nat) (f : Room → Room) : OneRoom r s (modRoom s r f) := setRoom_one s r _
theorem regUpdate_one (s : State) (r a : Nat) (v n : Word) : OneRoom r s (regUpdate s a v n) := ⟨fun _ _ => rfl, rfl⟩
theorem regSet_one (s : State) (r a : Nat) (v : Word) : OneRoom r s (regSet s a v) := regUpdate_one s r a v v
theorem regPut_one (s : State) (r a hi lo v : Nat) : OneRoom r s (regPut s a hi lo v) := regUpdate_one s r a _ _
theorem regCount_one (s : State) (r a hi lo v : Nat) : OneRoom r s (regCount s a hi lo v) := regUpdate_one s r a _ _
theorem latchIrq_one (s : State) (r n : Nat) : OneRoom r s (latchIrq s n) := ⟨fun _ _ => rfl, rfl⟩

theorem setEvr_one (s : State) (r : Nat) (x : Evr) : OneRoom r s { s with evr := x } := ⟨fun _ _ => rfl, rfl⟩
theorem setSeq_one (s : State) (r : Nat) (x : Seq) : OneRoom r s { s with seq := x } := ⟨fun _ _ => rfl, rfl⟩
theorem setSec_one (s : State) (r : Nat) (x : Sec) : OneRoom r s { s with sec := x } := ⟨fun _ _ => rfl, rfl⟩
theorem setCand_one (s : State) (r : Nat) (x : List (Nat × Nat × EvRec)) : OneRoom r s { s with numCand := x } := ⟨fun _ _ => rfl, rfl⟩

/-- A choice between two states that differ from `s` in no other room. -/
theorem ite_one {r : Nat} {s t u : State} {c : Prop} [Decidable c] (h : OneRoom r s t) (k : OneRoom r s u) : OneRoom r s (if c then t else u) := by
  split
  · exact h
  · exact k

theorem fireTrigger_one (s : State) (r t : Nat) : OneRoom r s (fireTrigger s t) :=
  OneRoom.trans (regCount_one s r _ _ _ _) (OneRoom.trans (latchIrq_one _ r _) (OneRoom.trans
    (ite_one (regPut_one _ r _ _ _ _) (OneRoom.refl r _)) (ite_one (regCount_one _ r _ _ _ _) (setEvr_one _ r _))))

theorem fireCodeTriggers_one (r code : Nat) (ts : List Nat) : ∀ s : State, OneRoom r s (fireCodeTriggers s code ts) := by
  induction ts with
  | nil => exact fun s => OneRoom.refl r s
  | cons t ts ih => exact fun s => OneRoom.trans (ite_one (fireTrigger_one s r t) (OneRoom.refl r s)) (ih _)

theorem queueRec_one (s : State) (r : Nat) (e : EvRec) : OneRoom r s (queueRec s e) := ⟨fun _ _ => rfl, rfl⟩

theorem submitRec_one (s : State) (r : Nat) (e : EvRec) : OneRoom r s (submitRec s e) :=
  ite_one (OneRoom.refl r s) (ite_one (OneRoom.trans (regCount_one s r _ _ _ _) (setEvr_one _ r _))
    (ite_one (OneRoom.trans (queueRec_one s r e) (fireCodeTriggers_one r _ _ _)) (queueRec_one s r e)))

theorem recordFault_one (s : State) (r code unit : Nat) (items : Items) : OneRoom r s (recordFault s code unit items) := submitRec_one s r _

theorem latchFault_one (s : State) (r a vb code : Nat) : OneRoom r s (latchFault s a vb code) :=
  ite_one (OneRoom.trans (regPut_one s r _ _ _ _) (regPut_one _ r _ _ _ _)) (OneRoom.refl r s)

theorem raiseFault_one (s : State) (r a vb code unit : Nat) (items : Items) : OneRoom r s (raiseFault s a vb code unit items) :=
  OneRoom.trans (latchFault_one s r a vb code) (recordFault_one _ r code unit items)

theorem numericEvent_one (s : State) (r code key unit : Nat) (items : Items) : OneRoom r s (numericEvent s code key unit items) := by
  unfold numericEvent
  refine ite_one (OneRoom.refl r s) ?_
  dsimp only
  split
  · exact setCand_one s r _
  · exact ite_one (setCand_one s r _) (OneRoom.refl r s)

theorem sendAbort_one (s : State) (r code : Nat) : OneRoom r s (sendAbort s code) := ite_one (setSeq_one s r _) (OneRoom.refl r s)

theorem pendRepair_one (s : State) (r : Nat) (x : Repair) : OneRoom r s (pendRepair s x) := by
  have h (y : Sec) : OneRoom r s (regPut { s with sec := y } rCfgRepair 33 33 1) := OneRoom.trans (setSec_one s r y) (regPut_one _ r _ _ _ _)
  unfold pendRepair
  refine ite_one (OneRoom.refl r s) ?_
  dsimp only
  split
  · exact ite_one (OneRoom.trans (h _) (setSeq_one _ r _)) (h _)
  · exact h _

theorem retireArray_one (s : State) (r k arr : Nat) : OneRoom r s (retireArray s k arr) :=
  ite_one (pendRepair_one s r _) (pendRepair_one s r _)

theorem secondMark_one (s : State) (r code unit : Nat) : OneRoom r s (secondMark s code unit).1 := setSec_one s r _

theorem noteRoomFault_one (s : State) (r code k arr : Nat) : OneRoom r s (noteRoomFault s code k arr) :=
  ite_one (retireArray_one s r k arr) (ite_one
    (ite_one (OneRoom.trans (secondMark_one s r code k) (pendRepair_one _ r _)) (secondMark_one s r code k))
    (ite_one
      (ite_one (OneRoom.trans (secondMark_one s r code _) (retireArray_one _ r k arr)) (secondMark_one s r code _)) (OneRoom.refl r s)))

/-- Stopping a room changes that room, and what records and the abort change. -/
theorem stopRoom_one (s : State) (r code arr : Nat) : OneRoom r s (stopRoom s r code arr) :=
  ite_one (OneRoom.refl r s) (OneRoom.trans (modRoom_one s r _) (OneRoom.trans (noteRoomFault_one _ r _ _ _)
    (OneRoom.trans (latchIrq_one _ r _) (OneRoom.trans (recordFault_one _ r _ _ _) (sendAbort_one _ r _)))))

/-! ### Results, actions and claims -/

theorem addResultOf_one (s : State) (r src due : Nat) (port : Port) (op : MicroOp) : OneRoom r s (addResultOf s r src due port op) :=
  ite_one (OneRoom.trans (setRoom_one s r _) (stopRoom_one _ r _ _)) (setRoom_one s r _)

theorem addActionOf_one (s : State) (r issued src due ord : Nat) (op : MicroOp) : OneRoom r s (addActionOf s r issued src due ord op) := modRoom_one s r _

theorem addAction_one (s : State) (r due ord : Nat) (op : MicroOp) : OneRoom r s (addAction s r due ord op) := modRoom_one s r _

theorem postInc_one (s : State) (r reg n : Nat) : OneRoom r s (postInc s r reg n) :=
  ite_one (OneRoom.refl r s) (addResultOf_one s r _ _ _ _)

/-- A result whose port and register are free in its beat is pending for it, and nothing else changes. -/
theorem addResultOf_free {s : State} {r src due : Nat} {port : Port} {op : MicroOp} {reg : Nat × Nat}
    (hreg : microReg { due := due, ord := 0, issued := s.beat, port := port, op := op, src := src } = some reg)
    (h : PortFree s r due port reg) : addResultOf s r src due port op = resultDue s r due port op src := by
  have : ((getRoom s r).micro.any (fun n => collide { due := due, ord := 0, issued := s.beat, port := port, op := op, src := src } n)) = false := by
    rw [List.any_eq_false]
    intro m hm
    have h0 := h m hm
    simp only [collide, Bool.and_eq_true, Bool.or_eq_true, decide_eq_true_eq, beq_iff_eq, bne_iff_ne, not_and, not_or]
    intro hd
    obtain ⟨h1, h2⟩ := h0 hd.symm
    refine ⟨fun e _ => ?_, fun _ e => ?_⟩
    · exact absurd e.1.symm h1
    · rw [hreg] at e; exact h2 e.symm
  simp only [addResultOf, this, resultDue, modRoom]
  rfl

theorem addResult_free {s : State} {r due : Nat} {port : Port} {op : MicroOp} {reg : Nat × Nat}
    (hreg : microReg { due := due, ord := 0, issued := s.beat, port := port, op := op } = some reg)
    (h : PortFree s r due port reg) : addResult s r due port op = resultDue s r due port op := addResultOf_free hreg h

/-- A claim that is allowed takes its banks, and nothing else changes. -/
theorem claim_ok {s : State} {r off n beat : Nat} (arr src : Nat) (h : Claimable s r off n beat) :
    claim s r arr src off n beat = .ok (withBanks s r src off n beat) := by
  obtain ⟨h1, h2, h3, h4, h5⟩ := h
  have : (getRoom s r).banks.filter (fun u => decide (u.beat = beat ∧ u.bank ∈ banksOf off n)) = [] := by
    rw [List.filter_eq_nil_iff]; intro p hp; simpa using h5 p hp
  simp only [claim, this]
  rw [if_neg (by omega)]
  rfl

/-- What a claim may change, where it succeeds. -/
theorem claim_one {s t : State} {r arr src off n beat : Nat} (h : claim s r arr src off n beat = .ok t) : OneRoom r s t := by
  unfold claim at h
  split at h
  · cases h
  · dsimp only at h
    split at h
    · cases h; exact setRoom_one s r _
    · cases h

theorem claimRows_one {r arr stride n : Nat} (k : Nat) : ∀ {s t : State} {src off beat : Nat}, claimRows s r arr src off stride n beat k = .ok t → OneRoom r s t := by
  induction k with
  | zero => intro s t src off beat h; cases h; exact OneRoom.refl r s
  | succ k ih =>
    intro s t src off beat h
    simp only [claimRows, Except.bind] at h
    split at h
    · cases h
    · rename_i v hv
      exact OneRoom.trans (claim_one hv) (ih h)

theorem countWeak_one (s : State) (r a n : Nat) : OneRoom r s (countWeak s a n) := by
  unfold countWeak
  split
  · exact OneRoom.refl r s
  · exact ⟨fun _ _ => rfl, rfl⟩

theorem readNow_one {s t : State} {r arr src off n beat : Nat} {bs : List Byte} (h : readNow s r arr src off n beat = .ok (t, bs)) : OneRoom r s t := by
  simp only [readNow, Except.bind] at h
  split at h
  · cases h
  · rename_i v hv
    simp only [storeFetch] at h
    split at h
    · rename_i w bs' hw
      injection hw with h1 h2
      cases h
      rw [← h1]
      exact OneRoom.trans (claim_one hv) (countWeak_one _ r _ _)
    · cases h

theorem rowScales_one {s t : State} {r gb off n : Nat} {l : List Nat} (h : rowScales s r gb off n = .ok (t, l)) : OneRoom r s t := by
  simp only [rowScales, Except.bind] at h
  repeat' split at h
  all_goals first
    | (cases h; done)
    | (cases h; exact OneRoom.refl r _)
    | (rename_i v hv; cases h; exact OneRoom.trans (readNow_one hv) (modRoom_one _ r _))

theorem useGang_one {s t : State} {r gb gs gp : Nat} {x : Nat × Nat × Nat} (h : useGang s r gb gs gp = .ok (t, x)) : OneRoom r s t := by
  unfold useGang at h
  split at h
  · cases h
  · dsimp only at h
    repeat' split at h
    · cases h; exact OneRoom.refl r s
    · cases h
    · cases h; exact setRoom_one s r _

/-! ### What bodies share -/

theorem foldl_one {α : Type} {r : Nat} {f : State → α → State} (h : ∀ s x, OneRoom r s (f s x)) (l : List α) : ∀ s, OneRoom r s (l.foldl f s) := by
  induction l with
  | nil => exact fun s => OneRoom.refl r s
  | cons x l ih => exact fun s => OneRoom.trans (h s x) (ih _)

theorem caseEvents_one (s : State) (r : Nat) (c : CaseCounts) (key unit : Nat) (items : Items) : OneRoom r s (caseEvents s c key unit items) := by
  have go (s : State) (n code : Nat) : OneRoom r s (if n = 0 then s else numericEvent s code key unit items) :=
    ite_one (OneRoom.refl r s) (numericEvent_one s r code key unit items)
  exact OneRoom.trans (go _ _ _) (OneRoom.trans (go _ _ _) (OneRoom.trans (go _ _ _) (OneRoom.trans (go _ _ _) (go _ _ _))))

theorem vecNote_one (s : State) (r : Nat) (v : VecCases) : OneRoom r s (vecNote s r v) :=
  ite_one (OneRoom.refl r s) (OneRoom.trans (addAction_one s r _ _ _) (caseEvents_one _ r _ _ _ _))

theorem waitEnds_one (s : State) (r : Nat) (h : Hold) : OneRoom r s (waitEnds s r h) :=
  ite_one (OneRoom.trans (setRoom_one s r _) (OneRoom.trans (recordFault_one _ r _ _ _) (stopRoom_one _ r _ _))) (setRoom_one s r _)

theorem arriveRoom_one (s : State) (r : Nat) : OneRoom r s (arriveRoom s r) := by
  unfold arriveRoom
  dsimp only
  split
  · exact OneRoom.refl r _
  · exact ite_one (setSeq_one _ r _) (OneRoom.refl r _)

theorem startFill_one (s : State) (r ph : Nat) : OneRoom r s (startFill s r ph) := modRoom_one s r _

theorem runRoom_one (s : State) (r : Nat) : OneRoom r s (runRoom s r) := ite_one (modRoom_one s r _) (modRoom_one s r _)

theorem enterPhase_one (s : State) (r ph b : Nat) : OneRoom r s (enterPhase s ph r b) :=
  OneRoom.trans (ite_one (OneRoom.refl r s) (startFill_one s r ph)) (OneRoom.trans (modRoom_one _ r _) (runRoom_one _ r))

theorem endProgram_one (s : State) (r : Nat) (run : RunState) (ph : Nat) : OneRoom r s (endProgram s r run ph) := by
  have h : OneRoom r s (startFill (modRoom s r (fun q => { q with run := run, hold := none })) r ph) :=
    OneRoom.trans (modRoom_one s r _) (startFill_one _ r ph)
  have k := ite_one (c := (getRoom s r).synced = true) h (OneRoom.trans h (arriveRoom_one _ r))
  unfold endProgram
  dsimp only
  split
  · exact ite_one (OneRoom.trans k (OneRoom.trans (modRoom_one _ r _) (arriveRoom_one _ r)))
      (OneRoom.trans k (OneRoom.trans (startFill_one _ r _) (OneRoom.trans (modRoom_one _ r _) (enterPhase_one _ r _ _))))
  · exact k

/-! ### Slots -/

theorem runSlot_ok {s : State} {r : Nat} {legal : Bool} {body : Room → SlotRes} {t : State} (h : issuing s r = true) (hl : legal = true)
    (hb : body (getRoom s r) = .ok t) : runSlot s r legal body = t := by
  simp [runSlot, h, hl, hb]

theorem runSlot_error {s : State} {r : Nat} {legal : Bool} {body : Room → SlotRes} {e : SlotFault} (h : issuing s r = true) (hl : legal = true)
    (hb : body (getRoom s r) = .error e) : runSlot s r legal body = slotStop s r e := by
  simp [runSlot, h, hl, hb]

theorem runSlot_illegal {s : State} {r : Nat} {legal : Bool} {body : Room → SlotRes} (h : issuing s r = true) (hl : legal = false) :
    runSlot s r legal body = stopRoom s r codeIllegal 0 := by
  simp [runSlot, h, hl]

theorem runSlot_idle {s : State} {r : Nat} {legal : Bool} {body : Room → SlotRes} (h : issuing s r = false) : runSlot s r legal body = s := by
  simp [runSlot, h]

theorem slotStop_one (s : State) (r : Nat) (e : SlotFault) : OneRoom r s (slotStop s r e) :=
  OneRoom.trans (ite_one (OneRoom.refl r s) (modRoom_one s r _)) (stopRoom_one _ r _ _)

/-- What a slot may change is what its body may. -/
theorem runSlot_one {s : State} {r : Nat} {legal : Bool} {body : Room → SlotRes} (h : ∀ t, body (getRoom s r) = .ok t → OneRoom r s t) :
    OneRoom r s (runSlot s r legal body) := by
  unfold runSlot
  split
  · exact OneRoom.refl r s
  · split
    · exact stopRoom_one s r _ _
    · split
      · rename_i t ht; exact h t ht
      · exact slotStop_one s r _

end Sys2Proof.Laws
end

