-- ==== Sys2Proof/Laws/State.lean ====
section
/-!
SUPPORT. What each named update of the state leaves alone, one lemma per field, so that no later proof unfolds a record update.
-/
namespace Sys2Proof.Laws
open Sys2Proof.Machine

variable (s : State)

@[simp] theorem regSet_pending (a : Nat) (v : Word) : (regSet s a v).pending = s.pending := rfl
@[simp] theorem regSet_now (a : Nat) (v : Word) : (regSet s a v).now = s.now := rfl
@[simp] theorem regSet_beat (a : Nat) (v : Word) : (regSet s a v).beat = s.beat := rfl
@[simp] theorem regSet_freeCount (a : Nat) (v : Word) : (regSet s a v).freeCount = s.freeCount := rfl
@[simp] theorem regSet_mem (a : Nat) (v : Word) : (regSet s a v).mem = s.mem := rfl
@[simp] theorem regSet_poison (a : Nat) (v : Word) : (regSet s a v).poison = s.poison := rfl
@[simp] theorem regSet_badWords (a : Nat) (v : Word) : (regSet s a v).badWords = s.badWords := rfl
@[simp] theorem regSet_weakWords (a : Nat) (v : Word) : (regSet s a v).weakWords = s.weakWords := rfl
@[simp] theorem regSet_storeCe (a : Nat) (v : Word) : (regSet s a v).storeCe = s.storeCe := rfl
@[simp] theorem regSet_rooms (a : Nat) (v : Word) : (regSet s a v).rooms = s.rooms := rfl
@[simp] theorem regSet_numSeen (a : Nat) (v : Word) : (regSet s a v).numSeen = s.numSeen := rfl
@[simp] theorem regSet_numCand (a : Nat) (v : Word) : (regSet s a v).numCand = s.numCand := rfl
@[simp] theorem regSet_conv (a : Nat) (v : Word) : (regSet s a v).conv = s.conv := rfl
@[simp] theorem regSet_evr (a : Nat) (v : Word) : (regSet s a v).evr = s.evr := rfl
@[simp] theorem regSet_irq (a : Nat) (v : Word) : (regSet s a v).irq = s.irq := rfl
@[simp] theorem regSet_cvu (a : Nat) (v : Word) : (regSet s a v).cvu = s.cvu := rfl
@[simp] theorem regSet_mgmt (a : Nat) (v : Word) : (regSet s a v).mgmt = s.mgmt := rfl
@[simp] theorem regSet_seq (a : Nat) (v : Word) : (regSet s a v).seq = s.seq := rfl
@[simp] theorem regSet_cel (a : Nat) (v : Word) : (regSet s a v).cel = s.cel := rfl
@[simp] theorem regSet_sec (a : Nat) (v : Word) : (regSet s a v).sec = s.sec := rfl
@[simp] theorem regSet_jrnl (a : Nat) (v : Word) : (regSet s a v).jrnl = s.jrnl := rfl
@[simp] theorem regSet_fab (a : Nat) (v : Word) : (regSet s a v).fab = s.fab := rfl
@[simp] theorem regSet_ldr (a : Nat) (v : Word) : (regSet s a v).ldr = s.ldr := rfl
@[simp] theorem regSet_att (a : Nat) (v : Word) : (regSet s a v).att = s.att := rfl
@[simp] theorem regSet_den (a : Nat) (v : Word) : (regSet s a v).den = s.den := rfl
@[simp] theorem regSet_col (a : Nat) (v : Word) : (regSet s a v).col = s.col := rfl
@[simp] theorem regSet_por (a : Nat) (v : Word) : (regSet s a v).por = s.por := rfl
@[simp] theorem regSet_job (a : Nat) (v : Word) : (regSet s a v).job = s.job := rfl
@[simp] theorem regSet_pol (a : Nat) (v : Word) : (regSet s a v).pol = s.pol := rfl
@[simp] theorem regSet_lastRead (a : Nat) (v : Word) : (regSet s a v).lastRead = s.lastRead := rfl

@[simp] theorem regPut_pending (a hi lo v : Nat) : (regPut s a hi lo v).pending = s.pending := rfl
@[simp] theorem regPut_now (a hi lo v : Nat) : (regPut s a hi lo v).now = s.now := rfl
@[simp] theorem regPut_beat (a hi lo v : Nat) : (regPut s a hi lo v).beat = s.beat := rfl
@[simp] theorem regPut_freeCount (a hi lo v : Nat) : (regPut s a hi lo v).freeCount = s.freeCount := rfl
@[simp] theorem regPut_mem (a hi lo v : Nat) : (regPut s a hi lo v).mem = s.mem := rfl
@[simp] theorem regPut_poison (a hi lo v : Nat) : (regPut s a hi lo v).poison = s.poison := rfl
@[simp] theorem regPut_badWords (a hi lo v : Nat) : (regPut s a hi lo v).badWords = s.badWords := rfl
@[simp] theorem regPut_weakWords (a hi lo v : Nat) : (regPut s a hi lo v).weakWords = s.weakWords := rfl
@[simp] theorem regPut_storeCe (a hi lo v : Nat) : (regPut s a hi lo v).storeCe = s.storeCe := rfl
@[simp] theorem regPut_rooms (a hi lo v : Nat) : (regPut s a hi lo v).rooms = s.rooms := rfl
@[simp] theorem regPut_numSeen (a hi lo v : Nat) : (regPut s a hi lo v).numSeen = s.numSeen := rfl
@[simp] theorem regPut_numCand (a hi lo v : Nat) : (regPut s a hi lo v).numCand = s.numCand := rfl
@[simp] theorem regPut_conv (a hi lo v : Nat) : (regPut s a hi lo v).conv = s.conv := rfl
@[simp] theorem regPut_evr (a hi lo v : Nat) : (regPut s a hi lo v).evr = s.evr := rfl
@[simp] theorem regPut_irq (a hi lo v : Nat) : (regPut s a hi lo v).irq = s.irq := rfl
@[simp] theorem regPut_cvu (a hi lo v : Nat) : (regPut s a hi lo v).cvu = s.cvu := rfl
@[simp] theorem regPut_mgmt (a hi lo v : Nat) : (regPut s a hi lo v).mgmt = s.mgmt := rfl
@[simp] theorem regPut_seq (a hi lo v : Nat) : (regPut s a hi lo v).seq = s.seq := rfl
@[simp] theorem regPut_cel (a hi lo v : Nat) : (regPut s a hi lo v).cel = s.cel := rfl
@[simp] theorem regPut_sec (a hi lo v : Nat) : (regPut s a hi lo v).sec = s.sec := rfl
@[simp] theorem regPut_jrnl (a hi lo v : Nat) : (regPut s a hi lo v).jrnl = s.jrnl := rfl
@[simp] theorem regPut_fab (a hi lo v : Nat) : (regPut s a hi lo v).fab = s.fab := rfl
@[simp] theorem regPut_ldr (a hi lo v : Nat) : (regPut s a hi lo v).ldr = s.ldr := rfl
@[simp] theorem regPut_att (a hi lo v : Nat) : (regPut s a hi lo v).att = s.att := rfl
@[simp] theorem regPut_den (a hi lo v : Nat) : (regPut s a hi lo v).den = s.den := rfl
@[simp] theorem regPut_col (a hi lo v : Nat) : (regPut s a hi lo v).col = s.col := rfl
@[simp] theorem regPut_por (a hi lo v : Nat) : (regPut s a hi lo v).por = s.por := rfl
@[simp] theorem regPut_job (a hi lo v : Nat) : (regPut s a hi lo v).job = s.job := rfl
@[simp] theorem regPut_pol (a hi lo v : Nat) : (regPut s a hi lo v).pol = s.pol := rfl
@[simp] theorem regPut_lastRead (a hi lo v : Nat) : (regPut s a hi lo v).lastRead = s.lastRead := rfl

@[simp] theorem regCount_pending (a hi lo n : Nat) : (regCount s a hi lo n).pending = s.pending := rfl
@[simp] theorem regCount_now (a hi lo n : Nat) : (regCount s a hi lo n).now = s.now := rfl
@[simp] theorem regCount_beat (a hi lo n : Nat) : (regCount s a hi lo n).beat = s.beat := rfl
@[simp] theorem regCount_freeCount (a hi lo n : Nat) : (regCount s a hi lo n).freeCount = s.freeCount := rfl
@[simp] theorem regCount_mem (a hi lo n : Nat) : (regCount s a hi lo n).mem = s.mem := rfl
@[simp] theorem regCount_poison (a hi lo n : Nat) : (regCount s a hi lo n).poison = s.poison := rfl
@[simp] theorem regCount_badWords (a hi lo n : Nat) : (regCount s a hi lo n).badWords = s.badWords := rfl
@[simp] theorem regCount_weakWords (a hi lo n : Nat) : (regCount s a hi lo n).weakWords = s.weakWords := rfl
@[simp] theorem regCount_storeCe (a hi lo n : Nat) : (regCount s a hi lo n).storeCe = s.storeCe := rfl
@[simp] theorem regCount_rooms (a hi lo n : Nat) : (regCount s a hi lo n).rooms = s.rooms := rfl
@[simp] theorem regCount_numSeen (a hi lo n : Nat) : (regCount s a hi lo n).numSeen = s.numSeen := rfl
@[simp] theorem regCount_numCand (a hi lo n : Nat) : (regCount s a hi lo n).numCand = s.numCand := rfl
@[simp] theorem regCount_conv (a hi lo n : Nat) : (regCount s a hi lo n).conv = s.conv := rfl
@[simp] theorem regCount_evr (a hi lo n : Nat) : (regCount s a hi lo n).evr = s.evr := rfl
@[simp] theorem regCount_irq (a hi lo n : Nat) : (regCount s a hi lo n).irq = s.irq := rfl
@[simp] theorem regCount_cvu (a hi lo n : Nat) : (regCount s a hi lo n).cvu = s.cvu := rfl
@[simp] theorem regCount_mgmt (a hi lo n : Nat) : (regCount s a hi lo n).mgmt = s.mgmt := rfl
@[simp] theorem regCount_seq (a hi lo n : Nat) : (regCount s a hi lo n).seq = s.seq := rfl
@[simp] theorem regCount_cel (a hi lo n : Nat) : (regCount s a hi lo n).cel = s.cel := rfl
@[simp] theorem regCount_sec (a hi lo n : Nat) : (regCount s a hi lo n).sec = s.sec := rfl
@[simp] theorem regCount_jrnl (a hi lo n : Nat) : (regCount s a hi lo n).jrnl = s.jrnl := rfl
@[simp] theorem regCount_fab (a hi lo n : Nat) : (regCount s a hi lo n).fab = s.fab := rfl
@[simp] theorem regCount_ldr (a hi lo n : Nat) : (regCount s a hi lo n).ldr = s.ldr := rfl
@[simp] theorem regCount_att (a hi lo n : Nat) : (regCount s a hi lo n).att = s.att := rfl
@[simp] theorem regCount_den (a hi lo n : Nat) : (regCount s a hi lo n).den = s.den := rfl
@[simp] theorem regCount_col (a hi lo n : Nat) : (regCount s a hi lo n).col = s.col := rfl
@[simp] theorem regCount_por (a hi lo n : Nat) : (regCount s a hi lo n).por = s.por := rfl
@[simp] theorem regCount_job (a hi lo n : Nat) : (regCount s a hi lo n).job = s.job := rfl
@[simp] theorem regCount_pol (a hi lo n : Nat) : (regCount s a hi lo n).pol = s.pol := rfl
@[simp] theorem regCount_lastRead (a hi lo n : Nat) : (regCount s a hi lo n).lastRead = s.lastRead := rfl

@[simp] theorem regStore_pending (a : Nat) (v : Word) : (regStore s a v).pending = s.pending := rfl
@[simp] theorem regStore_now (a : Nat) (v : Word) : (regStore s a v).now = s.now := rfl
@[simp] theorem regStore_beat (a : Nat) (v : Word) : (regStore s a v).beat = s.beat := rfl
@[simp] theorem regStore_freeCount (a : Nat) (v : Word) : (regStore s a v).freeCount = s.freeCount := rfl
@[simp] theorem regStore_cyc (a : Nat) (v : Word) : (regStore s a v).cyc = s.cyc := rfl
@[simp] theorem regStore_mem (a : Nat) (v : Word) : (regStore s a v).mem = s.mem := rfl
@[simp] theorem regStore_poison (a : Nat) (v : Word) : (regStore s a v).poison = s.poison := rfl
@[simp] theorem regStore_badWords (a : Nat) (v : Word) : (regStore s a v).badWords = s.badWords := rfl
@[simp] theorem regStore_weakWords (a : Nat) (v : Word) : (regStore s a v).weakWords = s.weakWords := rfl
@[simp] theorem regStore_storeCe (a : Nat) (v : Word) : (regStore s a v).storeCe = s.storeCe := rfl
@[simp] theorem regStore_rooms (a : Nat) (v : Word) : (regStore s a v).rooms = s.rooms := rfl
@[simp] theorem regStore_numSeen (a : Nat) (v : Word) : (regStore s a v).numSeen = s.numSeen := rfl
@[simp] theorem regStore_numCand (a : Nat) (v : Word) : (regStore s a v).numCand = s.numCand := rfl
@[simp] theorem regStore_conv (a : Nat) (v : Word) : (regStore s a v).conv = s.conv := rfl
@[simp] theorem regStore_evr (a : Nat) (v : Word) : (regStore s a v).evr = s.evr := rfl
@[simp] theorem regStore_irq (a : Nat) (v : Word) : (regStore s a v).irq = s.irq := rfl
@[simp] theorem regStore_cvu (a : Nat) (v : Word) : (regStore s a v).cvu = s.cvu := rfl
@[simp] theorem regStore_mgmt (a : Nat) (v : Word) : (regStore s a v).mgmt = s.mgmt := rfl
@[simp] theorem regStore_seq (a : Nat) (v : Word) : (regStore s a v).seq = s.seq := rfl
@[simp] theorem regStore_cel (a : Nat) (v : Word) : (regStore s a v).cel = s.cel := rfl
@[simp] theorem regStore_sec (a : Nat) (v : Word) : (regStore s a v).sec = s.sec := rfl
@[simp] theorem regStore_jrnl (a : Nat) (v : Word) : (regStore s a v).jrnl = s.jrnl := rfl
@[simp] theorem regStore_fab (a : Nat) (v : Word) : (regStore s a v).fab = s.fab := rfl
@[simp] theorem regStore_ldr (a : Nat) (v : Word) : (regStore s a v).ldr = s.ldr := rfl
@[simp] theorem regStore_att (a : Nat) (v : Word) : (regStore s a v).att = s.att := rfl
@[simp] theorem regStore_den (a : Nat) (v : Word) : (regStore s a v).den = s.den := rfl
@[simp] theorem regStore_col (a : Nat) (v : Word) : (regStore s a v).col = s.col := rfl
@[simp] theorem regStore_por (a : Nat) (v : Word) : (regStore s a v).por = s.por := rfl
@[simp] theorem regStore_job (a : Nat) (v : Word) : (regStore s a v).job = s.job := rfl
@[simp] theorem regStore_pol (a : Nat) (v : Word) : (regStore s a v).pol = s.pol := rfl
@[simp] theorem regStore_lastRead (a : Nat) (v : Word) : (regStore s a v).lastRead = s.lastRead := rfl

@[simp] theorem regPeak_pending (a hi lo v : Nat) : (regPeak s a hi lo v).pending = s.pending := rfl
@[simp] theorem regPeak_now (a hi lo v : Nat) : (regPeak s a hi lo v).now = s.now := rfl
@[simp] theorem regPeak_beat (a hi lo v : Nat) : (regPeak s a hi lo v).beat = s.beat := rfl
@[simp] theorem regPeak_freeCount (a hi lo v : Nat) : (regPeak s a hi lo v).freeCount = s.freeCount := rfl
@[simp] theorem regPeak_mem (a hi lo v : Nat) : (regPeak s a hi lo v).mem = s.mem := rfl
@[simp] theorem regPeak_poison (a hi lo v : Nat) : (regPeak s a hi lo v).poison = s.poison := rfl
@[simp] theorem regPeak_badWords (a hi lo v : Nat) : (regPeak s a hi lo v).badWords = s.badWords := rfl
@[simp] theorem regPeak_weakWords (a hi lo v : Nat) : (regPeak s a hi lo v).weakWords = s.weakWords := rfl
@[simp] theorem regPeak_storeCe (a hi lo v : Nat) : (regPeak s a hi lo v).storeCe = s.storeCe := rfl
@[simp] theorem regPeak_rooms (a hi lo v : Nat) : (regPeak s a hi lo v).rooms = s.rooms := rfl
@[simp] theorem regPeak_numSeen (a hi lo v : Nat) : (regPeak s a hi lo v).numSeen = s.numSeen := rfl
@[simp] theorem regPeak_numCand (a hi lo v : Nat) : (regPeak s a hi lo v).numCand = s.numCand := rfl
@[simp] theorem regPeak_conv (a hi lo v : Nat) : (regPeak s a hi lo v).conv = s.conv := rfl
@[simp] theorem regPeak_evr (a hi lo v : Nat) : (regPeak s a hi lo v).evr = s.evr := rfl
@[simp] theorem regPeak_irq (a hi lo v : Nat) : (regPeak s a hi lo v).irq = s.irq := rfl
@[simp] theorem regPeak_cvu (a hi lo v : Nat) : (regPeak s a hi lo v).cvu = s.cvu := rfl
@[simp] theorem regPeak_mgmt (a hi lo v : Nat) : (regPeak s a hi lo v).mgmt = s.mgmt := rfl
@[simp] theorem regPeak_seq (a hi lo v : Nat) : (regPeak s a hi lo v).seq = s.seq := rfl
@[simp] theorem regPeak_cel (a hi lo v : Nat) : (regPeak s a hi lo v).cel = s.cel := rfl
@[simp] theorem regPeak_sec (a hi lo v : Nat) : (regPeak s a hi lo v).sec = s.sec := rfl
@[simp] theorem regPeak_jrnl (a hi lo v : Nat) : (regPeak s a hi lo v).jrnl = s.jrnl := rfl
@[simp] theorem regPeak_fab (a hi lo v : Nat) : (regPeak s a hi lo v).fab = s.fab := rfl
@[simp] theorem regPeak_ldr (a hi lo v : Nat) : (regPeak s a hi lo v).ldr = s.ldr := rfl
@[simp] theorem regPeak_att (a hi lo v : Nat) : (regPeak s a hi lo v).att = s.att := rfl
@[simp] theorem regPeak_den (a hi lo v : Nat) : (regPeak s a hi lo v).den = s.den := rfl
@[simp] theorem regPeak_col (a hi lo v : Nat) : (regPeak s a hi lo v).col = s.col := rfl
@[simp] theorem regPeak_por (a hi lo v : Nat) : (regPeak s a hi lo v).por = s.por := rfl
@[simp] theorem regPeak_job (a hi lo v : Nat) : (regPeak s a hi lo v).job = s.job := rfl
@[simp] theorem regPeak_pol (a hi lo v : Nat) : (regPeak s a hi lo v).pol = s.pol := rfl
@[simp] theorem regPeak_lastRead (a hi lo v : Nat) : (regPeak s a hi lo v).lastRead = s.lastRead := rfl

@[simp] theorem regPeakSigned_pending (a hi lo v : Nat) : (regPeakSigned s a hi lo v).pending = s.pending := rfl
@[simp] theorem regPeakSigned_now (a hi lo v : Nat) : (regPeakSigned s a hi lo v).now = s.now := rfl
@[simp] theorem regPeakSigned_beat (a hi lo v : Nat) : (regPeakSigned s a hi lo v).beat = s.beat := rfl
@[simp] theorem regPeakSigned_freeCount (a hi lo v : Nat) : (regPeakSigned s a hi lo v).freeCount = s.freeCount := rfl
@[simp] theorem regPeakSigned_mem (a hi lo v : Nat) : (regPeakSigned s a hi lo v).mem = s.mem := rfl
@[simp] theorem regPeakSigned_poison (a hi lo v : Nat) : (regPeakSigned s a hi lo v).poison = s.poison := rfl
@[simp] theorem regPeakSigned_badWords (a hi lo v : Nat) : (regPeakSigned s a hi lo v).badWords = s.badWords := rfl
@[simp] theorem regPeakSigned_weakWords (a hi lo v : Nat) : (regPeakSigned s a hi lo v).weakWords = s.weakWords := rfl
@[simp] theorem regPeakSigned_storeCe (a hi lo v : Nat) : (regPeakSigned s a hi lo v).storeCe = s.storeCe := rfl
@[simp] theorem regPeakSigned_rooms (a hi lo v : Nat) : (regPeakSigned s a hi lo v).rooms = s.rooms := rfl
@[simp] theorem regPeakSigned_numSeen (a hi lo v : Nat) : (regPeakSigned s a hi lo v).numSeen = s.numSeen := rfl
@[simp] theorem regPeakSigned_numCand (a hi lo v : Nat) : (regPeakSigned s a hi lo v).numCand = s.numCand := rfl
@[simp] theorem regPeakSigned_conv (a hi lo v : Nat) : (regPeakSigned s a hi lo v).conv = s.conv := rfl
@[simp] theorem regPeakSigned_evr (a hi lo v : Nat) : (regPeakSigned s a hi lo v).evr = s.evr := rfl
@[simp] theorem regPeakSigned_irq (a hi lo v : Nat) : (regPeakSigned s a hi lo v).irq = s.irq := rfl
@[simp] theorem regPeakSigned_cvu (a hi lo v : Nat) : (regPeakSigned s a hi lo v).cvu = s.cvu := rfl
@[simp] theorem regPeakSigned_mgmt (a hi lo v : Nat) : (regPeakSigned s a hi lo v).mgmt = s.mgmt := rfl
@[simp] theorem regPeakSigned_seq (a hi lo v : Nat) : (regPeakSigned s a hi lo v).seq = s.seq := rfl
@[simp] theorem regPeakSigned_cel (a hi lo v : Nat) : (regPeakSigned s a hi lo v).cel = s.cel := rfl
@[simp] theorem regPeakSigned_sec (a hi lo v : Nat) : (regPeakSigned s a hi lo v).sec = s.sec := rfl
@[simp] theorem regPeakSigned_jrnl (a hi lo v : Nat) : (regPeakSigned s a hi lo v).jrnl = s.jrnl := rfl
@[simp] theorem regPeakSigned_fab (a hi lo v : Nat) : (regPeakSigned s a hi lo v).fab = s.fab := rfl
@[simp] theorem regPeakSigned_ldr (a hi lo v : Nat) : (regPeakSigned s a hi lo v).ldr = s.ldr := rfl
@[simp] theorem regPeakSigned_att (a hi lo v : Nat) : (regPeakSigned s a hi lo v).att = s.att := rfl
@[simp] theorem regPeakSigned_den (a hi lo v : Nat) : (regPeakSigned s a hi lo v).den = s.den := rfl
@[simp] theorem regPeakSigned_col (a hi lo v : Nat) : (regPeakSigned s a hi lo v).col = s.col := rfl
@[simp] theorem regPeakSigned_por (a hi lo v : Nat) : (regPeakSigned s a hi lo v).por = s.por := rfl
@[simp] theorem regPeakSigned_job (a hi lo v : Nat) : (regPeakSigned s a hi lo v).job = s.job := rfl
@[simp] theorem regPeakSigned_pol (a hi lo v : Nat) : (regPeakSigned s a hi lo v).pol = s.pol := rfl
@[simp] theorem regPeakSigned_lastRead (a hi lo v : Nat) : (regPeakSigned s a hi lo v).lastRead = s.lastRead := rfl

@[simp] theorem putBytes_pending (a : Nat) (bs : List Byte) : (putBytes s a bs).pending = s.pending := rfl
@[simp] theorem putBytes_now (a : Nat) (bs : List Byte) : (putBytes s a bs).now = s.now := rfl
@[simp] theorem putBytes_beat (a : Nat) (bs : List Byte) : (putBytes s a bs).beat = s.beat := rfl
@[simp] theorem putBytes_freeCount (a : Nat) (bs : List Byte) : (putBytes s a bs).freeCount = s.freeCount := rfl
@[simp] theorem putBytes_regs (a : Nat) (bs : List Byte) : (putBytes s a bs).regs = s.regs := rfl
@[simp] theorem putBytes_cyc (a : Nat) (bs : List Byte) : (putBytes s a bs).cyc = s.cyc := rfl
@[simp] theorem putBytes_poison (a : Nat) (bs : List Byte) : (putBytes s a bs).poison = s.poison := rfl
@[simp] theorem putBytes_badWords (a : Nat) (bs : List Byte) : (putBytes s a bs).badWords = s.badWords := rfl
@[simp] theorem putBytes_weakWords (a : Nat) (bs : List Byte) : (putBytes s a bs).weakWords = s.weakWords := rfl
@[simp] theorem putBytes_storeCe (a : Nat) (bs : List Byte) : (putBytes s a bs).storeCe = s.storeCe := rfl
@[simp] theorem putBytes_rooms (a : Nat) (bs : List Byte) : (putBytes s a bs).rooms = s.rooms := rfl
@[simp] theorem putBytes_numSeen (a : Nat) (bs : List Byte) : (putBytes s a bs).numSeen = s.numSeen := rfl
@[simp] theorem putBytes_numCand (a : Nat) (bs : List Byte) : (putBytes s a bs).numCand = s.numCand := rfl
@[simp] theorem putBytes_conv (a : Nat) (bs : List Byte) : (putBytes s a bs).conv = s.conv := rfl
@[simp] theorem putBytes_evr (a : Nat) (bs : List Byte) : (putBytes s a bs).evr = s.evr := rfl
@[simp] theorem putBytes_irq (a : Nat) (bs : List Byte) : (putBytes s a bs).irq = s.irq := rfl
@[simp] theorem putBytes_cvu (a : Nat) (bs : List Byte) : (putBytes s a bs).cvu = s.cvu := rfl
@[simp] theorem putBytes_mgmt (a : Nat) (bs : List Byte) : (putBytes s a bs).mgmt = s.mgmt := rfl
@[simp] theorem putBytes_seq (a : Nat) (bs : List Byte) : (putBytes s a bs).seq = s.seq := rfl
@[simp] theorem putBytes_cel (a : Nat) (bs : List Byte) : (putBytes s a bs).cel = s.cel := rfl
@[simp] theorem putBytes_sec (a : Nat) (bs : List Byte) : (putBytes s a bs).sec = s.sec := rfl
@[simp] theorem putBytes_jrnl (a : Nat) (bs : List Byte) : (putBytes s a bs).jrnl = s.jrnl := rfl
@[simp] theorem putBytes_fab (a : Nat) (bs : List Byte) : (putBytes s a bs).fab = s.fab := rfl
@[simp] theorem putBytes_ldr (a : Nat) (bs : List Byte) : (putBytes s a bs).ldr = s.ldr := rfl
@[simp] theorem putBytes_att (a : Nat) (bs : List Byte) : (putBytes s a bs).att = s.att := rfl
@[simp] theorem putBytes_den (a : Nat) (bs : List Byte) : (putBytes s a bs).den = s.den := rfl
@[simp] theorem putBytes_col (a : Nat) (bs : List Byte) : (putBytes s a bs).col = s.col := rfl
@[simp] theorem putBytes_por (a : Nat) (bs : List Byte) : (putBytes s a bs).por = s.por := rfl
@[simp] theorem putBytes_job (a : Nat) (bs : List Byte) : (putBytes s a bs).job = s.job := rfl
@[simp] theorem putBytes_pol (a : Nat) (bs : List Byte) : (putBytes s a bs).pol = s.pol := rfl
@[simp] theorem putBytes_lastRead (a : Nat) (bs : List Byte) : (putBytes s a bs).lastRead = s.lastRead := rfl

@[simp] theorem setRoom_pending (r : Nat) (q : Room) : (setRoom s r q).pending = s.pending := rfl
@[simp] theorem setRoom_now (r : Nat) (q : Room) : (setRoom s r q).now = s.now := rfl
@[simp] theorem setRoom_beat (r : Nat) (q : Room) : (setRoom s r q).beat = s.beat := rfl
@[simp] theorem setRoom_freeCount (r : Nat) (q : Room) : (setRoom s r q).freeCount = s.freeCount := rfl
@[simp] theorem setRoom_regs (r : Nat) (q : Room) : (setRoom s r q).regs = s.regs := rfl
@[simp] theorem setRoom_cyc (r : Nat) (q : Room) : (setRoom s r q).cyc = s.cyc := rfl
@[simp] theorem setRoom_mem (r : Nat) (q : Room) : (setRoom s r q).mem = s.mem := rfl
@[simp] theorem setRoom_poison (r : Nat) (q : Room) : (setRoom s r q).poison = s.poison := rfl
@[simp] theorem setRoom_badWords (r : Nat) (q : Room) : (setRoom s r q).badWords = s.badWords := rfl
@[simp] theorem setRoom_weakWords (r : Nat) (q : Room) : (setRoom s r q).weakWords = s.weakWords := rfl
@[simp] theorem setRoom_storeCe (r : Nat) (q : Room) : (setRoom s r q).storeCe = s.storeCe := rfl
@[simp] theorem setRoom_numSeen (r : Nat) (q : Room) : (setRoom s r q).numSeen = s.numSeen := rfl
@[simp] theorem setRoom_numCand (r : Nat) (q : Room) : (setRoom s r q).numCand = s.numCand := rfl
@[simp] theorem setRoom_conv (r : Nat) (q : Room) : (setRoom s r q).conv = s.conv := rfl
@[simp] theorem setRoom_evr (r : Nat) (q : Room) : (setRoom s r q).evr = s.evr := rfl
@[simp] theorem setRoom_irq (r : Nat) (q : Room) : (setRoom s r q).irq = s.irq := rfl
@[simp] theorem setRoom_cvu (r : Nat) (q : Room) : (setRoom s r q).cvu = s.cvu := rfl
@[simp] theorem setRoom_mgmt (r : Nat) (q : Room) : (setRoom s r q).mgmt = s.mgmt := rfl
@[simp] theorem setRoom_seq (r : Nat) (q : Room) : (setRoom s r q).seq = s.seq := rfl
@[simp] theorem setRoom_cel (r : Nat) (q : Room) : (setRoom s r q).cel = s.cel := rfl
@[simp] theorem setRoom_sec (r : Nat) (q : Room) : (setRoom s r q).sec = s.sec := rfl
@[simp] theorem setRoom_jrnl (r : Nat) (q : Room) : (setRoom s r q).jrnl = s.jrnl := rfl
@[simp] theorem setRoom_fab (r : Nat) (q : Room) : (setRoom s r q).fab = s.fab := rfl
@[simp] theorem setRoom_ldr (r : Nat) (q : Room) : (setRoom s r q).ldr = s.ldr := rfl
@[simp] theorem setRoom_att (r : Nat) (q : Room) : (setRoom s r q).att = s.att := rfl
@[simp] theorem setRoom_den (r : Nat) (q : Room) : (setRoom s r q).den = s.den := rfl
@[simp] theorem setRoom_col (r : Nat) (q : Room) : (setRoom s r q).col = s.col := rfl
@[simp] theorem setRoom_por (r : Nat) (q : Room) : (setRoom s r q).por = s.por := rfl
@[simp] theorem setRoom_job (r : Nat) (q : Room) : (setRoom s r q).job = s.job := rfl
@[simp] theorem setRoom_pol (r : Nat) (q : Room) : (setRoom s r q).pol = s.pol := rfl
@[simp] theorem setRoom_lastRead (r : Nat) (q : Room) : (setRoom s r q).lastRead = s.lastRead := rfl

@[simp] theorem modRoom_pending (r : Nat) (f : Room → Room) : (modRoom s r f).pending = s.pending := rfl
@[simp] theorem modRoom_now (r : Nat) (f : Room → Room) : (modRoom s r f).now = s.now := rfl
@[simp] theorem modRoom_beat (r : Nat) (f : Room → Room) : (modRoom s r f).beat = s.beat := rfl
@[simp] theorem modRoom_freeCount (r : Nat) (f : Room → Room) : (modRoom s r f).freeCount = s.freeCount := rfl
@[simp] theorem modRoom_regs (r : Nat) (f : Room → Room) : (modRoom s r f).regs = s.regs := rfl
@[simp] theorem modRoom_cyc (r : Nat) (f : Room → Room) : (modRoom s r f).cyc = s.cyc := rfl
@[simp] theorem modRoom_mem (r : Nat) (f : Room → Room) : (modRoom s r f).mem = s.mem := rfl
@[simp] theorem modRoom_poison (r : Nat) (f : Room → Room) : (modRoom s r f).poison = s.poison := rfl
@[simp] theorem modRoom_badWords (r : Nat) (f : Room → Room) : (modRoom s r f).badWords = s.badWords := rfl
@[simp] theorem modRoom_weakWords (r : Nat) (f : Room → Room) : (modRoom s r f).weakWords = s.weakWords := rfl
@[simp] theorem modRoom_storeCe (r : Nat) (f : Room → Room) : (modRoom s r f).storeCe = s.storeCe := rfl
@[simp] theorem modRoom_numSeen (r : Nat) (f : Room → Room) : (modRoom s r f).numSeen = s.numSeen := rfl
@[simp] theorem modRoom_numCand (r : Nat) (f : Room → Room) : (modRoom s r f).numCand = s.numCand := rfl
@[simp] theorem modRoom_conv (r : Nat) (f : Room → Room) : (modRoom s r f).conv = s.conv := rfl
@[simp] theorem modRoom_evr (r : Nat) (f : Room → Room) : (modRoom s r f).evr = s.evr := rfl
@[simp] theorem modRoom_irq (r : Nat) (f : Room → Room) : (modRoom s r f).irq = s.irq := rfl
@[simp] theorem modRoom_cvu (r : Nat) (f : Room → Room) : (modRoom s r f).cvu = s.cvu := rfl
@[simp] theorem modRoom_mgmt (r : Nat) (f : Room → Room) : (modRoom s r f).mgmt = s.mgmt := rfl
@[simp] theorem modRoom_seq (r : Nat) (f : Room → Room) : (modRoom s r f).seq = s.seq := rfl
@[simp] theorem modRoom_cel (r : Nat) (f : Room → Room) : (modRoom s r f).cel = s.cel := rfl
@[simp] theorem modRoom_sec (r : Nat) (f : Room → Room) : (modRoom s r f).sec = s.sec := rfl
@[simp] theorem modRoom_jrnl (r : Nat) (f : Room → Room) : (modRoom s r f).jrnl = s.jrnl := rfl
@[simp] theorem modRoom_fab (r : Nat) (f : Room → Room) : (modRoom s r f).fab = s.fab := rfl
@[simp] theorem modRoom_ldr (r : Nat) (f : Room → Room) : (modRoom s r f).ldr = s.ldr := rfl
@[simp] theorem modRoom_att (r : Nat) (f : Room → Room) : (modRoom s r f).att = s.att := rfl
@[simp] theorem modRoom_den (r : Nat) (f : Room → Room) : (modRoom s r f).den = s.den := rfl
@[simp] theorem modRoom_col (r : Nat) (f : Room → Room) : (modRoom s r f).col = s.col := rfl
@[simp] theorem modRoom_por (r : Nat) (f : Room → Room) : (modRoom s r f).por = s.por := rfl
@[simp] theorem modRoom_job (r : Nat) (f : Room → Room) : (modRoom s r f).job = s.job := rfl
@[simp] theorem modRoom_pol (r : Nat) (f : Room → Room) : (modRoom s r f).pol = s.pol := rfl
@[simp] theorem modRoom_lastRead (r : Nat) (f : Room → Room) : (modRoom s r f).lastRead = s.lastRead := rfl

@[simp] theorem addActionOf_pending (r issued src due ord : Nat) (op : MicroOp) : (addActionOf s r issued src due ord op).pending = s.pending := rfl
@[simp] theorem addActionOf_now (r issued src due ord : Nat) (op : MicroOp) : (addActionOf s r issued src due ord op).now = s.now := rfl
@[simp] theorem addActionOf_beat (r issued src due ord : Nat) (op : MicroOp) : (addActionOf s r issued src due ord op).beat = s.beat := rfl
@[simp] theorem addActionOf_freeCount (r issued src due ord : Nat) (op : MicroOp) : (addActionOf s r issued src due ord op).freeCount = s.freeCount := rfl
@[simp] theorem addActionOf_regs (r issued src due ord : Nat) (op : MicroOp) : (addActionOf s r issued src due ord op).regs = s.regs := rfl
@[simp] theorem addActionOf_cyc (r issued src due ord : Nat) (op : MicroOp) : (addActionOf s r issued src due ord op).cyc = s.cyc := rfl
@[simp] theorem addActionOf_mem (r issued src due ord : Nat) (op : MicroOp) : (addActionOf s r issued src due ord op).mem = s.mem := rfl
@[simp] theorem addActionOf_poison (r issued src due ord : Nat) (op : MicroOp) : (addActionOf s r issued src due ord op).poison = s.poison := rfl
@[simp] theorem addActionOf_badWords (r issued src due ord : Nat) (op : MicroOp) : (addActionOf s r issued src due ord op).badWords = s.badWords := rfl
@[simp] theorem addActionOf_weakWords (r issued src due ord : Nat) (op : MicroOp) : (addActionOf s r issued src due ord op).weakWords = s.weakWords := rfl
@[simp] theorem addActionOf_storeCe (r issued src due ord : Nat) (op : MicroOp) : (addActionOf s r issued src due ord op).storeCe = s.storeCe := rfl
@[simp] theorem addActionOf_numSeen (r issued src due ord : Nat) (op : MicroOp) : (addActionOf s r issued src due ord op).numSeen = s.numSeen := rfl
@[simp] theorem addActionOf_numCand (r issued src due ord : Nat) (op : MicroOp) : (addActionOf s r issued src due ord op).numCand = s.numCand := rfl
@[simp] theorem addActionOf_conv (r issued src due ord : Nat) (op : MicroOp) : (addActionOf s r issued src due ord op).conv = s.conv := rfl
@[simp] theorem addActionOf_evr (r issued src due ord : Nat) (op : MicroOp) : (addActionOf s r issued src due ord op).evr = s.evr := rfl
@[simp] theorem addActionOf_irq (r issued src due ord : Nat) (op : MicroOp) : (addActionOf s r issued src due ord op).irq = s.irq := rfl
@[simp] theorem addActionOf_cvu (r issued src due ord : Nat) (op : MicroOp) : (addActionOf s r issued src due ord op).cvu = s.cvu := rfl
@[simp] theorem addActionOf_mgmt (r issued src due ord : Nat) (op : MicroOp) : (addActionOf s r issued src due ord op).mgmt = s.mgmt := rfl
@[simp] theorem addActionOf_seq (r issued src due ord : Nat) (op : MicroOp) : (addActionOf s r issued src due ord op).seq = s.seq := rfl
@[simp] theorem addActionOf_cel (r issued src due ord : Nat) (op : MicroOp) : (addActionOf s r issued src due ord op).cel = s.cel := rfl
@[simp] theorem addActionOf_sec (r issued src due ord : Nat) (op : MicroOp) : (addActionOf s r issued src due ord op).sec = s.sec := rfl
@[simp] theorem addActionOf_jrnl (r issued src due ord : Nat) (op : MicroOp) : (addActionOf s r issued src due ord op).jrnl = s.jrnl := rfl
@[simp] theorem addActionOf_fab (r issued src due ord : Nat) (op : MicroOp) : (addActionOf s r issued src due ord op).fab = s.fab := rfl
@[simp] theorem addActionOf_ldr (r issued src due ord : Nat) (op : MicroOp) : (addActionOf s r issued src due ord op).ldr = s.ldr := rfl
@[simp] theorem addActionOf_att (r issued src due ord : Nat) (op : MicroOp) : (addActionOf s r issued src due ord op).att = s.att := rfl
@[simp] theorem addActionOf_den (r issued src due ord : Nat) (op : MicroOp) : (addActionOf s r issued src due ord op).den = s.den := rfl
@[simp] theorem addActionOf_col (r issued src due ord : Nat) (op : MicroOp) : (addActionOf s r issued src due ord op).col = s.col := rfl
@[simp] theorem addActionOf_por (r issued src due ord : Nat) (op : MicroOp) : (addActionOf s r issued src due ord op).por = s.por := rfl
@[simp] theorem addActionOf_job (r issued src due ord : Nat) (op : MicroOp) : (addActionOf s r issued src due ord op).job = s.job := rfl
@[simp] theorem addActionOf_pol (r issued src due ord : Nat) (op : MicroOp) : (addActionOf s r issued src due ord op).pol = s.pol := rfl
@[simp] theorem addActionOf_lastRead (r issued src due ord : Nat) (op : MicroOp) : (addActionOf s r issued src due ord op).lastRead = s.lastRead := rfl

@[simp] theorem addAction_pending (r due ord : Nat) (op : MicroOp) : (addAction s r due ord op).pending = s.pending := rfl
@[simp] theorem addAction_now (r due ord : Nat) (op : MicroOp) : (addAction s r due ord op).now = s.now := rfl
@[simp] theorem addAction_beat (r due ord : Nat) (op : MicroOp) : (addAction s r due ord op).beat = s.beat := rfl
@[simp] theorem addAction_freeCount (r due ord : Nat) (op : MicroOp) : (addAction s r due ord op).freeCount = s.freeCount := rfl
@[simp] theorem addAction_regs (r due ord : Nat) (op : MicroOp) : (addAction s r due ord op).regs = s.regs := rfl
@[simp] theorem addAction_cyc (r due ord : Nat) (op : MicroOp) : (addAction s r due ord op).cyc = s.cyc := rfl
@[simp] theorem addAction_mem (r due ord : Nat) (op : MicroOp) : (addAction s r due ord op).mem = s.mem := rfl
@[simp] theorem addAction_poison (r due ord : Nat) (op : MicroOp) : (addAction s r due ord op).poison = s.poison := rfl
@[simp] theorem addAction_badWords (r due ord : Nat) (op : MicroOp) : (addAction s r due ord op).badWords = s.badWords := rfl
@[simp] theorem addAction_weakWords (r due ord : Nat) (op : MicroOp) : (addAction s r due ord op).weakWords = s.weakWords := rfl
@[simp] theorem addAction_storeCe (r due ord : Nat) (op : MicroOp) : (addAction s r due ord op).storeCe = s.storeCe := rfl
@[simp] theorem addAction_numSeen (r due ord : Nat) (op : MicroOp) : (addAction s r due ord op).numSeen = s.numSeen := rfl
@[simp] theorem addAction_numCand (r due ord : Nat) (op : MicroOp) : (addAction s r due ord op).numCand = s.numCand := rfl
@[simp] theorem addAction_conv (r due ord : Nat) (op : MicroOp) : (addAction s r due ord op).conv = s.conv := rfl
@[simp] theorem addAction_evr (r due ord : Nat) (op : MicroOp) : (addAction s r due ord op).evr = s.evr := rfl
@[simp] theorem addAction_irq (r due ord : Nat) (op : MicroOp) : (addAction s r due ord op).irq = s.irq := rfl
@[simp] theorem addAction_cvu (r due ord : Nat) (op : MicroOp) : (addAction s r due ord op).cvu = s.cvu := rfl
@[simp] theorem addAction_mgmt (r due ord : Nat) (op : MicroOp) : (addAction s r due ord op).mgmt = s.mgmt := rfl
@[simp] theorem addAction_seq (r due ord : Nat) (op : MicroOp) : (addAction s r due ord op).seq = s.seq := rfl
@[simp] theorem addAction_cel (r due ord : Nat) (op : MicroOp) : (addAction s r due ord op).cel = s.cel := rfl
@[simp] theorem addAction_sec (r due ord : Nat) (op : MicroOp) : (addAction s r due ord op).sec = s.sec := rfl
@[simp] theorem addAction_jrnl (r due ord : Nat) (op : MicroOp) : (addAction s r due ord op).jrnl = s.jrnl := rfl
@[simp] theorem addAction_fab (r due ord : Nat) (op : MicroOp) : (addAction s r due ord op).fab = s.fab := rfl
@[simp] theorem addAction_ldr (r due ord : Nat) (op : MicroOp) : (addAction s r due ord op).ldr = s.ldr := rfl
@[simp] theorem addAction_att (r due ord : Nat) (op : MicroOp) : (addAction s r due ord op).att = s.att := rfl
@[simp] theorem addAction_den (r due ord : Nat) (op : MicroOp) : (addAction s r due ord op).den = s.den := rfl
@[simp] theorem addAction_col (r due ord : Nat) (op : MicroOp) : (addAction s r due ord op).col = s.col := rfl
@[simp] theorem addAction_por (r due ord : Nat) (op : MicroOp) : (addAction s r due ord op).por = s.por := rfl
@[simp] theorem addAction_job (r due ord : Nat) (op : MicroOp) : (addAction s r due ord op).job = s.job := rfl
@[simp] theorem addAction_pol (r due ord : Nat) (op : MicroOp) : (addAction s r due ord op).pol = s.pol := rfl
@[simp] theorem addAction_lastRead (r due ord : Nat) (op : MicroOp) : (addAction s r due ord op).lastRead = s.lastRead := rfl

@[simp] theorem latchIrq_pending (n : Nat) : (latchIrq s n).pending = s.pending := rfl
@[simp] theorem latchIrq_now (n : Nat) : (latchIrq s n).now = s.now := rfl
@[simp] theorem latchIrq_beat (n : Nat) : (latchIrq s n).beat = s.beat := rfl
@[simp] theorem latchIrq_freeCount (n : Nat) : (latchIrq s n).freeCount = s.freeCount := rfl
@[simp] theorem latchIrq_regs (n : Nat) : (latchIrq s n).regs = s.regs := rfl
@[simp] theorem latchIrq_cyc (n : Nat) : (latchIrq s n).cyc = s.cyc := rfl
@[simp] theorem latchIrq_mem (n : Nat) : (latchIrq s n).mem = s.mem := rfl
@[simp] theorem latchIrq_poison (n : Nat) : (latchIrq s n).poison = s.poison := rfl
@[simp] theorem latchIrq_badWords (n : Nat) : (latchIrq s n).badWords = s.badWords := rfl
@[simp] theorem latchIrq_weakWords (n : Nat) : (latchIrq s n).weakWords = s.weakWords := rfl
@[simp] theorem latchIrq_storeCe (n : Nat) : (latchIrq s n).storeCe = s.storeCe := rfl
@[simp] theorem latchIrq_rooms (n : Nat) : (latchIrq s n).rooms = s.rooms := rfl
@[simp] theorem latchIrq_numSeen (n : Nat) : (latchIrq s n).numSeen = s.numSeen := rfl
@[simp] theorem latchIrq_numCand (n : Nat) : (latchIrq s n).numCand = s.numCand := rfl
@[simp] theorem latchIrq_conv (n : Nat) : (latchIrq s n).conv = s.conv := rfl
@[simp] theorem latchIrq_evr (n : Nat) : (latchIrq s n).evr = s.evr := rfl
@[simp] theorem latchIrq_cvu (n : Nat) : (latchIrq s n).cvu = s.cvu := rfl
@[simp] theorem latchIrq_mgmt (n : Nat) : (latchIrq s n).mgmt = s.mgmt := rfl
@[simp] theorem latchIrq_seq (n : Nat) : (latchIrq s n).seq = s.seq := rfl
@[simp] theorem latchIrq_cel (n : Nat) : (latchIrq s n).cel = s.cel := rfl
@[simp] theorem latchIrq_sec (n : Nat) : (latchIrq s n).sec = s.sec := rfl
@[simp] theorem latchIrq_jrnl (n : Nat) : (latchIrq s n).jrnl = s.jrnl := rfl
@[simp] theorem latchIrq_fab (n : Nat) : (latchIrq s n).fab = s.fab := rfl
@[simp] theorem latchIrq_ldr (n : Nat) : (latchIrq s n).ldr = s.ldr := rfl
@[simp] theorem latchIrq_att (n : Nat) : (latchIrq s n).att = s.att := rfl
@[simp] theorem latchIrq_den (n : Nat) : (latchIrq s n).den = s.den := rfl
@[simp] theorem latchIrq_col (n : Nat) : (latchIrq s n).col = s.col := rfl
@[simp] theorem latchIrq_por (n : Nat) : (latchIrq s n).por = s.por := rfl
@[simp] theorem latchIrq_job (n : Nat) : (latchIrq s n).job = s.job := rfl
@[simp] theorem latchIrq_pol (n : Nat) : (latchIrq s n).pol = s.pol := rfl
@[simp] theorem latchIrq_lastRead (n : Nat) : (latchIrq s n).lastRead = s.lastRead := rfl

@[simp] theorem unlatchIrq_pending (n : Nat) : (unlatchIrq s n).pending = s.pending := rfl
@[simp] theorem unlatchIrq_now (n : Nat) : (unlatchIrq s n).now = s.now := rfl
@[simp] theorem unlatchIrq_beat (n : Nat) : (unlatchIrq s n).beat = s.beat := rfl
@[simp] theorem unlatchIrq_freeCount (n : Nat) : (unlatchIrq s n).freeCount = s.freeCount := rfl
@[simp] theorem unlatchIrq_regs (n : Nat) : (unlatchIrq s n).regs = s.regs := rfl
@[simp] theorem unlatchIrq_cyc (n : Nat) : (unlatchIrq s n).cyc = s.cyc := rfl
@[simp] theorem unlatchIrq_mem (n : Nat) : (unlatchIrq s n).mem = s.mem := rfl
@[simp] theorem unlatchIrq_poison (n : Nat) : (unlatchIrq s n).poison = s.poison := rfl
@[simp] theorem unlatchIrq_badWords (n : Nat) : (unlatchIrq s n).badWords = s.badWords := rfl
@[simp] theorem unlatchIrq_weakWords (n : Nat) : (unlatchIrq s n).weakWords = s.weakWords := rfl
@[simp] theorem unlatchIrq_storeCe (n : Nat) : (unlatchIrq s n).storeCe = s.storeCe := rfl
@[simp] theorem unlatchIrq_rooms (n : Nat) : (unlatchIrq s n).rooms = s.rooms := rfl
@[simp] theorem unlatchIrq_numSeen (n : Nat) : (unlatchIrq s n).numSeen = s.numSeen := rfl
@[simp] theorem unlatchIrq_numCand (n : Nat) : (unlatchIrq s n).numCand = s.numCand := rfl
@[simp] theorem unlatchIrq_conv (n : Nat) : (unlatchIrq s n).conv = s.conv := rfl
@[simp] theorem unlatchIrq_evr (n : Nat) : (unlatchIrq s n).evr = s.evr := rfl
@[simp] theorem unlatchIrq_cvu (n : Nat) : (unlatchIrq s n).cvu = s.cvu := rfl
@[simp] theorem unlatchIrq_mgmt (n : Nat) : (unlatchIrq s n).mgmt = s.mgmt := rfl
@[simp] theorem unlatchIrq_seq (n : Nat) : (unlatchIrq s n).seq = s.seq := rfl
@[simp] theorem unlatchIrq_cel (n : Nat) : (unlatchIrq s n).cel = s.cel := rfl
@[simp] theorem unlatchIrq_sec (n : Nat) : (unlatchIrq s n).sec = s.sec := rfl
@[simp] theorem unlatchIrq_jrnl (n : Nat) : (unlatchIrq s n).jrnl = s.jrnl := rfl
@[simp] theorem unlatchIrq_fab (n : Nat) : (unlatchIrq s n).fab = s.fab := rfl
@[simp] theorem unlatchIrq_ldr (n : Nat) : (unlatchIrq s n).ldr = s.ldr := rfl
@[simp] theorem unlatchIrq_att (n : Nat) : (unlatchIrq s n).att = s.att := rfl
@[simp] theorem unlatchIrq_den (n : Nat) : (unlatchIrq s n).den = s.den := rfl
@[simp] theorem unlatchIrq_col (n : Nat) : (unlatchIrq s n).col = s.col := rfl
@[simp] theorem unlatchIrq_por (n : Nat) : (unlatchIrq s n).por = s.por := rfl
@[simp] theorem unlatchIrq_job (n : Nat) : (unlatchIrq s n).job = s.job := rfl
@[simp] theorem unlatchIrq_pol (n : Nat) : (unlatchIrq s n).pol = s.pol := rfl
@[simp] theorem unlatchIrq_lastRead (n : Nat) : (unlatchIrq s n).lastRead = s.lastRead := rfl

@[simp] theorem setChan_pending (id : Nat) (c : Chan) : (setChan s id c).pending = s.pending := rfl
@[simp] theorem setChan_now (id : Nat) (c : Chan) : (setChan s id c).now = s.now := rfl
@[simp] theorem setChan_beat (id : Nat) (c : Chan) : (setChan s id c).beat = s.beat := rfl
@[simp] theorem setChan_freeCount (id : Nat) (c : Chan) : (setChan s id c).freeCount = s.freeCount := rfl
@[simp] theorem setChan_regs (id : Nat) (c : Chan) : (setChan s id c).regs = s.regs := rfl
@[simp] theorem setChan_cyc (id : Nat) (c : Chan) : (setChan s id c).cyc = s.cyc := rfl
@[simp] theorem setChan_mem (id : Nat) (c : Chan) : (setChan s id c).mem = s.mem := rfl
@[simp] theorem setChan_poison (id : Nat) (c : Chan) : (setChan s id c).poison = s.poison := rfl
@[simp] theorem setChan_badWords (id : Nat) (c : Chan) : (setChan s id c).badWords = s.badWords := rfl
@[simp] theorem setChan_weakWords (id : Nat) (c : Chan) : (setChan s id c).weakWords = s.weakWords := rfl
@[simp] theorem setChan_storeCe (id : Nat) (c : Chan) : (setChan s id c).storeCe = s.storeCe := rfl
@[simp] theorem setChan_rooms (id : Nat) (c : Chan) : (setChan s id c).rooms = s.rooms := rfl
@[simp] theorem setChan_numSeen (id : Nat) (c : Chan) : (setChan s id c).numSeen = s.numSeen := rfl
@[simp] theorem setChan_numCand (id : Nat) (c : Chan) : (setChan s id c).numCand = s.numCand := rfl
@[simp] theorem setChan_conv (id : Nat) (c : Chan) : (setChan s id c).conv = s.conv := rfl
@[simp] theorem setChan_evr (id : Nat) (c : Chan) : (setChan s id c).evr = s.evr := rfl
@[simp] theorem setChan_irq (id : Nat) (c : Chan) : (setChan s id c).irq = s.irq := rfl
@[simp] theorem setChan_cvu (id : Nat) (c : Chan) : (setChan s id c).cvu = s.cvu := rfl
@[simp] theorem setChan_mgmt (id : Nat) (c : Chan) : (setChan s id c).mgmt = s.mgmt := rfl
@[simp] theorem setChan_seq (id : Nat) (c : Chan) : (setChan s id c).seq = s.seq := rfl
@[simp] theorem setChan_sec (id : Nat) (c : Chan) : (setChan s id c).sec = s.sec := rfl
@[simp] theorem setChan_jrnl (id : Nat) (c : Chan) : (setChan s id c).jrnl = s.jrnl := rfl
@[simp] theorem setChan_fab (id : Nat) (c : Chan) : (setChan s id c).fab = s.fab := rfl
@[simp] theorem setChan_ldr (id : Nat) (c : Chan) : (setChan s id c).ldr = s.ldr := rfl
@[simp] theorem setChan_att (id : Nat) (c : Chan) : (setChan s id c).att = s.att := rfl
@[simp] theorem setChan_den (id : Nat) (c : Chan) : (setChan s id c).den = s.den := rfl
@[simp] theorem setChan_col (id : Nat) (c : Chan) : (setChan s id c).col = s.col := rfl
@[simp] theorem setChan_por (id : Nat) (c : Chan) : (setChan s id c).por = s.por := rfl
@[simp] theorem setChan_job (id : Nat) (c : Chan) : (setChan s id c).job = s.job := rfl
@[simp] theorem setChan_pol (id : Nat) (c : Chan) : (setChan s id c).pol = s.pol := rfl
@[simp] theorem setChan_lastRead (id : Nat) (c : Chan) : (setChan s id c).lastRead = s.lastRead := rfl

@[simp] theorem setLink_pending (l : Nat) (k : Link) : (setLink s l k).pending = s.pending := rfl
@[simp] theorem setLink_now (l : Nat) (k : Link) : (setLink s l k).now = s.now := rfl
@[simp] theorem setLink_beat (l : Nat) (k : Link) : (setLink s l k).beat = s.beat := rfl
@[simp] theorem setLink_freeCount (l : Nat) (k : Link) : (setLink s l k).freeCount = s.freeCount := rfl
@[simp] theorem setLink_regs (l : Nat) (k : Link) : (setLink s l k).regs = s.regs := rfl
@[simp] theorem setLink_cyc (l : Nat) (k : Link) : (setLink s l k).cyc = s.cyc := rfl
@[simp] theorem setLink_mem (l : Nat) (k : Link) : (setLink s l k).mem = s.mem := rfl
@[simp] theorem setLink_poison (l : Nat) (k : Link) : (setLink s l k).poison = s.poison := rfl
@[simp] theorem setLink_badWords (l : Nat) (k : Link) : (setLink s l k).badWords = s.badWords := rfl
@[simp] theorem setLink_weakWords (l : Nat) (k : Link) : (setLink s l k).weakWords = s.weakWords := rfl
@[simp] theorem setLink_storeCe (l : Nat) (k : Link) : (setLink s l k).storeCe = s.storeCe := rfl
@[simp] theorem setLink_rooms (l : Nat) (k : Link) : (setLink s l k).rooms = s.rooms := rfl
@[simp] theorem setLink_numSeen (l : Nat) (k : Link) : (setLink s l k).numSeen = s.numSeen := rfl
@[simp] theorem setLink_numCand (l : Nat) (k : Link) : (setLink s l k).numCand = s.numCand := rfl
@[simp] theorem setLink_conv (l : Nat) (k : Link) : (setLink s l k).conv = s.conv := rfl
@[simp] theorem setLink_evr (l : Nat) (k : Link) : (setLink s l k).evr = s.evr := rfl
@[simp] theorem setLink_irq (l : Nat) (k : Link) : (setLink s l k).irq = s.irq := rfl
@[simp] theorem setLink_cvu (l : Nat) (k : Link) : (setLink s l k).cvu = s.cvu := rfl
@[simp] theorem setLink_mgmt (l : Nat) (k : Link) : (setLink s l k).mgmt = s.mgmt := rfl
@[simp] theorem setLink_seq (l : Nat) (k : Link) : (setLink s l k).seq = s.seq := rfl
@[simp] theorem setLink_cel (l : Nat) (k : Link) : (setLink s l k).cel = s.cel := rfl
@[simp] theorem setLink_sec (l : Nat) (k : Link) : (setLink s l k).sec = s.sec := rfl
@[simp] theorem setLink_jrnl (l : Nat) (k : Link) : (setLink s l k).jrnl = s.jrnl := rfl
@[simp] theorem setLink_ldr (l : Nat) (k : Link) : (setLink s l k).ldr = s.ldr := rfl
@[simp] theorem setLink_att (l : Nat) (k : Link) : (setLink s l k).att = s.att := rfl
@[simp] theorem setLink_den (l : Nat) (k : Link) : (setLink s l k).den = s.den := rfl
@[simp] theorem setLink_col (l : Nat) (k : Link) : (setLink s l k).col = s.col := rfl
@[simp] theorem setLink_por (l : Nat) (k : Link) : (setLink s l k).por = s.por := rfl
@[simp] theorem setLink_job (l : Nat) (k : Link) : (setLink s l k).job = s.job := rfl
@[simp] theorem setLink_pol (l : Nat) (k : Link) : (setLink s l k).pol = s.pol := rfl
@[simp] theorem setLink_lastRead (l : Nat) (k : Link) : (setLink s l k).lastRead = s.lastRead := rfl

@[simp] theorem setLarder_pending (f : Nat) (l : Larder) : (setLarder s f l).pending = s.pending := rfl
@[simp] theorem setLarder_now (f : Nat) (l : Larder) : (setLarder s f l).now = s.now := rfl
@[simp] theorem setLarder_beat (f : Nat) (l : Larder) : (setLarder s f l).beat = s.beat := rfl
@[simp] theorem setLarder_freeCount (f : Nat) (l : Larder) : (setLarder s f l).freeCount = s.freeCount := rfl
@[simp] theorem setLarder_regs (f : Nat) (l : Larder) : (setLarder s f l).regs = s.regs := rfl
@[simp] theorem setLarder_cyc (f : Nat) (l : Larder) : (setLarder s f l).cyc = s.cyc := rfl
@[simp] theorem setLarder_mem (f : Nat) (l : Larder) : (setLarder s f l).mem = s.mem := rfl
@[simp] theorem setLarder_poison (f : Nat) (l : Larder) : (setLarder s f l).poison = s.poison := rfl
@[simp] theorem setLarder_badWords (f : Nat) (l : Larder) : (setLarder s f l).badWords = s.badWords := rfl
@[simp] theorem setLarder_weakWords (f : Nat) (l : Larder) : (setLarder s f l).weakWords = s.weakWords := rfl
@[simp] theorem setLarder_storeCe (f : Nat) (l : Larder) : (setLarder s f l).storeCe = s.storeCe := rfl
@[simp] theorem setLarder_rooms (f : Nat) (l : Larder) : (setLarder s f l).rooms = s.rooms := rfl
@[simp] theorem setLarder_numSeen (f : Nat) (l : Larder) : (setLarder s f l).numSeen = s.numSeen := rfl
@[simp] theorem setLarder_numCand (f : Nat) (l : Larder) : (setLarder s f l).numCand = s.numCand := rfl
@[simp] theorem setLarder_conv (f : Nat) (l : Larder) : (setLarder s f l).conv = s.conv := rfl
@[simp] theorem setLarder_evr (f : Nat) (l : Larder) : (setLarder s f l).evr = s.evr := rfl
@[simp] theorem setLarder_irq (f : Nat) (l : Larder) : (setLarder s f l).irq = s.irq := rfl
@[simp] theorem setLarder_cvu (f : Nat) (l : Larder) : (setLarder s f l).cvu = s.cvu := rfl
@[simp] theorem setLarder_mgmt (f : Nat) (l : Larder) : (setLarder s f l).mgmt = s.mgmt := rfl
@[simp] theorem setLarder_seq (f : Nat) (l : Larder) : (setLarder s f l).seq = s.seq := rfl
@[simp] theorem setLarder_cel (f : Nat) (l : Larder) : (setLarder s f l).cel = s.cel := rfl
@[simp] theorem setLarder_sec (f : Nat) (l : Larder) : (setLarder s f l).sec = s.sec := rfl
@[simp] theorem setLarder_jrnl (f : Nat) (l : Larder) : (setLarder s f l).jrnl = s.jrnl := rfl
@[simp] theorem setLarder_fab (f : Nat) (l : Larder) : (setLarder s f l).fab = s.fab := rfl
@[simp] theorem setLarder_att (f : Nat) (l : Larder) : (setLarder s f l).att = s.att := rfl
@[simp] theorem setLarder_den (f : Nat) (l : Larder) : (setLarder s f l).den = s.den := rfl
@[simp] theorem setLarder_col (f : Nat) (l : Larder) : (setLarder s f l).col = s.col := rfl
@[simp] theorem setLarder_por (f : Nat) (l : Larder) : (setLarder s f l).por = s.por := rfl
@[simp] theorem setLarder_job (f : Nat) (l : Larder) : (setLarder s f l).job = s.job := rfl
@[simp] theorem setLarder_pol (f : Nat) (l : Larder) : (setLarder s f l).pol = s.pol := rfl
@[simp] theorem setLarder_lastRead (f : Nat) (l : Larder) : (setLarder s f l).lastRead = s.lastRead := rfl

@[simp] theorem modLarder_pending (f : Nat) (g : Larder → Larder) : (modLarder s f g).pending = s.pending := rfl
@[simp] theorem modLarder_now (f : Nat) (g : Larder → Larder) : (modLarder s f g).now = s.now := rfl
@[simp] theorem modLarder_beat (f : Nat) (g : Larder → Larder) : (modLarder s f g).beat = s.beat := rfl
@[simp] theorem modLarder_freeCount (f : Nat) (g : Larder → Larder) : (modLarder s f g).freeCount = s.freeCount := rfl
@[simp] theorem modLarder_regs (f : Nat) (g : Larder → Larder) : (modLarder s f g).regs = s.regs := rfl
@[simp] theorem modLarder_cyc (f : Nat) (g : Larder → Larder) : (modLarder s f g).cyc = s.cyc := rfl
@[simp] theorem modLarder_mem (f : Nat) (g : Larder → Larder) : (modLarder s f g).mem = s.mem := rfl
@[simp] theorem modLarder_poison (f : Nat) (g : Larder → Larder) : (modLarder s f g).poison = s.poison := rfl
@[simp] theorem modLarder_badWords (f : Nat) (g : Larder → Larder) : (modLarder s f g).badWords = s.badWords := rfl
@[simp] theorem modLarder_weakWords (f : Nat) (g : Larder → Larder) : (modLarder s f g).weakWords = s.weakWords := rfl
@[simp] theorem modLarder_storeCe (f : Nat) (g : Larder → Larder) : (modLarder s f g).storeCe = s.storeCe := rfl
@[simp] theorem modLarder_rooms (f : Nat) (g : Larder → Larder) : (modLarder s f g).rooms = s.rooms := rfl
@[simp] theorem modLarder_numSeen (f : Nat) (g : Larder → Larder) : (modLarder s f g).numSeen = s.numSeen := rfl
@[simp] theorem modLarder_numCand (f : Nat) (g : Larder → Larder) : (modLarder s f g).numCand = s.numCand := rfl
@[simp] theorem modLarder_conv (f : Nat) (g : Larder → Larder) : (modLarder s f g).conv = s.conv := rfl
@[simp] theorem modLarder_evr (f : Nat) (g : Larder → Larder) : (modLarder s f g).evr = s.evr := rfl
@[simp] theorem modLarder_irq (f : Nat) (g : Larder → Larder) : (modLarder s f g).irq = s.irq := rfl
@[simp] theorem modLarder_cvu (f : Nat) (g : Larder → Larder) : (modLarder s f g).cvu = s.cvu := rfl
@[simp] theorem modLarder_mgmt (f : Nat) (g : Larder → Larder) : (modLarder s f g).mgmt = s.mgmt := rfl
@[simp] theorem modLarder_seq (f : Nat) (g : Larder → Larder) : (modLarder s f g).seq = s.seq := rfl
@[simp] theorem modLarder_cel (f : Nat) (g : Larder → Larder) : (modLarder s f g).cel = s.cel := rfl
@[simp] theorem modLarder_sec (f : Nat) (g : Larder → Larder) : (modLarder s f g).sec = s.sec := rfl
@[simp] theorem modLarder_jrnl (f : Nat) (g : Larder → Larder) : (modLarder s f g).jrnl = s.jrnl := rfl
@[simp] theorem modLarder_fab (f : Nat) (g : Larder → Larder) : (modLarder s f g).fab = s.fab := rfl
@[simp] theorem modLarder_att (f : Nat) (g : Larder → Larder) : (modLarder s f g).att = s.att := rfl
@[simp] theorem modLarder_den (f : Nat) (g : Larder → Larder) : (modLarder s f g).den = s.den := rfl
@[simp] theorem modLarder_col (f : Nat) (g : Larder → Larder) : (modLarder s f g).col = s.col := rfl
@[simp] theorem modLarder_por (f : Nat) (g : Larder → Larder) : (modLarder s f g).por = s.por := rfl
@[simp] theorem modLarder_job (f : Nat) (g : Larder → Larder) : (modLarder s f g).job = s.job := rfl
@[simp] theorem modLarder_pol (f : Nat) (g : Larder → Larder) : (modLarder s f g).pol = s.pol := rfl
@[simp] theorem modLarder_lastRead (f : Nat) (g : Larder → Larder) : (modLarder s f g).lastRead = s.lastRead := rfl

@[simp] theorem setDrive_pending (d : Nat) (v : Drive) : (setDrive s d v).pending = s.pending := rfl
@[simp] theorem setDrive_now (d : Nat) (v : Drive) : (setDrive s d v).now = s.now := rfl
@[simp] theorem setDrive_beat (d : Nat) (v : Drive) : (setDrive s d v).beat = s.beat := rfl
@[simp] theorem setDrive_freeCount (d : Nat) (v : Drive) : (setDrive s d v).freeCount = s.freeCount := rfl
@[simp] theorem setDrive_regs (d : Nat) (v : Drive) : (setDrive s d v).regs = s.regs := rfl
@[simp] theorem setDrive_cyc (d : Nat) (v : Drive) : (setDrive s d v).cyc = s.cyc := rfl
@[simp] theorem setDrive_mem (d : Nat) (v : Drive) : (setDrive s d v).mem = s.mem := rfl
@[simp] theorem setDrive_poison (d : Nat) (v : Drive) : (setDrive s d v).poison = s.poison := rfl
@[simp] theorem setDrive_badWords (d : Nat) (v : Drive) : (setDrive s d v).badWords = s.badWords := rfl
@[simp] theorem setDrive_weakWords (d : Nat) (v : Drive) : (setDrive s d v).weakWords = s.weakWords := rfl
@[simp] theorem setDrive_storeCe (d : Nat) (v : Drive) : (setDrive s d v).storeCe = s.storeCe := rfl
@[simp] theorem setDrive_rooms (d : Nat) (v : Drive) : (setDrive s d v).rooms = s.rooms := rfl
@[simp] theorem setDrive_numSeen (d : Nat) (v : Drive) : (setDrive s d v).numSeen = s.numSeen := rfl
@[simp] theorem setDrive_numCand (d : Nat) (v : Drive) : (setDrive s d v).numCand = s.numCand := rfl
@[simp] theorem setDrive_conv (d : Nat) (v : Drive) : (setDrive s d v).conv = s.conv := rfl
@[simp] theorem setDrive_evr (d : Nat) (v : Drive) : (setDrive s d v).evr = s.evr := rfl
@[simp] theorem setDrive_irq (d : Nat) (v : Drive) : (setDrive s d v).irq = s.irq := rfl
@[simp] theorem setDrive_cvu (d : Nat) (v : Drive) : (setDrive s d v).cvu = s.cvu := rfl
@[simp] theorem setDrive_mgmt (d : Nat) (v : Drive) : (setDrive s d v).mgmt = s.mgmt := rfl
@[simp] theorem setDrive_seq (d : Nat) (v : Drive) : (setDrive s d v).seq = s.seq := rfl
@[simp] theorem setDrive_cel (d : Nat) (v : Drive) : (setDrive s d v).cel = s.cel := rfl
@[simp] theorem setDrive_sec (d : Nat) (v : Drive) : (setDrive s d v).sec = s.sec := rfl
@[simp] theorem setDrive_jrnl (d : Nat) (v : Drive) : (setDrive s d v).jrnl = s.jrnl := rfl
@[simp] theorem setDrive_fab (d : Nat) (v : Drive) : (setDrive s d v).fab = s.fab := rfl
@[simp] theorem setDrive_ldr (d : Nat) (v : Drive) : (setDrive s d v).ldr = s.ldr := rfl
@[simp] theorem setDrive_den (d : Nat) (v : Drive) : (setDrive s d v).den = s.den := rfl
@[simp] theorem setDrive_col (d : Nat) (v : Drive) : (setDrive s d v).col = s.col := rfl
@[simp] theorem setDrive_por (d : Nat) (v : Drive) : (setDrive s d v).por = s.por := rfl
@[simp] theorem setDrive_job (d : Nat) (v : Drive) : (setDrive s d v).job = s.job := rfl
@[simp] theorem setDrive_pol (d : Nat) (v : Drive) : (setDrive s d v).pol = s.pol := rfl
@[simp] theorem setDrive_lastRead (d : Nat) (v : Drive) : (setDrive s d v).lastRead = s.lastRead := rfl

@[simp] theorem setDen_pending (f : Nat) (u : DenseUnit) : (setDen s f u).pending = s.pending := rfl
@[simp] theorem setDen_now (f : Nat) (u : DenseUnit) : (setDen s f u).now = s.now := rfl
@[simp] theorem setDen_beat (f : Nat) (u : DenseUnit) : (setDen s f u).beat = s.beat := rfl
@[simp] theorem setDen_freeCount (f : Nat) (u : DenseUnit) : (setDen s f u).freeCount = s.freeCount := rfl
@[simp] theorem setDen_regs (f : Nat) (u : DenseUnit) : (setDen s f u).regs = s.regs := rfl
@[simp] theorem setDen_cyc (f : Nat) (u : DenseUnit) : (setDen s f u).cyc = s.cyc := rfl
@[simp] theorem setDen_mem (f : Nat) (u : DenseUnit) : (setDen s f u).mem = s.mem := rfl
@[simp] theorem setDen_poison (f : Nat) (u : DenseUnit) : (setDen s f u).poison = s.poison := rfl
@[simp] theorem setDen_badWords (f : Nat) (u : DenseUnit) : (setDen s f u).badWords = s.badWords := rfl
@[simp] theorem setDen_weakWords (f : Nat) (u : DenseUnit) : (setDen s f u).weakWords = s.weakWords := rfl
@[simp] theorem setDen_storeCe (f : Nat) (u : DenseUnit) : (setDen s f u).storeCe = s.storeCe := rfl
@[simp] theorem setDen_rooms (f : Nat) (u : DenseUnit) : (setDen s f u).rooms = s.rooms := rfl
@[simp] theorem setDen_numSeen (f : Nat) (u : DenseUnit) : (setDen s f u).numSeen = s.numSeen := rfl
@[simp] theorem setDen_numCand (f : Nat) (u : DenseUnit) : (setDen s f u).numCand = s.numCand := rfl
@[simp] theorem setDen_conv (f : Nat) (u : DenseUnit) : (setDen s f u).conv = s.conv := rfl
@[simp] theorem setDen_evr (f : Nat) (u : DenseUnit) : (setDen s f u).evr = s.evr := rfl
@[simp] theorem setDen_irq (f : Nat) (u : DenseUnit) : (setDen s f u).irq = s.irq := rfl
@[simp] theorem setDen_cvu (f : Nat) (u : DenseUnit) : (setDen s f u).cvu = s.cvu := rfl
@[simp] theorem setDen_mgmt (f : Nat) (u : DenseUnit) : (setDen s f u).mgmt = s.mgmt := rfl
@[simp] theorem setDen_seq (f : Nat) (u : DenseUnit) : (setDen s f u).seq = s.seq := rfl
@[simp] theorem setDen_cel (f : Nat) (u : DenseUnit) : (setDen s f u).cel = s.cel := rfl
@[simp] theorem setDen_sec (f : Nat) (u : DenseUnit) : (setDen s f u).sec = s.sec := rfl
@[simp] theorem setDen_jrnl (f : Nat) (u : DenseUnit) : (setDen s f u).jrnl = s.jrnl := rfl
@[simp] theorem setDen_fab (f : Nat) (u : DenseUnit) : (setDen s f u).fab = s.fab := rfl
@[simp] theorem setDen_ldr (f : Nat) (u : DenseUnit) : (setDen s f u).ldr = s.ldr := rfl
@[simp] theorem setDen_att (f : Nat) (u : DenseUnit) : (setDen s f u).att = s.att := rfl
@[simp] theorem setDen_col (f : Nat) (u : DenseUnit) : (setDen s f u).col = s.col := rfl
@[simp] theorem setDen_por (f : Nat) (u : DenseUnit) : (setDen s f u).por = s.por := rfl
@[simp] theorem setDen_job (f : Nat) (u : DenseUnit) : (setDen s f u).job = s.job := rfl
@[simp] theorem setDen_pol (f : Nat) (u : DenseUnit) : (setDen s f u).pol = s.pol := rfl
@[simp] theorem setDen_lastRead (f : Nat) (u : DenseUnit) : (setDen s f u).lastRead = s.lastRead := rfl

@[simp] theorem setQp_pending (n : Nat) (v : Option Qp) : (setQp s n v).pending = s.pending := rfl
@[simp] theorem setQp_now (n : Nat) (v : Option Qp) : (setQp s n v).now = s.now := rfl
@[simp] theorem setQp_beat (n : Nat) (v : Option Qp) : (setQp s n v).beat = s.beat := rfl
@[simp] theorem setQp_freeCount (n : Nat) (v : Option Qp) : (setQp s n v).freeCount = s.freeCount := rfl
@[simp] theorem setQp_regs (n : Nat) (v : Option Qp) : (setQp s n v).regs = s.regs := rfl
@[simp] theorem setQp_cyc (n : Nat) (v : Option Qp) : (setQp s n v).cyc = s.cyc := rfl
@[simp] theorem setQp_mem (n : Nat) (v : Option Qp) : (setQp s n v).mem = s.mem := rfl
@[simp] theorem setQp_poison (n : Nat) (v : Option Qp) : (setQp s n v).poison = s.poison := rfl
@[simp] theorem setQp_badWords (n : Nat) (v : Option Qp) : (setQp s n v).badWords = s.badWords := rfl
@[simp] theorem setQp_weakWords (n : Nat) (v : Option Qp) : (setQp s n v).weakWords = s.weakWords := rfl
@[simp] theorem setQp_storeCe (n : Nat) (v : Option Qp) : (setQp s n v).storeCe = s.storeCe := rfl
@[simp] theorem setQp_rooms (n : Nat) (v : Option Qp) : (setQp s n v).rooms = s.rooms := rfl
@[simp] theorem setQp_numSeen (n : Nat) (v : Option Qp) : (setQp s n v).numSeen = s.numSeen := rfl
@[simp] theorem setQp_numCand (n : Nat) (v : Option Qp) : (setQp s n v).numCand = s.numCand := rfl
@[simp] theorem setQp_conv (n : Nat) (v : Option Qp) : (setQp s n v).conv = s.conv := rfl
@[simp] theorem setQp_evr (n : Nat) (v : Option Qp) : (setQp s n v).evr = s.evr := rfl
@[simp] theorem setQp_irq (n : Nat) (v : Option Qp) : (setQp s n v).irq = s.irq := rfl
@[simp] theorem setQp_cvu (n : Nat) (v : Option Qp) : (setQp s n v).cvu = s.cvu := rfl
@[simp] theorem setQp_mgmt (n : Nat) (v : Option Qp) : (setQp s n v).mgmt = s.mgmt := rfl
@[simp] theorem setQp_seq (n : Nat) (v : Option Qp) : (setQp s n v).seq = s.seq := rfl
@[simp] theorem setQp_cel (n : Nat) (v : Option Qp) : (setQp s n v).cel = s.cel := rfl
@[simp] theorem setQp_sec (n : Nat) (v : Option Qp) : (setQp s n v).sec = s.sec := rfl
@[simp] theorem setQp_jrnl (n : Nat) (v : Option Qp) : (setQp s n v).jrnl = s.jrnl := rfl
@[simp] theorem setQp_fab (n : Nat) (v : Option Qp) : (setQp s n v).fab = s.fab := rfl
@[simp] theorem setQp_ldr (n : Nat) (v : Option Qp) : (setQp s n v).ldr = s.ldr := rfl
@[simp] theorem setQp_att (n : Nat) (v : Option Qp) : (setQp s n v).att = s.att := rfl
@[simp] theorem setQp_den (n : Nat) (v : Option Qp) : (setQp s n v).den = s.den := rfl
@[simp] theorem setQp_col (n : Nat) (v : Option Qp) : (setQp s n v).col = s.col := rfl
@[simp] theorem setQp_job (n : Nat) (v : Option Qp) : (setQp s n v).job = s.job := rfl
@[simp] theorem setQp_pol (n : Nat) (v : Option Qp) : (setQp s n v).pol = s.pol := rfl
@[simp] theorem setQp_lastRead (n : Nat) (v : Option Qp) : (setQp s n v).lastRead = s.lastRead := rfl

@[simp] theorem setQueue_pending (q : Nat) (v : Queue) : (setQueue s q v).pending = s.pending := rfl
@[simp] theorem setQueue_now (q : Nat) (v : Queue) : (setQueue s q v).now = s.now := rfl
@[simp] theorem setQueue_beat (q : Nat) (v : Queue) : (setQueue s q v).beat = s.beat := rfl
@[simp] theorem setQueue_freeCount (q : Nat) (v : Queue) : (setQueue s q v).freeCount = s.freeCount := rfl
@[simp] theorem setQueue_regs (q : Nat) (v : Queue) : (setQueue s q v).regs = s.regs := rfl
@[simp] theorem setQueue_cyc (q : Nat) (v : Queue) : (setQueue s q v).cyc = s.cyc := rfl
@[simp] theorem setQueue_mem (q : Nat) (v : Queue) : (setQueue s q v).mem = s.mem := rfl
@[simp] theorem setQueue_poison (q : Nat) (v : Queue) : (setQueue s q v).poison = s.poison := rfl
@[simp] theorem setQueue_badWords (q : Nat) (v : Queue) : (setQueue s q v).badWords = s.badWords := rfl
@[simp] theorem setQueue_weakWords (q : Nat) (v : Queue) : (setQueue s q v).weakWords = s.weakWords := rfl
@[simp] theorem setQueue_storeCe (q : Nat) (v : Queue) : (setQueue s q v).storeCe = s.storeCe := rfl
@[simp] theorem setQueue_rooms (q : Nat) (v : Queue) : (setQueue s q v).rooms = s.rooms := rfl
@[simp] theorem setQueue_numSeen (q : Nat) (v : Queue) : (setQueue s q v).numSeen = s.numSeen := rfl
@[simp] theorem setQueue_numCand (q : Nat) (v : Queue) : (setQueue s q v).numCand = s.numCand := rfl
@[simp] theorem setQueue_conv (q : Nat) (v : Queue) : (setQueue s q v).conv = s.conv := rfl
@[simp] theorem setQueue_evr (q : Nat) (v : Queue) : (setQueue s q v).evr = s.evr := rfl
@[simp] theorem setQueue_irq (q : Nat) (v : Queue) : (setQueue s q v).irq = s.irq := rfl
@[simp] theorem setQueue_cvu (q : Nat) (v : Queue) : (setQueue s q v).cvu = s.cvu := rfl
@[simp] theorem setQueue_mgmt (q : Nat) (v : Queue) : (setQueue s q v).mgmt = s.mgmt := rfl
@[simp] theorem setQueue_seq (q : Nat) (v : Queue) : (setQueue s q v).seq = s.seq := rfl
@[simp] theorem setQueue_cel (q : Nat) (v : Queue) : (setQueue s q v).cel = s.cel := rfl
@[simp] theorem setQueue_sec (q : Nat) (v : Queue) : (setQueue s q v).sec = s.sec := rfl
@[simp] theorem setQueue_jrnl (q : Nat) (v : Queue) : (setQueue s q v).jrnl = s.jrnl := rfl
@[simp] theorem setQueue_fab (q : Nat) (v : Queue) : (setQueue s q v).fab = s.fab := rfl
@[simp] theorem setQueue_ldr (q : Nat) (v : Queue) : (setQueue s q v).ldr = s.ldr := rfl
@[simp] theorem setQueue_att (q : Nat) (v : Queue) : (setQueue s q v).att = s.att := rfl
@[simp] theorem setQueue_den (q : Nat) (v : Queue) : (setQueue s q v).den = s.den := rfl
@[simp] theorem setQueue_col (q : Nat) (v : Queue) : (setQueue s q v).col = s.col := rfl
@[simp] theorem setQueue_job (q : Nat) (v : Queue) : (setQueue s q v).job = s.job := rfl
@[simp] theorem setQueue_pol (q : Nat) (v : Queue) : (setQueue s q v).pol = s.pol := rfl
@[simp] theorem setQueue_lastRead (q : Nat) (v : Queue) : (setQueue s q v).lastRead = s.lastRead := rfl

@[simp] theorem modSess_pending (k : Nat) (g : Session → Session) : (modSess s k g).pending = s.pending := rfl
@[simp] theorem modSess_now (k : Nat) (g : Session → Session) : (modSess s k g).now = s.now := rfl
@[simp] theorem modSess_beat (k : Nat) (g : Session → Session) : (modSess s k g).beat = s.beat := rfl
@[simp] theorem modSess_freeCount (k : Nat) (g : Session → Session) : (modSess s k g).freeCount = s.freeCount := rfl
@[simp] theorem modSess_regs (k : Nat) (g : Session → Session) : (modSess s k g).regs = s.regs := rfl
@[simp] theorem modSess_cyc (k : Nat) (g : Session → Session) : (modSess s k g).cyc = s.cyc := rfl
@[simp] theorem modSess_mem (k : Nat) (g : Session → Session) : (modSess s k g).mem = s.mem := rfl
@[simp] theorem modSess_poison (k : Nat) (g : Session → Session) : (modSess s k g).poison = s.poison := rfl
@[simp] theorem modSess_badWords (k : Nat) (g : Session → Session) : (modSess s k g).badWords = s.badWords := rfl
@[simp] theorem modSess_weakWords (k : Nat) (g : Session → Session) : (modSess s k g).weakWords = s.weakWords := rfl
@[simp] theorem modSess_storeCe (k : Nat) (g : Session → Session) : (modSess s k g).storeCe = s.storeCe := rfl
@[simp] theorem modSess_rooms (k : Nat) (g : Session → Session) : (modSess s k g).rooms = s.rooms := rfl
@[simp] theorem modSess_numSeen (k : Nat) (g : Session → Session) : (modSess s k g).numSeen = s.numSeen := rfl
@[simp] theorem modSess_numCand (k : Nat) (g : Session → Session) : (modSess s k g).numCand = s.numCand := rfl
@[simp] theorem modSess_conv (k : Nat) (g : Session → Session) : (modSess s k g).conv = s.conv := rfl
@[simp] theorem modSess_evr (k : Nat) (g : Session → Session) : (modSess s k g).evr = s.evr := rfl
@[simp] theorem modSess_irq (k : Nat) (g : Session → Session) : (modSess s k g).irq = s.irq := rfl
@[simp] theorem modSess_cvu (k : Nat) (g : Session → Session) : (modSess s k g).cvu = s.cvu := rfl
@[simp] theorem modSess_mgmt (k : Nat) (g : Session → Session) : (modSess s k g).mgmt = s.mgmt := rfl
@[simp] theorem modSess_seq (k : Nat) (g : Session → Session) : (modSess s k g).seq = s.seq := rfl
@[simp] theorem modSess_cel (k : Nat) (g : Session → Session) : (modSess s k g).cel = s.cel := rfl
@[simp] theorem modSess_sec (k : Nat) (g : Session → Session) : (modSess s k g).sec = s.sec := rfl
@[simp] theorem modSess_jrnl (k : Nat) (g : Session → Session) : (modSess s k g).jrnl = s.jrnl := rfl
@[simp] theorem modSess_fab (k : Nat) (g : Session → Session) : (modSess s k g).fab = s.fab := rfl
@[simp] theorem modSess_ldr (k : Nat) (g : Session → Session) : (modSess s k g).ldr = s.ldr := rfl
@[simp] theorem modSess_att (k : Nat) (g : Session → Session) : (modSess s k g).att = s.att := rfl
@[simp] theorem modSess_den (k : Nat) (g : Session → Session) : (modSess s k g).den = s.den := rfl
@[simp] theorem modSess_col (k : Nat) (g : Session → Session) : (modSess s k g).col = s.col := rfl
@[simp] theorem modSess_job (k : Nat) (g : Session → Session) : (modSess s k g).job = s.job := rfl
@[simp] theorem modSess_pol (k : Nat) (g : Session → Session) : (modSess s k g).pol = s.pol := rfl
@[simp] theorem modSess_lastRead (k : Nat) (g : Session → Session) : (modSess s k g).lastRead = s.lastRead := rfl

@[simp] theorem porchOut_pending (m : PorchOut) : (porchOut s m).pending = s.pending := rfl
@[simp] theorem porchOut_now (m : PorchOut) : (porchOut s m).now = s.now := rfl
@[simp] theorem porchOut_beat (m : PorchOut) : (porchOut s m).beat = s.beat := rfl
@[simp] theorem porchOut_freeCount (m : PorchOut) : (porchOut s m).freeCount = s.freeCount := rfl
@[simp] theorem porchOut_regs (m : PorchOut) : (porchOut s m).regs = s.regs := rfl
@[simp] theorem porchOut_cyc (m : PorchOut) : (porchOut s m).cyc = s.cyc := rfl
@[simp] theorem porchOut_mem (m : PorchOut) : (porchOut s m).mem = s.mem := rfl
@[simp] theorem porchOut_poison (m : PorchOut) : (porchOut s m).poison = s.poison := rfl
@[simp] theorem porchOut_badWords (m : PorchOut) : (porchOut s m).badWords = s.badWords := rfl
@[simp] theorem porchOut_weakWords (m : PorchOut) : (porchOut s m).weakWords = s.weakWords := rfl
@[simp] theorem porchOut_storeCe (m : PorchOut) : (porchOut s m).storeCe = s.storeCe := rfl
@[simp] theorem porchOut_rooms (m : PorchOut) : (porchOut s m).rooms = s.rooms := rfl
@[simp] theorem porchOut_numSeen (m : PorchOut) : (porchOut s m).numSeen = s.numSeen := rfl
@[simp] theorem porchOut_numCand (m : PorchOut) : (porchOut s m).numCand = s.numCand := rfl
@[simp] theorem porchOut_conv (m : PorchOut) : (porchOut s m).conv = s.conv := rfl
@[simp] theorem porchOut_evr (m : PorchOut) : (porchOut s m).evr = s.evr := rfl
@[simp] theorem porchOut_irq (m : PorchOut) : (porchOut s m).irq = s.irq := rfl
@[simp] theorem porchOut_cvu (m : PorchOut) : (porchOut s m).cvu = s.cvu := rfl
@[simp] theorem porchOut_mgmt (m : PorchOut) : (porchOut s m).mgmt = s.mgmt := rfl
@[simp] theorem porchOut_seq (m : PorchOut) : (porchOut s m).seq = s.seq := rfl
@[simp] theorem porchOut_cel (m : PorchOut) : (porchOut s m).cel = s.cel := rfl
@[simp] theorem porchOut_sec (m : PorchOut) : (porchOut s m).sec = s.sec := rfl
@[simp] theorem porchOut_jrnl (m : PorchOut) : (porchOut s m).jrnl = s.jrnl := rfl
@[simp] theorem porchOut_fab (m : PorchOut) : (porchOut s m).fab = s.fab := rfl
@[simp] theorem porchOut_ldr (m : PorchOut) : (porchOut s m).ldr = s.ldr := rfl
@[simp] theorem porchOut_att (m : PorchOut) : (porchOut s m).att = s.att := rfl
@[simp] theorem porchOut_den (m : PorchOut) : (porchOut s m).den = s.den := rfl
@[simp] theorem porchOut_col (m : PorchOut) : (porchOut s m).col = s.col := rfl
@[simp] theorem porchOut_job (m : PorchOut) : (porchOut s m).job = s.job := rfl
@[simp] theorem porchOut_pol (m : PorchOut) : (porchOut s m).pol = s.pol := rfl
@[simp] theorem porchOut_lastRead (m : PorchOut) : (porchOut s m).lastRead = s.lastRead := rfl

@[simp] theorem lbxPut_pending (va : Nat) (bs : List Byte) : (lbxPut s va bs).pending = s.pending := rfl
@[simp] theorem lbxPut_now (va : Nat) (bs : List Byte) : (lbxPut s va bs).now = s.now := rfl
@[simp] theorem lbxPut_beat (va : Nat) (bs : List Byte) : (lbxPut s va bs).beat = s.beat := rfl
@[simp] theorem lbxPut_freeCount (va : Nat) (bs : List Byte) : (lbxPut s va bs).freeCount = s.freeCount := rfl
@[simp] theorem lbxPut_regs (va : Nat) (bs : List Byte) : (lbxPut s va bs).regs = s.regs := rfl
@[simp] theorem lbxPut_cyc (va : Nat) (bs : List Byte) : (lbxPut s va bs).cyc = s.cyc := rfl
@[simp] theorem lbxPut_mem (va : Nat) (bs : List Byte) : (lbxPut s va bs).mem = s.mem := rfl
@[simp] theorem lbxPut_poison (va : Nat) (bs : List Byte) : (lbxPut s va bs).poison = s.poison := rfl
@[simp] theorem lbxPut_badWords (va : Nat) (bs : List Byte) : (lbxPut s va bs).badWords = s.badWords := rfl
@[simp] theorem lbxPut_weakWords (va : Nat) (bs : List Byte) : (lbxPut s va bs).weakWords = s.weakWords := rfl
@[simp] theorem lbxPut_storeCe (va : Nat) (bs : List Byte) : (lbxPut s va bs).storeCe = s.storeCe := rfl
@[simp] theorem lbxPut_rooms (va : Nat) (bs : List Byte) : (lbxPut s va bs).rooms = s.rooms := rfl
@[simp] theorem lbxPut_numSeen (va : Nat) (bs : List Byte) : (lbxPut s va bs).numSeen = s.numSeen := rfl
@[simp] theorem lbxPut_numCand (va : Nat) (bs : List Byte) : (lbxPut s va bs).numCand = s.numCand := rfl
@[simp] theorem lbxPut_conv (va : Nat) (bs : List Byte) : (lbxPut s va bs).conv = s.conv := rfl
@[simp] theorem lbxPut_evr (va : Nat) (bs : List Byte) : (lbxPut s va bs).evr = s.evr := rfl
@[simp] theorem lbxPut_irq (va : Nat) (bs : List Byte) : (lbxPut s va bs).irq = s.irq := rfl
@[simp] theorem lbxPut_cvu (va : Nat) (bs : List Byte) : (lbxPut s va bs).cvu = s.cvu := rfl
@[simp] theorem lbxPut_mgmt (va : Nat) (bs : List Byte) : (lbxPut s va bs).mgmt = s.mgmt := rfl
@[simp] theorem lbxPut_seq (va : Nat) (bs : List Byte) : (lbxPut s va bs).seq = s.seq := rfl
@[simp] theorem lbxPut_cel (va : Nat) (bs : List Byte) : (lbxPut s va bs).cel = s.cel := rfl
@[simp] theorem lbxPut_sec (va : Nat) (bs : List Byte) : (lbxPut s va bs).sec = s.sec := rfl
@[simp] theorem lbxPut_jrnl (va : Nat) (bs : List Byte) : (lbxPut s va bs).jrnl = s.jrnl := rfl
@[simp] theorem lbxPut_fab (va : Nat) (bs : List Byte) : (lbxPut s va bs).fab = s.fab := rfl
@[simp] theorem lbxPut_ldr (va : Nat) (bs : List Byte) : (lbxPut s va bs).ldr = s.ldr := rfl
@[simp] theorem lbxPut_att (va : Nat) (bs : List Byte) : (lbxPut s va bs).att = s.att := rfl
@[simp] theorem lbxPut_den (va : Nat) (bs : List Byte) : (lbxPut s va bs).den = s.den := rfl
@[simp] theorem lbxPut_col (va : Nat) (bs : List Byte) : (lbxPut s va bs).col = s.col := rfl
@[simp] theorem lbxPut_job (va : Nat) (bs : List Byte) : (lbxPut s va bs).job = s.job := rfl
@[simp] theorem lbxPut_pol (va : Nat) (bs : List Byte) : (lbxPut s va bs).pol = s.pol := rfl
@[simp] theorem lbxPut_lastRead (va : Nat) (bs : List Byte) : (lbxPut s va bs).lastRead = s.lastRead := rfl

@[simp] theorem setPort_pending (p : Nat) (v : PorchPort) : (setPort s p v).pending = s.pending := rfl
@[simp] theorem setPort_now (p : Nat) (v : PorchPort) : (setPort s p v).now = s.now := rfl
@[simp] theorem setPort_beat (p : Nat) (v : PorchPort) : (setPort s p v).beat = s.beat := rfl
@[simp] theorem setPort_freeCount (p : Nat) (v : PorchPort) : (setPort s p v).freeCount = s.freeCount := rfl
@[simp] theorem setPort_regs (p : Nat) (v : PorchPort) : (setPort s p v).regs = s.regs := rfl
@[simp] theorem setPort_cyc (p : Nat) (v : PorchPort) : (setPort s p v).cyc = s.cyc := rfl
@[simp] theorem setPort_mem (p : Nat) (v : PorchPort) : (setPort s p v).mem = s.mem := rfl
@[simp] theorem setPort_poison (p : Nat) (v : PorchPort) : (setPort s p v).poison = s.poison := rfl
@[simp] theorem setPort_badWords (p : Nat) (v : PorchPort) : (setPort s p v).badWords = s.badWords := rfl
@[simp] theorem setPort_weakWords (p : Nat) (v : PorchPort) : (setPort s p v).weakWords = s.weakWords := rfl
@[simp] theorem setPort_storeCe (p : Nat) (v : PorchPort) : (setPort s p v).storeCe = s.storeCe := rfl
@[simp] theorem setPort_rooms (p : Nat) (v : PorchPort) : (setPort s p v).rooms = s.rooms := rfl
@[simp] theorem setPort_numSeen (p : Nat) (v : PorchPort) : (setPort s p v).numSeen = s.numSeen := rfl
@[simp] theorem setPort_numCand (p : Nat) (v : PorchPort) : (setPort s p v).numCand = s.numCand := rfl
@[simp] theorem setPort_conv (p : Nat) (v : PorchPort) : (setPort s p v).conv = s.conv := rfl
@[simp] theorem setPort_evr (p : Nat) (v : PorchPort) : (setPort s p v).evr = s.evr := rfl
@[simp] theorem setPort_irq (p : Nat) (v : PorchPort) : (setPort s p v).irq = s.irq := rfl
@[simp] theorem setPort_cvu (p : Nat) (v : PorchPort) : (setPort s p v).cvu = s.cvu := rfl
@[simp] theorem setPort_mgmt (p : Nat) (v : PorchPort) : (setPort s p v).mgmt = s.mgmt := rfl
@[simp] theorem setPort_seq (p : Nat) (v : PorchPort) : (setPort s p v).seq = s.seq := rfl
@[simp] theorem setPort_cel (p : Nat) (v : PorchPort) : (setPort s p v).cel = s.cel := rfl
@[simp] theorem setPort_sec (p : Nat) (v : PorchPort) : (setPort s p v).sec = s.sec := rfl
@[simp] theorem setPort_jrnl (p : Nat) (v : PorchPort) : (setPort s p v).jrnl = s.jrnl := rfl
@[simp] theorem setPort_fab (p : Nat) (v : PorchPort) : (setPort s p v).fab = s.fab := rfl
@[simp] theorem setPort_ldr (p : Nat) (v : PorchPort) : (setPort s p v).ldr = s.ldr := rfl
@[simp] theorem setPort_att (p : Nat) (v : PorchPort) : (setPort s p v).att = s.att := rfl
@[simp] theorem setPort_den (p : Nat) (v : PorchPort) : (setPort s p v).den = s.den := rfl
@[simp] theorem setPort_col (p : Nat) (v : PorchPort) : (setPort s p v).col = s.col := rfl
@[simp] theorem setPort_job (p : Nat) (v : PorchPort) : (setPort s p v).job = s.job := rfl
@[simp] theorem setPort_pol (p : Nat) (v : PorchPort) : (setPort s p v).pol = s.pol := rfl
@[simp] theorem setPort_lastRead (p : Nat) (v : PorchPort) : (setPort s p v).lastRead = s.lastRead := rfl

@[simp] theorem setCvu_pending (k : Nat) (v : CvuCh) : (setCvu s k v).pending = s.pending := rfl
@[simp] theorem setCvu_now (k : Nat) (v : CvuCh) : (setCvu s k v).now = s.now := rfl
@[simp] theorem setCvu_beat (k : Nat) (v : CvuCh) : (setCvu s k v).beat = s.beat := rfl
@[simp] theorem setCvu_freeCount (k : Nat) (v : CvuCh) : (setCvu s k v).freeCount = s.freeCount := rfl
@[simp] theorem setCvu_regs (k : Nat) (v : CvuCh) : (setCvu s k v).regs = s.regs := rfl
@[simp] theorem setCvu_cyc (k : Nat) (v : CvuCh) : (setCvu s k v).cyc = s.cyc := rfl
@[simp] theorem setCvu_mem (k : Nat) (v : CvuCh) : (setCvu s k v).mem = s.mem := rfl
@[simp] theorem setCvu_poison (k : Nat) (v : CvuCh) : (setCvu s k v).poison = s.poison := rfl
@[simp] theorem setCvu_badWords (k : Nat) (v : CvuCh) : (setCvu s k v).badWords = s.badWords := rfl
@[simp] theorem setCvu_weakWords (k : Nat) (v : CvuCh) : (setCvu s k v).weakWords = s.weakWords := rfl
@[simp] theorem setCvu_storeCe (k : Nat) (v : CvuCh) : (setCvu s k v).storeCe = s.storeCe := rfl
@[simp] theorem setCvu_rooms (k : Nat) (v : CvuCh) : (setCvu s k v).rooms = s.rooms := rfl
@[simp] theorem setCvu_numSeen (k : Nat) (v : CvuCh) : (setCvu s k v).numSeen = s.numSeen := rfl
@[simp] theorem setCvu_numCand (k : Nat) (v : CvuCh) : (setCvu s k v).numCand = s.numCand := rfl
@[simp] theorem setCvu_conv (k : Nat) (v : CvuCh) : (setCvu s k v).conv = s.conv := rfl
@[simp] theorem setCvu_evr (k : Nat) (v : CvuCh) : (setCvu s k v).evr = s.evr := rfl
@[simp] theorem setCvu_irq (k : Nat) (v : CvuCh) : (setCvu s k v).irq = s.irq := rfl
@[simp] theorem setCvu_mgmt (k : Nat) (v : CvuCh) : (setCvu s k v).mgmt = s.mgmt := rfl
@[simp] theorem setCvu_seq (k : Nat) (v : CvuCh) : (setCvu s k v).seq = s.seq := rfl
@[simp] theorem setCvu_cel (k : Nat) (v : CvuCh) : (setCvu s k v).cel = s.cel := rfl
@[simp] theorem setCvu_sec (k : Nat) (v : CvuCh) : (setCvu s k v).sec = s.sec := rfl
@[simp] theorem setCvu_jrnl (k : Nat) (v : CvuCh) : (setCvu s k v).jrnl = s.jrnl := rfl
@[simp] theorem setCvu_fab (k : Nat) (v : CvuCh) : (setCvu s k v).fab = s.fab := rfl
@[simp] theorem setCvu_ldr (k : Nat) (v : CvuCh) : (setCvu s k v).ldr = s.ldr := rfl
@[simp] theorem setCvu_att (k : Nat) (v : CvuCh) : (setCvu s k v).att = s.att := rfl
@[simp] theorem setCvu_den (k : Nat) (v : CvuCh) : (setCvu s k v).den = s.den := rfl
@[simp] theorem setCvu_col (k : Nat) (v : CvuCh) : (setCvu s k v).col = s.col := rfl
@[simp] theorem setCvu_por (k : Nat) (v : CvuCh) : (setCvu s k v).por = s.por := rfl
@[simp] theorem setCvu_job (k : Nat) (v : CvuCh) : (setCvu s k v).job = s.job := rfl
@[simp] theorem setCvu_pol (k : Nat) (v : CvuCh) : (setCvu s k v).pol = s.pol := rfl
@[simp] theorem setCvu_lastRead (k : Nat) (v : CvuCh) : (setCvu s k v).lastRead = s.lastRead := rfl

@[simp] theorem kick_pending (c : Nat) : (kick s c).pending = s.pending := rfl
@[simp] theorem kick_now (c : Nat) : (kick s c).now = s.now := rfl
@[simp] theorem kick_beat (c : Nat) : (kick s c).beat = s.beat := rfl
@[simp] theorem kick_freeCount (c : Nat) : (kick s c).freeCount = s.freeCount := rfl
@[simp] theorem kick_regs (c : Nat) : (kick s c).regs = s.regs := rfl
@[simp] theorem kick_cyc (c : Nat) : (kick s c).cyc = s.cyc := rfl
@[simp] theorem kick_mem (c : Nat) : (kick s c).mem = s.mem := rfl
@[simp] theorem kick_poison (c : Nat) : (kick s c).poison = s.poison := rfl
@[simp] theorem kick_badWords (c : Nat) : (kick s c).badWords = s.badWords := rfl
@[simp] theorem kick_weakWords (c : Nat) : (kick s c).weakWords = s.weakWords := rfl
@[simp] theorem kick_storeCe (c : Nat) : (kick s c).storeCe = s.storeCe := rfl
@[simp] theorem kick_rooms (c : Nat) : (kick s c).rooms = s.rooms := rfl
@[simp] theorem kick_numSeen (c : Nat) : (kick s c).numSeen = s.numSeen := rfl
@[simp] theorem kick_numCand (c : Nat) : (kick s c).numCand = s.numCand := rfl
@[simp] theorem kick_conv (c : Nat) : (kick s c).conv = s.conv := rfl
@[simp] theorem kick_evr (c : Nat) : (kick s c).evr = s.evr := rfl
@[simp] theorem kick_irq (c : Nat) : (kick s c).irq = s.irq := rfl
@[simp] theorem kick_cvu (c : Nat) : (kick s c).cvu = s.cvu := rfl
@[simp] theorem kick_seq (c : Nat) : (kick s c).seq = s.seq := rfl
@[simp] theorem kick_cel (c : Nat) : (kick s c).cel = s.cel := rfl
@[simp] theorem kick_sec (c : Nat) : (kick s c).sec = s.sec := rfl
@[simp] theorem kick_jrnl (c : Nat) : (kick s c).jrnl = s.jrnl := rfl
@[simp] theorem kick_fab (c : Nat) : (kick s c).fab = s.fab := rfl
@[simp] theorem kick_ldr (c : Nat) : (kick s c).ldr = s.ldr := rfl
@[simp] theorem kick_att (c : Nat) : (kick s c).att = s.att := rfl
@[simp] theorem kick_den (c : Nat) : (kick s c).den = s.den := rfl
@[simp] theorem kick_col (c : Nat) : (kick s c).col = s.col := rfl
@[simp] theorem kick_por (c : Nat) : (kick s c).por = s.por := rfl
@[simp] theorem kick_job (c : Nat) : (kick s c).job = s.job := rfl
@[simp] theorem kick_pol (c : Nat) : (kick s c).pol = s.pol := rfl
@[simp] theorem kick_lastRead (c : Nat) : (kick s c).lastRead = s.lastRead := rfl

@[simp] theorem endStage_pending (n : Nat) : (endStage s n).pending = s.pending := rfl
@[simp] theorem endStage_now (n : Nat) : (endStage s n).now = s.now := rfl
@[simp] theorem endStage_beat (n : Nat) : (endStage s n).beat = s.beat := rfl
@[simp] theorem endStage_freeCount (n : Nat) : (endStage s n).freeCount = s.freeCount := rfl
@[simp] theorem endStage_regs (n : Nat) : (endStage s n).regs = s.regs := rfl
@[simp] theorem endStage_cyc (n : Nat) : (endStage s n).cyc = s.cyc := rfl
@[simp] theorem endStage_mem (n : Nat) : (endStage s n).mem = s.mem := rfl
@[simp] theorem endStage_poison (n : Nat) : (endStage s n).poison = s.poison := rfl
@[simp] theorem endStage_badWords (n : Nat) : (endStage s n).badWords = s.badWords := rfl
@[simp] theorem endStage_weakWords (n : Nat) : (endStage s n).weakWords = s.weakWords := rfl
@[simp] theorem endStage_storeCe (n : Nat) : (endStage s n).storeCe = s.storeCe := rfl
@[simp] theorem endStage_rooms (n : Nat) : (endStage s n).rooms = s.rooms := rfl
@[simp] theorem endStage_numSeen (n : Nat) : (endStage s n).numSeen = s.numSeen := rfl
@[simp] theorem endStage_numCand (n : Nat) : (endStage s n).numCand = s.numCand := rfl
@[simp] theorem endStage_conv (n : Nat) : (endStage s n).conv = s.conv := rfl
@[simp] theorem endStage_evr (n : Nat) : (endStage s n).evr = s.evr := rfl
@[simp] theorem endStage_irq (n : Nat) : (endStage s n).irq = s.irq := rfl
@[simp] theorem endStage_cvu (n : Nat) : (endStage s n).cvu = s.cvu := rfl
@[simp] theorem endStage_seq (n : Nat) : (endStage s n).seq = s.seq := rfl
@[simp] theorem endStage_cel (n : Nat) : (endStage s n).cel = s.cel := rfl
@[simp] theorem endStage_sec (n : Nat) : (endStage s n).sec = s.sec := rfl
@[simp] theorem endStage_jrnl (n : Nat) : (endStage s n).jrnl = s.jrnl := rfl
@[simp] theorem endStage_fab (n : Nat) : (endStage s n).fab = s.fab := rfl
@[simp] theorem endStage_ldr (n : Nat) : (endStage s n).ldr = s.ldr := rfl
@[simp] theorem endStage_att (n : Nat) : (endStage s n).att = s.att := rfl
@[simp] theorem endStage_den (n : Nat) : (endStage s n).den = s.den := rfl
@[simp] theorem endStage_col (n : Nat) : (endStage s n).col = s.col := rfl
@[simp] theorem endStage_por (n : Nat) : (endStage s n).por = s.por := rfl
@[simp] theorem endStage_job (n : Nat) : (endStage s n).job = s.job := rfl
@[simp] theorem endStage_pol (n : Nat) : (endStage s n).pol = s.pol := rfl
@[simp] theorem endStage_lastRead (n : Nat) : (endStage s n).lastRead = s.lastRead := rfl

@[simp] theorem flashPut_pending (a : Nat) (bs : List Byte) : (flashPut s a bs).pending = s.pending := rfl
@[simp] theorem flashPut_now (a : Nat) (bs : List Byte) : (flashPut s a bs).now = s.now := rfl
@[simp] theorem flashPut_beat (a : Nat) (bs : List Byte) : (flashPut s a bs).beat = s.beat := rfl
@[simp] theorem flashPut_freeCount (a : Nat) (bs : List Byte) : (flashPut s a bs).freeCount = s.freeCount := rfl
@[simp] theorem flashPut_regs (a : Nat) (bs : List Byte) : (flashPut s a bs).regs = s.regs := rfl
@[simp] theorem flashPut_cyc (a : Nat) (bs : List Byte) : (flashPut s a bs).cyc = s.cyc := rfl
@[simp] theorem flashPut_mem (a : Nat) (bs : List Byte) : (flashPut s a bs).mem = s.mem := rfl
@[simp] theorem flashPut_poison (a : Nat) (bs : List Byte) : (flashPut s a bs).poison = s.poison := rfl
@[simp] theorem flashPut_badWords (a : Nat) (bs : List Byte) : (flashPut s a bs).badWords = s.badWords := rfl
@[simp] theorem flashPut_weakWords (a : Nat) (bs : List Byte) : (flashPut s a bs).weakWords = s.weakWords := rfl
@[simp] theorem flashPut_storeCe (a : Nat) (bs : List Byte) : (flashPut s a bs).storeCe = s.storeCe := rfl
@[simp] theorem flashPut_rooms (a : Nat) (bs : List Byte) : (flashPut s a bs).rooms = s.rooms := rfl
@[simp] theorem flashPut_numSeen (a : Nat) (bs : List Byte) : (flashPut s a bs).numSeen = s.numSeen := rfl
@[simp] theorem flashPut_numCand (a : Nat) (bs : List Byte) : (flashPut s a bs).numCand = s.numCand := rfl
@[simp] theorem flashPut_conv (a : Nat) (bs : List Byte) : (flashPut s a bs).conv = s.conv := rfl
@[simp] theorem flashPut_evr (a : Nat) (bs : List Byte) : (flashPut s a bs).evr = s.evr := rfl
@[simp] theorem flashPut_irq (a : Nat) (bs : List Byte) : (flashPut s a bs).irq = s.irq := rfl
@[simp] theorem flashPut_cvu (a : Nat) (bs : List Byte) : (flashPut s a bs).cvu = s.cvu := rfl
@[simp] theorem flashPut_mgmt (a : Nat) (bs : List Byte) : (flashPut s a bs).mgmt = s.mgmt := rfl
@[simp] theorem flashPut_seq (a : Nat) (bs : List Byte) : (flashPut s a bs).seq = s.seq := rfl
@[simp] theorem flashPut_cel (a : Nat) (bs : List Byte) : (flashPut s a bs).cel = s.cel := rfl
@[simp] theorem flashPut_jrnl (a : Nat) (bs : List Byte) : (flashPut s a bs).jrnl = s.jrnl := rfl
@[simp] theorem flashPut_fab (a : Nat) (bs : List Byte) : (flashPut s a bs).fab = s.fab := rfl
@[simp] theorem flashPut_ldr (a : Nat) (bs : List Byte) : (flashPut s a bs).ldr = s.ldr := rfl
@[simp] theorem flashPut_att (a : Nat) (bs : List Byte) : (flashPut s a bs).att = s.att := rfl
@[simp] theorem flashPut_den (a : Nat) (bs : List Byte) : (flashPut s a bs).den = s.den := rfl
@[simp] theorem flashPut_col (a : Nat) (bs : List Byte) : (flashPut s a bs).col = s.col := rfl
@[simp] theorem flashPut_por (a : Nat) (bs : List Byte) : (flashPut s a bs).por = s.por := rfl
@[simp] theorem flashPut_job (a : Nat) (bs : List Byte) : (flashPut s a bs).job = s.job := rfl
@[simp] theorem flashPut_pol (a : Nat) (bs : List Byte) : (flashPut s a bs).pol = s.pol := rfl
@[simp] theorem flashPut_lastRead (a : Nat) (bs : List Byte) : (flashPut s a bs).lastRead = s.lastRead := rfl

end Sys2Proof.Laws
end

