-- ==== Sys2Proof/Tests/Slice0.lean ====
section
/-!
SUPPORT. Tests on fixed values: commands that are ill-formed, words written out from the spec's encodings, numbers of the spec's tables and formulas, and
for each claim a state and operands that meet its hypotheses.
-/
namespace Sys2Proof.Tests

-- One theorem at a time: the checks below are many and small.
set_option Elab.async false
open Sys2Proof Sys2Proof.Machine

/-! ### Small states -/

/-- The reset state with its main domains powered. -/
def up : State := { State.reset with regs := [(rPwrStatus, 2)] }

/-- It with fields of registers set: (address, high bit, low bit, value). -/
def on (l : List (Nat × Nat × Nat × Nat)) : State := l.foldl (fun s r => withField s r.1 r.2.1 r.2.2.1 r.2.2.2) up

/-- A module that runs with room 0 running as given. -/
def room (q : Room) : State := { up with rooms := [(0, { q with run := .running })] }

/-- Bytes at an address. -/
def bytesAt (s : State) (a : Nat) (bs : List Byte) : State := { s with mem := smSetList (0 : Byte) s.mem a bs }

/-! ### Ill-formed commands are refused, one for each check -/

/-- A transfer whose header fits, but for the field given. -/
def xferWith (srank sfloor drank dfloor xid : Nat) : Transfer :=
  { srank := srank, sfloor := sfloor, drank := drank, dfloor := dfloor, xid := xid, kind := 3, len := 0, step := 0 }

theorem test_rooms_and_tokens_checked :
    wellFormed (.vadd 4095 {}) = true ∧ wellFormed (.vadd 4096 {}) = false ∧ wellFormed (.mloadDone 0 63) = true ∧ wellFormed (.mloadDone 0 64) = false := by
  decide

theorem test_transfers_checked :
    wellFormed (.indexReceive (xferWith 65535 9 65535 9 16383)) = true ∧ wellFormed (.indexReceive (xferWith 65536 9 0 9 0)) = false ∧
    wellFormed (.indexReceive (xferWith 0 10 0 9 0)) = false ∧ wellFormed (.indexReceive (xferWith 0 9 65536 9 0)) = false ∧
    wellFormed (.indexReceive (xferWith 0 9 0 10 0)) = false ∧ wellFormed (.indexReceive (xferWith 0 9 0 9 16384)) = false := by
  decide

theorem test_cellars_checked :
    wellFormed (.scrubRead 20 0) = false ∧ wellFormed (.scrubRead 19 32) = false ∧ wellFormed (.cellarTempReading 0 4096 0) = false ∧
    wellFormed (.cellarTempReading 0 0 16) = false ∧ wellFormed (.floatMoveComplete 256) = false ∧ wellFormed (.prepComplete 10) = false := by
  decide

theorem test_links_checked :
    wellFormed (.spareNow 50) = false ∧ wellFormed (.laneSpare 0 16) = false ∧ wellFormed (.flitReceive 0 (.bytes [0])) = false ∧
    wellFormed (.e2eTimeout 10 0) = false ∧ wellFormed (.e2eTimeout 0 16384) = false ∧ wellFormed (.gmChange false 65536) = false ∧
    wellFormed (.fabricTimeStage true false 65536 0) = false ∧ wellFormed (.fabricTimeStage true false 0 65536) = false := by
  decide

theorem test_sessions_checked :
    wellFormed (.rdmaRead 16777216 0 0 0 false) = false ∧ wellFormed (.rdmaRead 0 4294967296 0 0 false) = false ∧
    wellFormed (.roceSend 0 (List.replicate 4097 0) false) = false ∧ wellFormed (.porchLinkDown 8) = false ∧
    wellFormed (.priorityFlowControlFrame 0 8 true) = false ∧ wellFormed (.producerWrite 16 0) = false ∧
    wellFormed (.producerWrite 0 4294967296) = false ∧ wellFormed (.query 17) = false ∧ wellFormed (.nop 16) = false ∧
    wellFormed (.wrapCak 15) = false ∧ wellFormed (.jobLoad 0 0) = false ∧ wellFormed (.jobLoad 0 65537) = false ∧
    wellFormed (.noticeWriteAck 64 0) = false := by
  decide +kernel

theorem test_control_units_checked :
    wellFormed (.atticIoComplete 4 0 0) = false ∧ wellFormed (.atticIoComplete 0 16 0) = false ∧ wellFormed (.watchdogKick 4) = false ∧
    wellFormed (.irqSwset 1024) = false ∧ wellFormed (.irqClaim 5) = false ∧ wellFormed (.evrCursor 65536) = false ∧ wellFormed (.evrFire 8) = false ∧
    wellFormed (.evrSoft 65536 0) = false ∧ wellFormed (.evrSoft 0 281474976710656) = false ∧ wellFormed (.cvuGo 32 0) = false ∧
    wellFormed (.cvuGo 0 4294967296) = false ∧ wellFormed (.mpFreezeNow 65536) = false ∧ wellFormed (.scanSelect 5) = false ∧
    wellFormed (.coreReset 16) = false ∧ wellFormed (.droop 10 true) = false ∧ wellFormed (.serviceImageWrite 2 []) = false := by
  decide

theorem test_register_region_checked :
    wellFormed (.registerReadClear ⟨0x05FFFFFFFFF8, 8⟩) = false ∧ wellFormed (.registerReadClear ⟨0x060000000000, 8⟩) = true ∧
    wellFormed (.registerWrite ⟨0x060011FFFFF8, 8⟩ 0) = true ∧ wellFormed (.registerWrite ⟨0x060012000000, 8⟩ 0) = false := by
  decide

/-- The table gives its rows no bits, so no word spells a command. -/
theorem test_no_word_spells_a_command (n w : Nat) :
    decodeTableWord n w = none ∧ State.withFetchWord State.reset n w = State.reset := ⟨rfl, rfl⟩

/-! ### The spec's own numbers: its check values, tables and worked examples -/

/-- Table 13.2, first two rows; their draws are those of the example under R336. -/
theorem test_generator_vectors :
    philox { w0 := 0, w1 := 0, w2 := 0, w3 := 0 } 0 0 = { w0 := 0x6627E8D5, w1 := 0xE169C58D, w2 := 0xBC57AC4C, w3 := 0x9B00DBD8 } ∧
    philox { w0 := 0xFFFFFFFF, w1 := 0xFFFFFFFF, w2 := 0xFFFFFFFF, w3 := 0xFFFFFFFF } 0xFFFFFFFF 0xFFFFFFFF =
      { w0 := 0x408F276D, w1 := 0x41C83B0E, w2 := 0xA20BC7C6, w3 := 0x6D5451FD } ∧
    (upTo 8).map (drawOf { seed := 0, step := 0, unit := 0, stream := 0 }) = [0xE8D5, 0x6627, 0xC58D, 0xE169, 0xAC4C, 0xBC57, 0xDBD8, 0x9B00] := by
  decide +kernel

/-- Table 13.2, third row: which half of the seed is which key word shows. -/
theorem test_generator_key_order :
    philox { w0 := 0x243F6A88, w1 := 0x85A308D3, w2 := 0x13198A2E, w3 := 0x03707344 } 0xA4093822 0x299F31D0 =
      { w0 := 0xD16CFE09, w1 := 0x94FDCCEB, w2 := 0x5001E420, w3 := 0x24126EA1 } := by
  decide +kernel

/-- Table 17.4: the check values of the ASCII bytes "123456789". -/
theorem test_check_values :
    crc32c [0x31, 0x32, 0x33, 0x34, 0x35, 0x36, 0x37, 0x38, 0x39] = 0xE3069283 ∧
    crc64 [0x31, 0x32, 0x33, 0x34, 0x35, 0x36, 0x37, 0x38, 0x39] = 0x6C40DF5F0B497347 := by
  decide +kernel

/-- The example under R41: a block whose largest magnitude is 3.0 has scale byte 0x78 and these codes; with draw 12,288 the third rounds up, below it down. -/
theorem test_block_scale_example :
    encodeBlock .e4m3 false (fun _ => 0) [b32 0x40400000#32, b32 0xBF000000#32, b32 0x3DCD0000#32] = (0x78, [0x7C, 0xE8, 0x55], noFlags) ∧
    (encodeBlock .e4m3 true (fun _ => 12288) [b32 0x40400000#32, b32 0x3DCD0000#32]).2.1 = [0x7C, 0x55] ∧
    (encodeBlock .e4m3 true (fun _ => 12287) [b32 0x40400000#32, b32 0x3DCD0000#32]).2.1 = [0x7C, 0x54] := by
  decide +kernel

/-- The example under R274: 0.1 splits into HI 0x3DCD and REM 0xCCCD and joins again; the SGD step of 0.01 on 0.5 gives 0x3DC28F5C. -/
theorem test_dense_master_example :
    splitW 0x3DCCCCCD#32 = (0x3DCD, 0xCCCD) ∧ joinW 0x3DCD 0xCCCD = 0x3DCCCCCD#32 ∧ (b32Fma 0xBC23D70A#32 0x3F000000#32 0x3DCCCCCD#32).1 = 0x3DC28F5C#32 ∧
    splitW 0x3DC28F5C#32 = (0x3DC3, 0x8F5C) := by
  decide +kernel

/-- The examples under R121 and R459: a phase of 520,000 beats takes 520,000, 585,000 and 650,000 cycles with k = 0, 2 and 4. -/
theorem test_stretch_examples :
    (beatCycles (on [(rSchStretch, 4, 0, 0)]) 520000, beatCycles (on [(rSchStretch, 4, 0, 2)]) 520000, beatCycles (on [(rSchStretch, 4, 0, 4)]) 520000) =
      (520000, 585000, 650000) := by
  decide +kernel

/-- With k = 4 the pattern is beat, gap, beat, beat, beat (the example under R121). -/
theorem test_beat_pattern :
    (upTo 5).map (fun i => isBeat { on [(rSchStretch, 4, 0, 4)] with now := i }) = [true, false, true, true, true] := by
  decide +kernel

/-- All channels live and 32 units of the global zone (R172). -/
def allLive : State := { on [(rCelLive, 9, 0, 640), (rCelZone, 5, 0, 32)] with cel := { live := (upTo 640).map (fun k => (k % 20) * 32 + k / 20) } }


/-- The example under R172: global address 0x123480 lies in channel 0.09 at 0x780, near address 0x0170_0000_1000 in channel 6.08 at 0x80000000. -/
theorem test_address_map_example :
    chanOf allLive 0x123480 = some (9, 0x780) ∧ chanOf allLive 0x017000001000 = some (6 * 32 + 8, 0x80000000) ∧ chanOf allLive 0x01E000000000 = none := by
  decide +kernel

/-- The example under R143: the global zone ends at 0x013F_FFFF_FFFF, floor f's near zone starts at 0x0140_0000_0000 + f × 0x10_0000_0000. -/
theorem test_zones_example :
    nearZone allLive 0 = 0x014000000000 ∧ nearZone allLive 3 = 0x017000000000 ∧ nearZone allLive 9 + nearBytes allLive 9 = 0x01E000000000 ∧
    stackBytes allLive = 0x01E000000000 ∧ stackBytes (on [(rCelLive, 9, 0, 638)]) = 0x01DE80000000 := by
  decide +kernel

/-- The example under R219: a million and three rows over 8 ranks. -/
theorem test_row_placement_example :
    let m (mode : Nat) : RowMap := { mode := mode, ovLog := 4, rank0 := 16, ranks := 8, cap := 0, ok := true }
    baseHome (m 1) 1000003 500000 = (3, 124997) ∧ baseHome (m 0) 1000003 500000 = (0, 62500) ∧ baseHome (m 1) 1000003 375002 = (2, 125000) ∧
    baseHome (m 1) 1000003 375003 = (3, 0) := by
  decide +kernel

/-- The examples under R303: 20 heads over 8 ranks; 2^24 tokens over 3,000 ranks. -/
theorem test_cut_examples :
    (upTo 8).map (shareCount 20 8) = [3, 3, 3, 3, 2, 2, 2, 2] ∧ shareCount 16777216 3000 1215 = 5593 ∧ shareCount 16777216 3000 1216 = 5592 ∧
    shareOff 16777216 3000 1216 = 6801088 := by
  decide +kernel

/-- The example under R193: a list of 1,048,576 entries prepares in 197,608 cycles. -/
theorem test_preparation_example : prepCycles 1048576 = 197608 := by decide +kernel

/-- The example under R135: 65,536 modules with FANIN 16 and S_sw 500 have H = 5,760 cycles; 512 plan entries add 96 cycles an edge (R236). -/
theorem test_horizon_example :
    let s (cap : Nat) : State := { on [(rLdrMigCtl, 44, 32, cap), (rLdrMigCtl, 31, 16, 7)] with seq := { image := { modules := 65536, switchTime := 500 } } }
    let y : SyncEnt := { id := 7, scope := 2, policy := 0, role := 2, floor := 0, fanin := 16, theta := 0, members := [] }
    horizon (s 0) y = 5760 ∧ horizon (s 512) y = 5760 + 384 := by
  decide +kernel

/-- The example under R366, with stamps in 1/256 cycle and ASYM = 385 ps: θ is −288 ps. -/
theorem test_offset_example :
    let s : State := { on [(rLnkState 0, 2, 0, 2), (rLnkTime 0, 31, 0, 385)] with now := 2 ^ 20, seq := { everLocked := true } }
    toSigned 32 (regBits (match exec (.timeExchange true 256000000 256010304 256012800 256023168) s with | .next t => t | _ => s) rSchOffset 31 0) = -288 := by
  decide +kernel

/-- The example under R159: 40 zero lines, 10 of one value, 8 with byte differences and 6 unrelated ones take 576 bytes of payload, 9 sectors. -/
theorem test_pack_example :
    let rep := (List.replicate 16 [1, 2, 3, 4]).flatten
    let near := (List.range 16).flatMap (fun i => [BitVec.ofNat 8 (100 * (i % 2)), 7, 0, 0])
    let far := (List.range 64).map (fun i => BitVec.ofNat 8 (37 * i * i + 11))
    let b := packBlock (zeros (40 * 64) ++ (List.replicate 10 rep).flatten ++ (List.replicate 8 near).flatten ++ (List.replicate 6 far).flatten)
    b.1 = 9 ∧ b.2.1 = 0 ∧ b.2.2.2.length = 576 ∧ b.2.2.1.drop 20 = [0x11, 0x11, 0x11, 0x11, 0x11, 0x33, 0x33, 0x33, 0x33, 0x55, 0x55, 0x55] := by
  decide +kernel

/-- The example under R47: a BG4 row of scale 0.75. -/
theorem test_bg4_example :
    ([0x3F400000#32, 0xBE99999A#32, 0x3CA3D70A#32, 0x3F000000#32].map (fun x => (encodeBg4 x 0x3F40 false 0).1)) = [0x7, 0xC, 0x0, 0x6] := by
  decide +kernel

/-! ### States that meet the hypotheses of the claims

For each claim, states and operands that meet the hypotheses of each of its clauses, at the ends of their ranges where there are any. -/

/-- A frozen module, in the first cycle in which its clocks stand still. -/
def frozenModule (q : List Instr) : State := { State.reset with pending := q, now := 16, mgmt := { frozen := some 0, stage := 5 } }

theorem witness_EmptyQueueIsOneCycle : (frozenModule []).pending = [] ∧ Frozen (frozenModule []) := by decide +kernel

theorem witness_FrozenUnitsDoNothing :
    Frozen (frozenModule []) ∧ (match Instr.freezeN with | .scanSelect _ => False | .scanRead => False | _ => True) := by decide +kernel

theorem witness_FrozenModulesStayFrozen :
    (∀ c ∈ [Instr.powerSample 4400 0 0 [] [], .floorTempSample 0 1999 0 0, .cellarTempReading 0 1999 0, .freezeN],
      Frozen (frozenModule [c]) ∧ (frozenModule [c]).mgmt.stage ≠ 0) ∧ toSigned 12 1999 < 16 * 125 := by
  decide +kernel

/-- A room in beat 8 with a result due for V1 by the load port in beats 10, 12, 13, 15 and 22. -/
def busyRoom (q : Room) : State :=
  { room { q with micro := [10, 12, 13, 15, 22].map (fun b => { due := b, ord := 0, issued := 4, port := .load, op := .v 1 [] }) } with beat := 8 }

theorem witness_LaneOperationsComplete :
    Acts (busyRoom {}) 0 ∧ PortFree (busyRoom {}) 0 12 .arith (0, 2) ∧ PortFree (busyRoom {}) 0 13 .arith (0, 2) ∧ PortFree (busyRoom {}) 0 10 .arith (0, 2) ∧
    ¬PortFree (busyRoom {}) 0 12 .arith (0, 1) := by
  decide +kernel

/-- The iterative stage is free again in the beat in which it ends, and busy in the beat before. -/
theorem witness_LongAndTreeOperationsComplete :
    let free := busyRoom { iterBusy := 8, sfuBusy := 8 }
    let busy := busyRoom { iterBusy := 9 }
    (Acts free 0 ∧ PortFree free 0 22 .arith (0, 2) ∧ (getRoom free 0).iterBusy ≤ free.beat ∧ (getRoom free 0).sfuBusy ≤ free.beat) ∧
    (∀ i ∈ [0, 4, 10], PortFree free 0 (8 + (4 * sfuPasses i + 6)) .sfu (0, 2) ∧ i ≤ 10) ∧ (Acts busy 0 ∧ busy.beat < (getRoom busy 0).iterBusy) ∧
    PortFree free 0 18 .vecArr (1, 0) ∧ PortFree free 0 10 .vecArr (1, 31) := by
  decide +kernel

theorem witness_ScalarOperationsComplete :
    let s := busyRoom {}
    (Acts s 0 ∧ (∀ d ∈ [0, 31], PortFree s 0 9 .ctl (1, d)) ∧ PortFree s 0 9 .addr (2, 15) ∧ PortFree s 0 10 .ctl (1, 31)) ∧
    controlLegal 24 0 { d24 := 0xFFFFFF#24 } = true ∧ controlLegal 15 0 { d24 := 0x7FFF#24 } = true ∧ controlLegal 15 0 { d24 := 0x8000#24 } = false ∧
    controlLegal 5 0 { d24 := 31#24, tk := 63 } = true ∧ amovLegal { d24 := 0x3EF#24 } = true ∧ controlLegal 11 1 { d24 := 0x7FF#24, cf := 1 } = true ∧
    controlLegal 11 1 { d24 := 0, cf := 2 } = false := by
  decide +kernel

theorem witness_BranchesComplete :
    let s (x : Word) : State := busyRoom { progLen := 18, x := [(1, x)] }
    let f (a t : Nat) : ControlSlot := { d24 := BitVec.ofNat 24 (a * 4096 + t) }
    (Acts (s 2) 0 ∧ controlLegal 12 0 (f 0 17) = true ∧ d24target (f 0 17) < (getRoom (s 2) 0).progLen ∧
      (getRoom (s 2) 0).progLen ≤ d24target (f 0 18)) ∧
    (controlLegal 17 0 (f 1 17) = true ∧ xReg (getRoom (s 2) 0) (d24brA (f 1 17)) ≠ 0 ∧ d24target (f 1 17) < (getRoom (s 2) 0).progLen ∧
      PortFree (s 2) 0 9 .ctl (1, 1)) ∧
    (xReg (getRoom (s 2) 0) 1 - 1 ≠ 0 ∧ xReg (getRoom (s 1) 0) 1 - 1 = 0 ∧ xReg (getRoom (s 0) 0) 1 = 0) := by
  decide +kernel

/-- VLD and VST of the last 512 bytes of the store, in BF16, with a post-increment. -/
theorem witness_VectorMemoryCompletes :
    let s := busyRoom { a := [(2, BitVec.ofNat 64 (storeBytes - 512))] }
    let f : VectorSlot := { vd := 2, aa := 2, ia := 1, fmt := 1 }
    Acts s 0 ∧ vmemLegal f = true ∧ cellBytes f.fmt.toNat = 2 ∧ vecAddr (getRoom s 0) f = storeBytes - 512 ∧ PostFree s 0 f.aa.toNat (64 * f.ia.toNat) ∧
    Readable s 0 (storeBytes - 512) 512 ∧ Claimable s 0 (storeBytes - 512) 512 10 ∧ PortFree s 0 14 .load (0, 2) ∧ f.msk = 0 := by
  decide +kernel

/-- A room in beat 8 whose arrays 4 to 7 hold tiles in plane 0; entries 480 to 511 of the gang at array 4 have the tag `tag`. -/
def gangRoom (tag : Nat) : State :=
  { room { a := [(2, 0x40#64), (3, 0x9C#64), (4, 0x80#64)]
           arrays := [4, 5, 6, 7].map (fun i => (i, { p0 := { valid := true, fmt := 1 }, p1 := { ready := 11, free := 12 } }))
           gangs := [(4, { used := true, gs := 2, tags := if tag = 0 then [] else (upTo 32).map (fun i => (480 + i, tag)) })] }
    with beat := 8 }

/-- ASTAT, ACLR and ASWAP of the gang; an INT8 load, whose ninth row follows the eight cell rows. -/
theorem witness_ArrayPlanesComplete :
    let s := gangRoom 0
    let ld : ArraySlot := { gb := 4, gs := 2, gp := 1, fmt := 6, aa := 1, ia := 1 }
    (Acts s 0 ∧ GangFree s 0 4 2 0 4 1 4 ∧ GangFree s 0 4 2 1 4 2 2 ∧ GangFree (room {}) 0 12 2 1 4 2 2 ∧
    astatLegal { gb := 4, gs := 2, cnt := 3 } = true ∧ aclrLegal { gb := 4, gs := 2 } = true ∧ aswapLegal { gb := 4, gs := 2, gp := 1 } = true ∧
    (∀ a ∈ arraysOf 4 4, (shadowOf s 0 a).ready < s.beat + 4 ∧ (shadowOf s 0 a).free ≤ s.beat + 4)) ∧
    aloadLegal ld = true ∧ ninthRow 6 = true ∧ (∀ i, i < 8 → Claimable s 0 (0 + i * loadRowBytes 4 6 0) (loadRowBytes 4 6 0) (s.beat + i)) ∧
    storeBad s 0 0 (loadRowBytes 4 6 0) = false ∧
    Claimable s 0 (0 + 8 * loadRowBytes 4 6 0) (roundUp (loadRowBytes 4 6 8) 64) (s.beat + 8) ∧ PostFree s 0 1 64 :=
  ⟨by decide +kernel, by decide +kernel⟩

/-- A row of BF16 or block-scaled inputs that adds to entry 511, a drain of the last 32 entries, a row of mode O that ends its pass. -/
def rowSlot (fmt : BitVec 4) : ArraySlot := { gb := 4, gs := 2, gp := 1, fmt := fmt, aa := 1, ia := 1, asc := 3, blk := 1, e := 511, cin := 1 }
def drainSlot : ArraySlot := { gb := 4, gs := 2, gp := 1, aa := 1, ia := 1, asc := 4, e := 480, cnt := 31, ofmt := 1 }
def outerSlot (fmt : BitVec 4) : ArraySlot := { gb := 4, gs := 2, fmt := fmt, aa := 1, ia := 1, ab := 2, ib := 1, asc := 3, fin := 1 }

theorem witness_ArrayRowsComplete_row :
    (Acts (gangRoom 0) 0 ∧ GangFree (gangRoom 0) 0 4 2 1 4 2 2 ∧ (∀ a ∈ arraysOf 4 4, (activeOf (gangRoom 0) 0 a).valid = true) ∧
      PostFree (gangRoom 0) 0 1 64 ∧ ∀ a ∈ chainEnds 4 2 2 0, ¬(12 ≤ smGet 0 (getArr (getRoom (gangRoom 0) 0) a).wr 511) ∧
        ¬((halfDrain (getArr (getRoom (gangRoom 0) 0) a) 1).1 ≤ 12 ∧ 12 ≤ (halfDrain (getArr (getRoom (gangRoom 0) 0) a) 1).2)) ∧
    (∀ fmt ∈ [1#4, 4#4], arowLegal (rowSlot fmt) = true ∧ Readable (gangRoom 0) 0 0 (roundUp (valueBytes fmt.toNat 16) 64)) ∧
    (0x9C % 64 + ceilDiv 16 (blockSize 1) ≤ 64 ∧ Readable (gangRoom 0) 0 0x80 64 ∧
      (∀ b ∈ banksOf 0x80 64, b ∉ banksOf 0 (roundUp (valueBytes 4 16) 64)) ∧ PostFree (gangRoom 0) 0 3 (ceilDiv 16 (blockSize 1)) ∧
      (rowSlot 4).aa ≠ (rowSlot 4).asc) :=
  ⟨by decide +kernel, by decide +kernel, by decide +kernel⟩

/-- The gang holds the line of the row's scale bytes. -/
theorem witness_ArrayRowsComplete_held : ScalesHeld (room { gangs := [(4, { held := some (0x80, []) })] }) 0 4 0x9C := ⟨_, rfl, rfl⟩

/-- Entries of floating-point sums, and of integer ones, whose token scales take two lines. -/
theorem witness_ArrayRowsComplete_drain :
    (adrainLegal drainSlot = true ∧ (480 + 31) / 256 = 480 / 256 ∧ roundUp (8 * (chainEnds 4 2 2 0).length * outBytes 1) 64 = 64) ∧
    (∀ tag ∈ [0, 2], (Acts (gangRoom tag) 0 ∧ GangFree (gangRoom tag) 0 4 2 1 4 2 2 ∧ (getGang (getRoom (gangRoom tag) 0) 4).drain < 12 ∧
      PostFree (gangRoom tag) 0 1 64 ∧ storeBad (gangRoom tag) 0 0x80 64 = false)) ∧
    (∀ tag ∈ [0, 2], (∀ i, i ≤ 31 → smGet 0 (getGang (getRoom (gangRoom tag) 0) 4).tags (480 + i) = tag ∧ Claimable (gangRoom tag) 0 (i * 64) 64 (14 + i)) ∧
      ∀ a ∈ chainEnds 4 2 2 0, halfWrite (getArr (getRoom (gangRoom tag) 0) a) 1 < 12) ∧
    ((∀ j, j < 2 → Claimable (gangRoom 2) 0 (0x80 + 64 * j) 64 (8 + 16 * j)) ∧ (∀ i, i ≤ 31 → 6 + i = 16 * 1 → i = 10) ∧
      ∀ b ∈ banksOf (0x80 + 64 * 1) 64, b ∉ banksOf (10 * 64) 64) :=
  ⟨by decide +kernel, by decide +kernel, by decide +kernel, by decide +kernel⟩

theorem witness_ArrayRowsComplete_outer :
    (Acts (gangRoom 0) 0 ∧ GangFree (gangRoom 0) 0 4 2 0 4 1 4 ∧ (∀ a ∈ arraysOf 4 4, (planeOf (getArr (getRoom (gangRoom 0) 0) a) 0).lastDrain < 12) ∧
      PostFree (gangRoom 0) 0 1 64 ∧ PostFree (gangRoom 0) 0 2 64 ∧ PostFree (gangRoom 0) 0 3 5) ∧
    (∀ fmt ∈ [1#4, 4#4], aorowLegal (outerSlot fmt) = true ∧ Readable (gangRoom 0) 0 0 (roundUp (valueBytes fmt.toNat 8) 64) ∧
      Readable (gangRoom 0) 0 0x40 (roundUp (valueBytes fmt.toNat 32) 64) ∧
      ∀ b ∈ banksOf 0x40 (roundUp (valueBytes fmt.toNat 32) 64), b ∉ banksOf 0 (roundUp (valueBytes fmt.toNat 8) 64)) ∧
    (0x9C % 64 + 5 ≤ 64 ∧ Readable (gangRoom 0) 0 0x80 64 ∧ ∀ b ∈ banksOf 0x80 64, b ∉ banksOf 0 64 ∧ b ∉ banksOf 0x40 64) ∧
    (∀ i, i < 8 → Claimable (gangRoom 0) 0 (64 + 1024 * i) 128 (30 + i)) ∧
    ((outerSlot 4).aa ≠ (outerSlot 4).ab ∧ (outerSlot 4).aa ≠ (outerSlot 4).asc ∧ (outerSlot 4).ab ≠ (outerSlot 4).asc) :=
  ⟨by decide +kernel, by decide +kernel, by decide +kernel, by decide +kernel, by decide +kernel⟩

theorem witness_MoveSlotArms :
    let s (t : TokenState) (ops : List Elastic) : State := room { x := [(1, BitVec.ofNat 64 (16 * mib))], ops := ops, toks := [(63, { st := t })] }
    let f : MoveSlot := { tk := 63, xl := 1, asrc := 1, adst := 2, sfmt := 1, dfmt := 1 }
    (Acts (s .idle []) 0 ∧ f.rsvd = 0 ∧ (token (getRoom (s .idle []) 0) 63).st = .idle ∧ (token (getRoom (s .pending []) 0) 63).st ≠ .idle) ∧
    (∀ k ∈ [ElasticKind.mload, .mstore, .mgather, .mscatter, .msend, .mrecv, .mreduce, .mfence, .mpref],
      requestOk (getRoom (s .idle []) 0) k f (16 * mib) 0 = true) ∧
    requestOk (getRoom (s .idle []) 0) .mroom f (2 * mib) 0 = true ∧
    requestOk (getRoom (s .idle []) 0) .matom { f with sfmt := 8, aop := 4 } 64 0 = true ∧ requestOk (getRoom (s .idle []) 0) .mload f 32 0 = false := by
  decide +kernel

/-- A room with one operation under token 5, whose token is pending. -/
def opRoom (k : ElasticKind) (accepted : Bool) : State :=
  room { toks := [(5, { st := .pending })],
         ops := [{ kind := k, f := { tk := 5 }, issued := 0, src := 0, dst := 0, len := 64, par := 0, shape := 0, accepted := accepted }] }

theorem witness_ElasticCompletionsComplete :
    ∀ k ∈ [ElasticKind.mload, .mstore, .mroom, .matom, .mpref, .mfence, .mgather, .mscatter, .msend, .mrecv, .mreduce],
      Powered (opRoom k true) ∧ (startedOp (opRoom k true) 0 5).any (fun o => !(opWaits (opRoom k true) o) && !(atomWaits (getRoom (opRoom k true) 0) o) &&
        decide (o.kind = k) && o.accepted && decide (o.left = 0)) = true ∧ (∀ x ∈ (getRoom (opRoom k true) 0).ops, x.staged = false) := by
  decide +kernel

/-- The bank of a load's last line is free, or taken in this cycle. -/
theorem witness_ElasticCompletionsComplete_banks :
    let s := opRoom .mload true
    let o : Elastic := { kind := .mload, f := { tk := 5 }, issued := 0, src := 0, dst := 0, len := 64, par := 0, shape := 0, accepted := true }
    startedOp s 0 5 = some o ∧ lastLine s 0 o = some (0, 0) ∧ bankFree s 0 0 = true ∧ bankFree (modRoom s 0 (fun q => { q with ebanks := [(0, 0)] })) 0 0 = false := by
  decide +kernel

theorem witness_TokenCompletes : 65535 < 2 ^ 16 ∧ 2 ^ 32 - 1 < 2 ^ 32 ∧ (getRoom (opRoom .mload false) 0).hold = none := by decide +kernel

/-- An image of one phase, from start barrier 1 to module sync 2, with a tolerant barrier 3 and a commit barrier 4, for `n` modules. -/
def anImage (n : Nat) : Image := {
  modules := n, lrooms := 1
  phases := [{ startSync := 1, endSync := 2, p := 100, traffic := 0, freeBanks := 0, mMax := 0, waitLimit := 50, gap := 0, dir := 0 }]
  syncs := [(1, 2, 0, 1), (2, 1, 0, 0), (3, 2, 1, 0), (4, 2, 0, 2)].map (fun y =>
    { id := y.1, scope := y.2.1, policy := y.2.2.1, role := y.2.2.2, floor := 0, fanin := 2, theta := 7, members := [] }) }

/-- A module that runs, awaiting sync point `id`; position 0 of floor 0 is active. -/
def running (n id : Nat) (q : Seq) : State :=
  { on [(rSchState, 2, 0, 3)] with now := 1000, sec := { rep := [(0x10, 1)] }, seq := { q with image := anImage n, sync := id, tPlan := some 900, everLocked := true } }

theorem witness_PhaseCommandsComplete :
    let s (q : Room) : State := { running 1 2 {} with rooms := [(0, q)], beat := 1000 }
    (∀ q ∈ [({ run := .running, toks := [(63, { st := .idle })] } : Room)], Acts (s q) 0 ∧ (phaseAt (s q) q.phase).map (fun p => p.endSync) = some 2 ∧
      q.synced = false ∧ controlLegal 16 0 { d24 := 2 } = true ∧ d24sync { d24 := 2 } = 2 ∧ controlLegal 0 0 {} = true ∧
      (getRoom (s q) 0).run ≠ .stopped ∧ ∀ t ∈ (getRoom (s q) 0).toks, t.2.st = .idle) ∧
    (∀ r ∈ [RunState.filling, .idle, .ended, .halted, .stopped], Powered (s { run := r, fillEnd := 1000 }) ∧
      (getRoom (s { run := r, fillEnd := 1000 }) 0).filled = false ∧ (getRoom (s { run := r, fillEnd := 1000 }) 0).fillEnd ≤ 1000) ∧
    (let t := s { run := .held, hold := some { tk := 0, w := 949, e := 0, cf := 0, bundle := 0 } }
     Powered t ∧ (getRoom t 0).hold.isSome ∧ (phaseAt t 0).map (fun p => p.waitLimit) = some 50 ∧ (getRoom t 0).run = .held ∧ 949 + 50 < t.beat) ∧
    (let t := s { run := .running, resumeAt := 1001, hold := some { tk := 0, w := 949, e := 1000, cf := 0, bundle := 0 } }
     (getRoom t 0).run = .running ∧ t.beat < (getRoom t 0).resumeAt) := by
  decide +kernel

/-- A floor's turn ends with two turns to run; a module sync releases 16 cycles after the last arrival, or at its planned time. -/
theorem witness_TurnsAndReleasesComplete :
    let s (arrived last : Nat) : State :=
      let t := running 1 2 { inPhase := true, lastArrival := last, arrived := if arrived = 0 then [] else [0] }
      { t with regs := smSet (regReset rSchTurns) t.regs rSchTurns 2#64, rooms := [(0, { run := .ended })] }
    (Powered (s 0 0) ∧ (s 0 0).seq.inPhase = true ∧ (s 0 0).seq.everLocked = true ∧ (curSync (s 0 0)).isSome ∧ schState (s 0 0) = 3 ∧ (s 0 0).seq.stopped = false ∧ (s 0 0).seq.turnsDone + 1 < tau (s 0 0) ∧
      (curSync (s 0 0)).any (fun y => turnOver (s 0 0) y) = true) ∧
    (∀ last ∈ [800, 984], (curSync (s 1 last)).any (fun y => decide (y.scope ≠ 2) && roomsArrived (s 1 last) y) = true ∧
      (if last + 16 ≤ tPlanNow (s 1 last) then tPlanNow (s 1 last) else last + 16) ≤ (s 1 last).now) := by
  decide +kernel

/-- A barrier transfer from rank 1 to rank 0. -/
def barrierXfer (sub : Nat) (data : List Byte) : Transfer :=
  { srank := 1, sfloor := 0, drank := 0, dfloor := 0, xid := 5, kind := 8, len := data.length, step := 0,
    args := [BitVec.ofNat 8 sub, 0, 3, 0] ++ zeros 12, data := data }

theorem witness_BarrierArrivalsComplete :
    (∀ id ∈ [1, 4], let s := running 1 id {}
     Powered s ∧ (curBarrier s).any (fun y => roomsArrived s y && mayArrive (if y.role = 1 then readReplay s else s) y) = true ∧ s.seq.barrier.released = false ∧
       s.seq.barrier.own = none ∧ s.col.early = [] ∧ tauMod s ≤ s.seq.image.turnsMax) ∧
    (let s := running 4 3 {}
     (curBarrier s).isSome = true ∧ FreshBarrier s (barrierXfer 1 (zeros 16)) 1) ∧
    (∀ tc ∈ [0, 1000], let s := running 4 3 { barrier := { rootAt := some tc } }
     s.seq.barrier.notice = none ∧ s.seq.abort = none ∧ s.seq.barrier.rootAt = some tc ∧
       (curBarrier s).any (fun y => decide (tPlanNow s ≤ s.now + horizon s y) && decide (recordedAbsent s y = none)) = true) ∧
    (let s := running 4 3 {}
     rank s = 0 ∧ (curBarrier s).any (fun y => decide (y.policy = 1) && decide (tPlanNow s + y.theta ≤ s.now) && decide (recordedAbsent s y = none)) = true) ∧
    (let s := running 4 4 {}
     rank s = 0 ∧ (curBarrier s).any (fun y => decide (y.policy ≠ 1) && decide (tPlanNow s + s.seq.image.barrierLimit ≤ s.now) &&
       decide (recordedAbsent s y = none)) = true) := by
  decide +kernel

theorem witness_NoticesAndAbortsComplete :
    (let s := running 4 3 {}
     let x := barrierXfer 2 (zeros 32)
     Powered s ∧ (curBarrier s).map (fun y => y.id) = some (argNat x 2 2) ∧ FreshBarrier s x 2 ∧ x.step = stepNo s ∧ s.seq.barrier.notice = none) ∧
    (let s := running 4 3 { barrier := { notice := some { sync := 3, release := 1000 } } }
     (curBarrier s).any (fun y => roomsArrived s y) = true ∧ (s.seq.barrier.notice.any (fun n => decide (n.release ≤ s.now))) = true ∧
       s.seq.barrier.released = false) ∧
    (let s := running 4 3 {}
     FreshBarrier s (barrierXfer 3 ([1, 0, 1, 0, 0, 0, 0, 0] ++ leBytes 8 1010)) 3 ∧ schState s = 3 ∧ s.seq.abort = none ∧
       leNat ((([1, 0, 1, 0, 0, 0, 0, 0] ++ leBytes 8 1010).drop 8).take 8) ≠ 0) ∧
    (∀ o ∈ [0, 1], let s := running 4 3 { abort := some { code := 1, origin := o, stop := some 1000 } }
     schState s = 3 ∧ s.seq.abort.any (fun a => a.stop.any (fun c => decide (c ≤ s.now))) = true) := by
  decide +kernel

/-- START in LOADED with a journal ring; STOP of a running step; a journal record of two units in the pinned aperture. -/
theorem witness_JournalAndScheduleControlComplete :
    (let s : State := { on [(rSchState, 2, 0, 2), (rJrnlCtl, 23, 0, 1)] with seq := { image := anImage 1 } }
     Powered s ∧ schState s = 2 ∧ regBits s rJrnlCtl 23 0 ≠ 0 ∧ (phaseAt s 0).isSome = true ∧ regBits s rReplay 0 0 = 0 ∧ s.jrnl.read = []) ∧
    (let s := running 1 2 {}
     schState s = 3 ∧ s.seq.abort = none) ∧
    (let s := bytesAt (on [(rCelPin 0, 3, 0, 1)]) 0x040000000000 ([5, 0, 3, 0, 0, 0, 1, 0] ++ zeros 24 ++ List.replicate 16 7)
     (readBytes s 0x040000000000 32).2 = 0 ∧ leNat (((readBytes s 0x040000000000 32).1.drop 2).take 2) = 3 ∧ (readBytes s 0x040000000000 48).2 = 0) := by
  decide +kernel

/-- An image of 0x100 header bytes in the pinned aperture that LOAD can read, and refuses. -/
theorem witness_JournalAndScheduleControlComplete_load :
    let s := bytesAt (on [(rCelPin 0, 3, 0, 1), (rSchImage, 63, 6, 0x040000000000 / 64)]) 0x040000000011 [1]
    let h := readBytes s (regBits s rSchImage 63 6 * 64) 0x100
    let b := (readBytes s (regBits s rSchImage 63 6 * 64) (leNat ((h.1.drop 0x10).take 8))).1
    schState s ≠ 3 ∧ h.2 = 0 ∧ leNat ((h.1.drop 0x10).take 8) = 0x100 ∧ (readBytes s (regBits s rSchImage 63 6 * 64) 0x100).2 = 0 ∧
    0x100 ≤ b.length ∧ secOff b 9 ≤ b.length := by
  decide +kernel

theorem witness_FabricTimeCompletes :
    let s (last : Nat) (q : Seq) : State := { on [(rLnkState 0, 2, 0, 2), (rSchState, 3, 3, 1)] with
      now := 2000000, fab := { time := { lastExchange := last, lastGood := 1350000 } }, seq := q }
    let g : State := on [(rFabTimeStat, 1, 1, 1), (rFabTimeStat, 31, 16, 65535)]
    Powered (s 0 {}) ∧ (s 0 {}).fab.time.lastExchange = 0 ∧ (s 0 {}).fab.time.counted = false ∧ (s 0 {}).seq.everLocked = false ∧ (s (2000000 - 65536) {}).fab.time.lastExchange + 2 ^ 16 ≤ 2000000 ∧ linkState (s 0 {}) (timeLink (s 0 {})) = 2 ∧
    (s 0 { everLocked := true }).seq.everLocked = true ∧ isGm (s 0 {}) = false ∧ (s 0 {}).fab.time.lastGood + 650000 ≤ 2000000 ∧
    (s 0 { outSince := some 700000 }).seq.outSince = some 700000 ∧ regBits (s 0 {}) rSchState 3 3 = 1 ∧ 700000 + 1300000 ≤ (s 0 {}).now ∧
    isGm g = true ∧ regBits g rFabTimeStat 31 16 = 65535 % 65536 ∧ regBits (on [(rFabTimeCfg, 7, 0, 255)]) rFabTimeCfg 7 0 = 255 ∧
    regBits g rFabTimeCfg 7 0 ≠ 255 := by
  decide +kernel

/-- Cellar 19 with its channel 31 live, in a given state. -/
def channelState (st : Nat) (c : Chan) : State :=
  { on [(rMemChState 19 31, 2, 0, st), (rMemCtrl 19, 6, 6, 1)] with now := 3000, cel := { live := [19 * 32 + 31], chans := [(19 * 32 + 31, c)] } }

theorem witness_ChannelCareCompletes :
    (∀ st ∈ [0, 2], Commandable (channelState st {}) 19 31 ∧ Powered (channelState st {}) ∧ chState (channelState st {}) 639 = st) ∧
    (regBits (channelState 0 { lastScrub := 952 }) (rMemCtrl 19) 6 6 = 1 ∧ (getChan (channelState 0 { lastScrub := 952 }) 639).lastScrub + 2048 ≤ 3000) ∧
    (let s := channelState 0 { retrain := some { kind := 2, start := 0, prior := 0 } }
     (getChan s 639).retrain.isSome = true ∧
     (let v (n : Nat) := regCount (recordMargins { s with regs := smSet (regReset (rMemChRetrain 19 31)) s.regs (rMemChRetrain 19 31) (BitVec.ofNat 64 (n * 2 ^ 48)) }
        639 19 20 24 24) (rMemChRetrain 19 31) 49 48 1
      regBits (v 1) (rMemChRetrain 19 31) 49 48 < 3 ∧ 3 ≤ regBits (v 2) (rMemChRetrain 19 31) 49 48)) := by
  decide +kernel

/-- A periodic retrain that is due outside a step; the period of the cellar is what its control register holds. -/
theorem witness_ChannelCareCompletes_periodic :
    let s := { channelState 0 {} with now := 10 ^ 12 }
    periodicRuns s = false ∧ (s.cel.live.filter (fun id => retrainDue s id && periodicMay s id)).min? = some 639 := by
  decide +kernel

/-- Readings at each threshold of Table 7.3, and the two ends of the negative range. -/
theorem witness_CellarConditionsComplete :
    (∀ t ∈ [2000, 2047], 16 * 125 ≤ toSigned 12 t) ∧ (∀ t ∈ [1681, 1999], 16 * 105 < toSigned 12 t ∧ toSigned 12 t < 16 * 125) ∧
    (∀ t ∈ [0, 1312, 1360, 1361, 1472, 1520, 1680, 2048, 4095], toSigned 12 t ≤ 16 * 105) ∧ Powered up ∧ quiesced up 19 = false ∧
    (let s : State := { on [(rCelFloatA 255, 44, 44, 1)] with cel := { moves := [255] } }
     Powered s ∧ s.cel.moves.head? = some 255 ∧ regBits s (rCelFloatA 255) 44 44 = 1 ∧ moveWaits s 255 (regBits s (rCelFloatA 255) 60 45) = false) ∧
    (let s : State := { up with cel := { packs := [(0, some { desc := { slots := 0, blocks := 1, scode := 1, pool := 0, pslots := 0, map := 0 }, j := 0 })] } }
     (smGet none s.cel.packs 0).any (fun p => (blockRanges s p.desc p.j).all (fun q => !(accessWaits s q.1 q.2))) = true) := by
  decide +kernel

/-- The pinned part of cellar 0's aperture. -/
def pinAt (o : Nat) : Nat := 0x040000000000 + o

/-- Table 0 in the pinned aperture: four BF16 rows of 8 values in strides of 64 B, home here; version slots 0 CURRENT 1, 1 LOADING 2, 2 LOADED 3 with
`refs` references, 3 FREE; and a command block. -/
def tableState (refs : Nat) (cmds : List (Nat × Byte)) : State :=
  { up with
    regs := [(rCelLive, 1), (rCelPin 0, 1), (rLdrTdir, 0x040000000000#64), (rPwrStatus, 2)]
    mem := [(pinAt 2, 1), (pinAt 4, 8), (pinAt 6, 1), (pinAt 8, 4), (pinAt 16, 16), (pinAt 25, 16), (pinAt 29, 4), (pinAt 33, 32), (pinAt 37, 4), (pinAt 49, 1),
      (pinAt 0x1000, 1), (pinAt 0x1040, 1), (pinAt 0x1048, 3), (pinAt 0x1080, 2), (pinAt 0x1088, 1), (pinAt 0x10C0, 3), (pinAt 0x10C8, 2)] ++
      (if refs = 0 then [] else [(pinAt 0x10CC, BitVec.ofNat 8 refs)]) ++ [(pinAt 0x2003, 4), (pinAt 0x2008, 1)] ++ cmds }

/-- Its registers and memory are in canonical form. -/
theorem test_table_state_canonical : Registers.wf (tableState 1 []).regs = true ∧ Memory.wf (tableState 1 []).mem = true := by decide +kernel

/-- The table's state with version slot 2 referenced once, and a command block of each kind at 0x3000 + 64 × OP. -/
def versionState : State :=
  tableState 1 [(pinAt 0x3040, 1), (pinAt 0x3048, 4), (pinAt 0x3052, 1), (pinAt 0x305A, 2), (pinAt 0x3062, 3), (pinAt 0x3080, 2), (pinAt 0x3088, 2),
    (pinAt 0x30C0, 3), (pinAt 0x30C8, 3), (pinAt 0x3100, 4), (pinAt 0x3108, 1), (pinAt 0x3140, 5), (pinAt 0x3148, 3), (pinAt 0x3180, 6), (pinAt 0x3188, 2)]

theorem witness_VersionCommandsComplete :
    let s := versionState
    let d := tableDesc s 0
    Powered s ∧ d.ok = true ∧ (rowMapOf s d).ok = true ∧ (fetchBytes s d.versions 320 (unitLdr 0)).2.2 = 0 ∧
    (∀ op ∈ [1, 2, 3, 4, 5, 6], let c := verCmdAt s (pinAt (0x3000 + 64 * op))
     c.op = op ∧ c.table = 0 ∧ c.version = [0, 4, 2, 3, 1, 3, 2].getD op 0) ∧
    ((upTo 4).find? (fun v => decide (verState s d v = 0) && !(justFreed s d v)) = some 3 ∧ loadFits s d (rowMapOf s d) (verCmdAt s (pinAt 0x3040)) = true) ∧
    slotOf s d 2 [1] = some 1 ∧ slotOf s d 3 [2] = some 2 ∧ slotOf s d 1 [2, 3] = some 0 ∧
    (upTo 4).find? (fun v => decide (verNumber s d v = 3) && decide (verState s d v ≠ 0) && decide (0 < verRefs s d v)) = some 2 ∧
    (slotOf s d 2 [1, 2] = some 1 ∧ verRefs s d 1 = 0 ∧ s.ldr.switch ≠ some (0, 2)) := by
  decide +kernel

theorem witness_VersionCommandsComplete_refused :
    ∀ op ∈ [1, 2, 3, 4, 5, 6], verEffect versionState (tableDesc versionState 0) (rowMapOf versionState (tableDesc versionState 0))
      { op := op, table := 0, version := 0, shard := 0, overlay := 0, census := 0 } = none := by
  decide +kernel

/-- Fifteen lists in front of the one submitted, then sixteen; a list that ends; a prepared list of step 1. -/
theorem witness_PreparationsComplete :
    (∀ n ∈ [15, 16], ((getLarder (setLarder up 9 { preps := List.replicate n (0, 0, 0) }) 9).preps.length = n)) ∧ Powered up ∧
    (let s := { setLarder (tableState 0 []) 9 { preps := [(pinAt 0x4000, pinAt 0x5000, 0)] } with now := 1000 }
     (getLarder s 9).preps.head? = some (pinAt 0x4000, pinAt 0x5000, 0) ∧ 0 + prepCycles (memNat s (pinAt 0x4004) 4) ≤ s.now) ∧
    (let s := bytesAt (tableState 0 []) (pinAt 0x4000) [0, 0, 1, 0, 0, 0, 0, 0, 1]
     let list := pinAt 0x4000 / 64 * 64
     let u := noteFetch s list 64 (unitLdr 9)
     regBits u (rLdrPfStatus 9) 4 0 < 16 ∧ memNat u (list + 2) 1 = 1 ∧ memNat u (list + 8) 8 = stepNo u + 1 ∧ (tableDesc s (memNat s list 2)).ok = true ∧
       (rowMapOf s (tableDesc s (memNat s list 2))).ok = true) ∧
    ¬(memNat (noteFetch (tableState 0 []) (pinAt 0x4000) 64 (unitLdr 9)) (pinAt 0x4002) 1 = 1) := by
  decide +kernel

/-- A gather whose row 0 is at home, and one whose row 0 is a prefetched copy; a block of one row, and of two, being served. -/
theorem witness_RowReadsComplete :
    (let g : Gather := { room := 0, tk := 5, prep := 7, table := 0, first := 0, count := 1, dst := 0, mask := none, pitch := 0, eval := false, version := 1,
                         slot := 0, rows := [{ i := 0, row := 0, via := .home (pinAt 0x6000), issued := true }] }
     let s := setLarder (tableState 0 []) 0 { gathers := [g] }
     Powered s ∧ (getLarder s 0).gathers.find? (fun g => decide (g.room = 0 ∧ g.tk = 5)) = some g ∧
       (g.rows.find? (fun r => decide (r.i = 0) && r.issued)).map (fun r => r.via) = some (.home (pinAt 0x6000)) ∧ rowHeld s 0 (pinAt 0x6000) = false ∧
       accessWaits s (pinAt 0x6000) (tableWire (tableDesc s 0)) = false) ∧
    (let p : Prefetch := { list := 7, buf := pinAt 0x7000, table := 0, step := 1, started := true }
     let s (state : Byte) := bytesAt (setLarder (tableState 0 []) 0 { prefetches := [p] }) (pinAt 0x7007) [state]
     let a := pfAddr p (tableDesc (s 2) 0) (0 + 0)
     ∀ n ∈ [2, 3], prefetchOf (getLarder (s n) 0) 7 = some p ∧ accessWaits (s n) a (pfEntry (tableDesc (s n) 0)) = false ∧
       (fetchBytes (s n) a 8 (unitLdr 0)).2.2 = 0 ∧ nbits (leNat (fetchBytes (s n) a 8 (unitLdr 0)).2.1) 57 56 = n.toNat) ∧
    (∀ n ∈ [1, 2],
      let r : ServeRow := { ctx := 0, row := 0, addr := some (pinAt 0x6000), issued := true }
      let b : Serve := { rank := 1, floor := 0, header := [], table := 0, rows := List.replicate n r }
      let s := setLarder (tableState 0 []) 9 { serves := [b] }
      (getLarder s 9).serves[0]? = some b ∧ b.rows[0]? = some r ∧ rowHeld s 0 (pinAt 0x6000) = false ∧ accessWaits s (pinAt 0x6000) (tableWire (tableDesc s 0)) = false ∧
        (listSet b.rows 0 { r with read := some (true, []) }).all (fun r => r.read.isSome) = decide (n = 1)) := by
  decide +kernel

/-- A transfer of a kind from rank 1 to floor 9 of rank 0. -/
def xferOf (kind : Nat) (args data : List Byte) : Transfer :=
  { srank := 1, sfloor := 9, drank := 0, dfloor := 9, xid := 16383, kind := kind, len := data.length, step := 0, args := args ++ zeros (16 - args.length), data := data }

theorem witness_RowTransfersComplete :
    (∀ k ∈ [3, 4, 5, 6], Fresh up (xferOf k [] (zeros 64)) ∧ (xferOf k [] (zeros 64)).kind = k) ∧ Powered up ∧ queuesWait up 64 = false ∧ landingWaits up = false ∧
    (let s : State := { up with now := 100, fab := { done := [{ srank := 1, sfloor := 9, xid := 16383, status := 0, expiry := 100 }] } }
     Fresh s (xferOf 3 [] (zeros 64))) ∧
    ¬Fresh { up with fab := { done := [{ srank := 1, sfloor := 9, xid := 16383, status := 0, expiry := 1 }] } } (xferOf 3 [] (zeros 64)) := by
  decide +kernel

/-- A dense tensor of one Adam block on floor 9, with a slice that has come and a block that is ready. -/
def denseState : State :=
  let s := on [(rCelPin 0, 3, 0, 1), (rUpdDir 9, 11, 0, 1), (rUpdDir 9, 63, 12, pinAt 0 / 4096)]
  let s := bytesAt s (pinAt 0) ([1, 0, 3, 1, 8, 0, 0, 0, 8, 0, 0, 0, 0, 0, 0, 0, 8, 0, 0, 0, 0, 0, 0, 0, 8, 0, 0, 0, 1, 0, 0, 0] ++ leBytes 8 (pinAt 0x1000) ++ leBytes 8 (pinAt 0x2000))
  { s with
    now := 8720
    den := { units := [(9, { ready := [{ tensor := 1, blk := 0, since := 0 }] })]
             queue := [{ cid := 1, floor := 9, at_ := 8720, tensor := 1, i := 0, j := 0, lg := 0, vals := [], last := true }] }
    ldr := { closed := some 7720 } }

theorem witness_UpdatesComplete :
    Powered denseState ∧ denseState.ldr.closed = some 7720 ∧ 19 ∉ denseState.ldr.cellarsDone ∧ 7720 + tCue denseState (takenRecords denseState 19) ≤ denseState.now ∧
    engineWaits denseState 19 = false ∧
    denseState.den.queue[0]?.any (fun q => decide (q.at_ ≤ denseState.now) && (if q.vals.isEmpty then some denseState else takeSlice denseState q).isSome) = true ∧ denseState.seq.stopped = false ∧
    (denseDesc denseState 9 1).any (fun d => decide (max (getDen denseState 9).blkFree 0 + blockCost denseState d ≤ denseState.now)) = true := by
  decide +kernel

/-- Frames of a reduce-scatter: of another step's all-gather, of a direct partial that agrees with its collective and one that does not, of a live
collective and of none. -/
theorem witness_UpdatesComplete_frames :
    let c (k : Nat) : Coll := {
      room := 0, tk := 5, floor := 9, kind := k, tensor := 3, group := 0, counts := 0, wire := 0, dest := 0, blk := 0, unit := 0, src := 0
      dst := 0, nslices := 1, close := 0, stream := 0, foldRanks := 0, slices := [], members := [0, 1], pos := 0, step := 0 }
    let s (k : Nat) : State := { up with col := { live := [c k] } }
    let x (k pos : Nat) : Transfer := xferOf 7 [BitVec.ofNat 8 k, 0, 3, 0, 0, 0, 0, 0, 1, 0, 0, 0, BitVec.ofNat 8 pos, 0, 0, 0] []
    let bad (s : State) (x : Transfer) := s.col.live.any (fun c => decide (c.floor = x.dfloor ∧ c.tensor = argNat x 2 2 ∧ c.group = argNat x 4 2) && reducing c.kind && !(frameAgrees c x))
    let gone (s : State) (x : Transfer) := partialDropped s x.dfloor (argNat x 2 2) (argNat x 4 2) x.srank x.step
    (∀ k ∈ [1, 3], Fresh (s k) (x k 1) ∧ (x k 1).kind = 7) ∧ argNat { x 1 1 with step := 1 } 0 1 = 1 ∧ (1 : Nat) ≠ stepNo (s 1) ∧
    bad (s 3) (x 3 0) = true ∧ bad (s 3) (x 3 1) = false ∧ gone (s 3) (x 3 1) = false ∧
    gone { s 3 with col := { (s 3).col with decided := [{ floor := 9, tensor := 3, group := 0, step := 2, absent := [1], beyond := [] }] } } (x 3 1) = true ∧ (s 2).col.live.find? (fun c => frameFor c (x 2 1)) = some (c 2) ∧
    (State.reset).col.live.find? (fun c => frameFor c (x 2 1)) = none := by
  decide +kernel

/-- Link 49 in a state, with spare register lane 7 for none. -/
def linkOf (st spare : Nat) (k : Link) : State :=
  { on [(rLnkState 49, 2, 0, st), (rLnkState 49, 5, 3, spare), (rLnkCtrl 49, 0, 0, 1), (rLnkCtrl 49, 5, 3, 3)] with now := 2 ^ 20, fab := { links := [(49, k)] } }

theorem witness_LinksComplete :
    (let s := linkOf 2 7 {}
     Powered s ∧ linkState s 49 = 2 ∧ regBits s (rLnkState 49) 5 3 = 7 ∧ regBits s (rLnkCtrl 49) 5 3 < 4 ∧
       regBits (withField s (rLnkCtrl 49) 2 2 0) (rLnkState 49) 5 3 = 7 ∧ regBits (withField s (rLnkCtrl 49) 1 1 0) (rLnkCtrl 49) 0 0 = 1) ∧
    regBits (withField (linkOf 0 7 {}) (rLnkCtrl 49) 0 0 0) (rLnkCtrl 49) 0 0 = 0 ∧
    (regBits (linkOf 2 3 {}) (rLnkState 49) 5 3 ≠ 7 ∧ 4 ≠ regBits (linkOf 2 3 {}) (rLnkState 49) 5 3) ∧
    (let s := linkOf 2 7 { sent := 1 }
     (getLink s 49).acked < (getLink s 49).sent ∧ (getLink s 49).lastAck + 2 ^ 20 ≤ s.now) ∧
    (∀ n ∈ [1, 2], let s := withField (linkOf 1 7 {}) (rLnkState 49) 15 8 n
     linkState s 49 = 1 ∧ (if n = 1 then regBits s (rLnkState 49) 15 8 + 1 < 3 else 3 ≤ regBits s (rLnkState 49) 15 8 + 1)) := by
  decide +kernel

/-- The bytes of a data flit from rank 1 for rank 0 in job 0 before its check value, kind 0x10 and no payload (R353). -/
def flitHead : List Byte := [0, 0, 1, 0, 0, 0x10, 0, 0, 0, 0, 0, 0]

def aFlit : List Byte := flitHead ++ leBytes 4 0x66A2FB6E ++ zeros 240

theorem zeros_add (a b : Nat) : zeros (a + b) = zeros a ++ zeros b := List.replicate_append_replicate.symm

/-- Forty zero bytes through the check value, five values in turn. -/
theorem crc_flit_parts :
    (leBytes 8 0x100000000 ++ flitHead).foldl (crcByteR 0x82F63B78) 0xFFFFFFFF = 0xE63B253C ∧
    (zeros 40).foldl (crcByteR 0x82F63B78) 0xE63B253C = 0x3D737F7B ∧ (zeros 40).foldl (crcByteR 0x82F63B78) 0x3D737F7B = 0x63DA13F4 ∧
    (zeros 40).foldl (crcByteR 0x82F63B78) 0x63DA13F4 = 0x5146EF11 ∧ (zeros 40).foldl (crcByteR 0x82F63B78) 0x5146EF11 = 0xE7898952 ∧
    (zeros 40).foldl (crcByteR 0x82F63B78) 0xE7898952 = 0x9B5F9143 ∧ (zeros 40).foldl (crcByteR 0x82F63B78) 0x9B5F9143 = 0x995D0491 := by
  decide +kernel

theorem flit_is_sound : Machine.flitOk aFlit = true := by
  have z : zeros 240 = zeros 40 ++ (zeros 40 ++ (zeros 40 ++ (zeros 40 ++ (zeros 40 ++ zeros 40)))) := by simp only [← zeros_add]
  have h : crcFold 0x100000000 (flitHead ++ zeros 240) = 0x66A2FB6E := by
    obtain ⟨h0, h1, h2, h3, h4, h5, h6⟩ := crc_flit_parts
    rw [crcFold, crc32c, z, ← List.append_assoc, List.foldl_append, h0, List.foldl_append, h1, List.foldl_append, h2, List.foldl_append, h3,
      List.foldl_append, h4, List.foldl_append, h5, h6]
    decide
  have e : aFlit.take 12 ++ aFlit.drop 16 = flitHead ++ zeros 240 := by decide +kernel
  have k : leNat ((aFlit.drop 0).take 2) * 2 ^ 48 + leNat ((aFlit.drop 2).take 2) * 2 ^ 32 + leNat ((aFlit.drop 8).take 4) % 16384 = 0x100000000 := by
    decide +kernel
  have n : leNat ((aFlit.drop 12).take 4) = 0x66A2FB6E ∧ aFlit.length = 256 := by decide +kernel
  simp only [Machine.flitOk, e, k, h, n.1, n.2, decide_true, Bool.and_self]

/-- The flit, at a module of its job and at one of job 1; a flit whose check fails; NAKs of the oldest and the newest flit in flight. -/
theorem witness_FlitsComplete :
    Machine.flitOk aFlit = true ∧ (leNat ((aFlit.drop 5).take 1) = 0x10 ∧ leNat ((aFlit.drop 6).take 2) = regBits (linkOf 2 7 {}) rFabJob 15 0 ∧
      leNat ((aFlit.drop 0).take 2) = rank (linkOf 2 7 {}) ∧ leNat ((aFlit.drop 6).take 2) ≠ regBits (withField (linkOf 2 7 {}) rFabJob 15 0 1) rFabJob 15 0) ∧
    Machine.flitOk [] = false ∧
    (let s := linkOf 2 7 { sent := 3, acked := 1, replaySeq := 2, replays := 15 }
     linkState s 49 = 2 ∧ (∀ q ∈ [1, 2], (getLink s 49).acked ≤ q ∧ q < (getLink s 49).sent)) :=
  ⟨flit_is_sound, by decide +kernel, by decide +kernel, by decide +kernel⟩

/-- A transfer that floor 9 sent and has not been acknowledged, `tries` times over. -/
def outOf (tries : Nat) (waiting : Bool) (xids : List (Nat × Nat)) : State :=
  { on [(rFabE2e, 18, 16, 1), (rFabE2e, 15, 0, 1)] with
    now := 256, fab := { xids := xids, out := [{ t := { srank := 0, sfloor := 9, drank := 1, dfloor := 0, xid := 16383, kind := 3, len := 0, step := 0 }, tries := tries, waiting := waiting }] } }

theorem witness_TransfersComplete :
    (∀ n ∈ [1, 2], (outXfer (outOf n false []) 9 16383).any (fun x => decide (x.lastSent + e2eTimeout (outOf n false []) ≤ 256) &&
      decide (if n = 1 then x.tries ≤ regBits (outOf n false []) rFabE2e 18 16 else regBits (outOf n false []) rFabE2e 18 16 < x.tries)) = true) ∧
    (let k := 9 * 16384 + 16383
     let s := outOf 1 true [(k, 256)]
     smGet 0 s.fab.xids k ≠ 0 ∧ smGet 0 s.fab.xids k ≤ s.now ∧ outXfer s 9 16383 = none ∧
       (s.fab.out.find? (fun x => x.waiting && decide (x.t.sfloor = 9))).isSome = true) ∧
    ((State.reset).fab.out.find? (fun x => x.waiting && decide (x.t.sfloor = 9)) = none) ∧
    (let s := on [(rFabPermA 63, 63, 12, 16), (rFabPermB 63, 23, 0, 1), (rFabPermB 63, 39, 24, 1), (rFabPermB 63, 55, 40, 1)]
     let x (a : Nat) := xferOf 2 (leBytes 8 a) (zeros 64)
     Powered s ∧ Fresh s (xferOf 1 [] (zeros 64)) ∧ sendWaits s (xferOf 1 [] (zeros 64)) = false ∧ Fresh s (x 0x10FC0) ∧ argNat (x 0x10FC0) 0 8 = 0x10FC0 ∧
       accessWaits s 0x10FC0 64 = false ∧
       (upTo 64).any (permits s 1 0x10FC0 64) = true ∧ (upTo 64).any (permits s 1 0x10FC1 64) = false) := by
  decide +kernel

/-- Session 63 on queue pair 2 of port 7, with Window key 1 and Letterbox key 2, owning queue 15. -/
def sessionState (q : Qp) : State :=
  { on [(rPrcCtrl 7, 0, 0, 1), (rPrcStatus 7, 0, 0, 1), (rWinSess 63, 1, 0, 1), (rWinKeys 63, 31, 0, 1), (rWinKeys 63, 63, 32, 2), (rCelLive, 9, 0, 1),
        (rLbxOwner 15, 5, 0, 63), (rLbxOwner 15, 6, 6, 1), (rLbxCtrl, 0, 0, 1)] with
    now := 1000000
    por := { qps := [(2, some { q with slot := 63, port := 7 })], sessions := [(63, { qps := [2], writes := [(5, false), (6, true)], regions := [
      { host := 0, len := 4096, rkey := 0, purpose := 1 }] })] } }

def aQp : Qp := { slot := 63, port := 7, mtu := 0, texp := 0, retry := 1, hostQpn := 0, hostPsn := 0, gid := [], psn := 0 }

theorem witness_RdmaCompletes :
    let u := noteCe (sessionState aQp) 2 true
    Powered (sessionState aQp) ∧ qpSession (sessionState aQp) 2 = some 63 ∧ sessState u 63 = 1 ∧ (∀ h ∈ u.por.held, h.qp ≠ 2) ∧
    accessWaits u (unit64 - 64) 64 = false ∧ shardHeld u (unit64 - 64) 64 = false ∧ regBits u (rWinKeys 63) 31 0 = 1 ∧
    regBits u (rWinKeys 63) 63 32 = 2 ∧ windowAddr u 63 (unit64 - 64) 64 = some (unit64 - 64) ∧ windowAddr u 63 (unit64 - 63) 64 = none ∧
    letterboxRead u 63 (15 * 0x8000 + 0x7FC0) 64 = some (zeros 64) ∧ letterboxRead u 63 0 64 = none ∧
    (upTo 16).find? (ownsQueue u 63) = some 15 ∧ lbxOpen u = true ∧ lbxOpen (withField u rLbxCtrl 0 0 0) = false := by
  decide +kernel

theorem witness_QueuePairsComplete :
    let s (q : Qp) := sessionState q
    Powered (s aQp) ∧ (getQp (s aQp) 2).any (fun q => decide (q.tries < q.retry)) = true ∧
    (getQp (s { aQp with ccAt := 0 }) 2).any (fun q => decide (q.ccAt + 1300 * regBits (s aQp) (rPrcCc q.port) 31 24 ≤ 1000000)) = true ∧
    (∀ t ∈ [0, 1], (getQp (s { aQp with tries := t, sentAt := some 0, texp := 7 }) 2).any (fun q => decide (q.sentAt = some 0) && !q.err &&
      decide (10 * 0 + 53248 * 2 ^ q.texp ≤ 10 * 1000000) && decide (if t = 0 then q.tries < q.retry else q.retry ≤ q.tries)) = true) ∧
    (∀ w ∈ [(5, false), (6, true)], (getSess (s aQp) 63).writes.find? (fun v => decide (v.1 = w.1)) = some w) ∧
    (noticeRegion (s aQp) 63).isSome = true ∧ (getSess (s aQp) 63).qps.head? = some 2 := by
  decide +kernel

theorem witness_PorchPortsComplete :
    let s := on [(rPrcCtrl 7, 0, 0, 1), (rPrcCtrl 7, 1, 1, 1), (rPrcCtrl 7, 5, 5, 1), (rPrcCtrl 7, 4, 2, 7), (rPrcStatus 7, 0, 0, 1), (rPrcStatus 7, 1, 1, 1)]
    Powered s ∧ regBits s (rPrcCtrl 7) 0 0 = 1 ∧ regBits s (rPrcStatus 7) 0 0 = 1 ∧ portCarries s 7 = true ∧ regBits s (rPrcCtrl 7) 5 5 = 1 ∧
    regBits s (rPrcStatus 7) 1 1 = 1 ∧ regBits s (rPrcCtrl 7) 1 1 = 1 := by
  decide +kernel

/-- Queue 15 with C = 2^32 − 1, P = 3 and H = D = 2^32 − 1. -/
def queueAt (st : Nat) (q : Queue) (check : Nat) : State :=
  let s := on [(rLbxOwner 15, 6, 6, 1), (rLbxOwner 15, 8, 7, st), (rLbxCtrl, 0, 0, 1), (rLbxPtr 15, 31, 0, 2 ^ 32 - 1), (rLbxPtr 15, 63, 32, 3),
    (rLbxCq 15, 31, 0, 2 ^ 32 - 1), (rLbxCq 15, 63, 32, 2 ^ 32 - 1)]
  { s with now := 325, por := { queues := [(15, q)], lbx := smSetList (0 : Byte) [] (15 * 0x8000 + 255 * 0x80 + 0x7C) (leBytes 4 check) } }

theorem witness_LetterboxQueuesComplete_pointers :
    let s := queueAt 2 {} 0
    Powered s ∧ qOwned s 15 = true ∧ lbxOpen s = true ∧ qState s 15 = 2 ∧
    (ahead (qP s 15) 255 < 2 ^ 31 ∧ ahead (qC s 15) 255 ≤ 256 ∧ 256 < ahead (qC s 15) 256 ∧ ahead (qP s 15) 256 < 2 ^ 31) ∧
    2 ^ 31 ≤ ahead (qP s 15) 2 ∧ ahead (qH s 15) (2 ^ 32 - 1) ≤ ahead (qH s 15) (qDone s 15) ∧ ahead (qH s 15) (qDone s 15) < ahead (qH s 15) 0 ∧
    (2 ^ 32 - 1 : Nat) = qC s 15 := by
  decide +kernel

theorem crc_slot_parts :
    (leBytes 8 0xFFFFFFFFF ++ zeros 4).foldl (crcByteR 0x82F63B78) 0xFFFFFFFF = 0xB86201DE ∧
    (zeros 40).foldl (crcByteR 0x82F63B78) 0xB86201DE = 0xB597BB3C ∧ (zeros 40).foldl (crcByteR 0x82F63B78) 0xB597BB3C = 0x2DC71921 ∧
    (zeros 40).foldl (crcByteR 0x82F63B78) 0x2DC71921 = 0x5BB2F19C := by
  decide +kernel

/-- The check value of a slot of zeros in queue 15 at SEQ 2^32 − 1 of a session of generation 0 (R391). -/
theorem crc_of_slot : crcFold 0xFFFFFFFFF (zeros 124) = 0xA44D0E63 := by
  have z : zeros 124 = zeros 4 ++ (zeros 40 ++ (zeros 40 ++ zeros 40)) := by simp only [← zeros_add]
  obtain ⟨h0, h1, h2, h3⟩ := crc_slot_parts
  rw [crcFold, crc32c, z, ← List.append_assoc, List.foldl_append, h0, List.foldl_append, h1, List.foldl_append, h2, h3]
  decide

theorem slot_checks (check : Nat) (hs : (slotCmd (queueAt 0 {} check) 15).1.take 0x7C = zeros 124)
    (hn : cmdNat (slotCmd (queueAt 0 {} check) 15).1 0x7C 4 = check) (hg : (sessGen (queueAt 0 {} check) (qOwner (queueAt 0 {} check) 15)) <<< 48 + 15 <<< 32 +
      qC (queueAt 0 {} check) 15 = 0xFFFFFFFFF) : (slotCmd (queueAt 0 {} check) 15).2 = decide (check = 0xA44D0E63) := by
  have : (slotCmd (queueAt 0 {} check) 15).2 = decide (crcFold ((sessGen (queueAt 0 {} check) (qOwner (queueAt 0 {} check) 15)) <<< 48 + 15 <<< 32 +
      qC (queueAt 0 {} check) 15) ((slotCmd (queueAt 0 {} check) 15).1.take 0x7C) = cmdNat (slotCmd (queueAt 0 {} check) 15).1 0x7C 4) := rfl
  rw [this, hs, hn, hg, crc_of_slot]
  exact decide_eq_decide.mpr eq_comm

theorem witness_LetterboxQueuesComplete_commands :
    (Powered (queueAt 0 {} 0xA44D0E63) ∧ mayConsume (queueAt 0 {} 0xA44D0E63) 15 = true) ∧ (slotCmd (queueAt 0 {} 0xA44D0E63) 15).2 = true ∧ (slotCmd (queueAt 0 {} 1) 15).2 = false ∧
    (∀ k ∈ [6, 7], (getQueue (queueAt 0 { torn := some (k, 0) } 1) 15).torn = some (k, 0) ∧ 0 + 325 ≤ (queueAt 0 { torn := some (k, 0) } 1).now) :=
  ⟨by decide +kernel, (slot_checks _ (by decide +kernel) (by decide +kernel) (by decide +kernel)).trans (by decide),
    (slot_checks _ (by decide +kernel) (by decide +kernel) (by decide +kernel)).trans (by decide), by decide +kernel⟩

/-- The decidable form of `Executes`. -/
def executes (s : State) (q op : Nat) (roles : List Nat) (args : List Byte) : Bool :=
  (getQueue s q).cmd.any (fun c => decide (cmdNat c 0 2 = op) && !(slotReserved c) && decide (queueRole s q ∈ roles) && decide (q = 16 → op ∈ mgmtOps) &&
    decide (args = c.drop 16))

theorem executes_of_test {s : State} {q op : Nat} {roles : List Nat} {args : List Byte} (h : executes s q op roles args = true) : Executes s q op roles args := by
  simp only [executes, Option.any_eq_true, Bool.and_eq_true, decide_eq_true_eq, Bool.not_eq_true'] at h
  obtain ⟨c, h, ⟨⟨⟨h1, h2⟩, h3⟩, h4⟩, h5⟩ := h
  exact ⟨c, h, h1, h2, h3, h4, h5⟩

/-- Queue `q` executes a command; queue 15 is owned by session 63 in a role. -/
def commandState (q role op : Nat) (args : List Byte) : State :=
  { on [(rWinSess 63, 1, 0, 1), (rWinSess 63, 3, 2, role), (rLbxOwner 15, 5, 0, 63), (rLbxOwner 15, 6, 6, 1), (rPwrStatus, 1, 1, 1), (rCelLive, 9, 0, 1)] with
    por := { queues := [(q, { cmd := some (leBytes 2 op ++ zeros 14 ++ args) })] }, mgmt := { present := true, stage := 10 } }

theorem witness_RegisterCommandsComplete :
    (∀ r ∈ [0, 2], Executes (commandState 15 r 1 []) 15 1 [0, 1, 2] []) ∧
    (∀ b ∈ [[0], [1], [2], [3], [4], [5, 0], [0xFF, 0xFF]], ∀ q ∈ [15, 16], Executes (commandState q 1 2 b) q 2 [0, 1, 2] b) ∧
    (stepNo (commandState 15 1 2 []) = 0 ∧ 0 < stepNo (withField (commandState 15 1 2 []) rSchStep 63 0 1)) ∧
    (let a := baseCtl + fld (leBytes 8 0x11FFFFF8) 0 8
     Executes (commandState 16 1 3 (leBytes 8 0x11FFFFF8)) 16 3 [1, 2] (leBytes 8 0x11FFFFF8) ∧ inCtl a = true ∧ inCtl (a + 7) = true ∧ inCtl (a + 8) = false ∧
       answers (commandState 16 1 3 (leBytes 8 0x11FFFFF8)) a = true) ∧
    (answers State.reset baseCtl = false ∧ inCtl baseCtl = true) ∧
    (Executes (commandState 15 1 4 (leBytes 8 (rSchSeed - baseCtl) ++ leBytes 8 7)) 15 4 [1] (leBytes 8 (rSchSeed - baseCtl) ++ leBytes 8 7) ∧
      inCtl rSchSeed = true ∧ rSchSeed % 2 ^ 40 / 2 ^ 24 ∉ closedBlocks ∧ answers (commandState 15 1 4 []) rSchSeed = true) ∧
    (rMpFreeze % 2 ^ 40 / 2 ^ 24 ∈ closedBlocks) := by
  refine ⟨fun r hr => executes_of_test ?_, fun b hb q hq => executes_of_test ?_, by decide +kernel, ⟨executes_of_test (by decide +kernel), by decide +kernel⟩,
    by decide +kernel, ⟨executes_of_test (by decide +kernel), by decide +kernel⟩, by decide +kernel⟩
  · exact (by decide +kernel : ∀ r ∈ [0, 2], executes (commandState 15 r 1 []) 15 1 [0, 1, 2] [] = true) r hr
  · exact (by decide +kernel : ∀ b ∈ [[0], [1], [2], [3], [4], [5, 0], [0xFF, 0xFF]], ∀ q ∈ [15, 16],
      executes (commandState q 1 2 b) q 2 [0, 1, 2] b = true) b hb q hq

/-- A session block for slot 63 in the Letterbox payload area of queue 16: one queue pair, units 0 to `hi`. -/
def openState (hi : Nat) : State :=
  bytesAt (commandState 16 1 0x10 (zeros 8)) payloadAt ([63, 0, 1, 0, 0, 0, 0, 0, 0, 0, 0, 0, BitVec.ofNat 8 hi, 0, 0, 0] ++ zeros 8 ++ [1] ++ zeros 3 ++ [1])

theorem witness_SessionCommandsComplete :
    (∀ hi ∈ [48, 49], Executes (openState hi) 16 0x10 [1] (zeros 8) ∧ openBlockOk (memBytes (openState hi) payloadAt 256) = true ∧
      openRefused (openState hi) (openBlock (memBytes (openState hi) payloadAt 256)) = decide (hi = 49) ∧ sessionUnits (openState hi) = true) ∧
    (∀ r ∈ [0, 1, 2], Executes (commandState 15 r 0x11 [63]) 15 0x11 [0, 1, 2] [63] ∧ fld [63] 0 1 < 64 ∧ fld [63] 0 1 = qOwner (commandState 15 r 0x11 [63]) 15) ∧
    (let b (n : Nat) : List Byte := zeros 8 ++ leBytes 8 n ++ zeros 4 ++ [1]
     (∀ n ∈ [4096, 4096 * 2 ^ 8], Executes (commandState 15 0 0x12 (b n)) 15 0x12 [0, 1, 2] (b n) ∧ fld (b n) 20 1 = 1 ∧ (∃ i < 9, fld (b n) 8 8 = 4096 * 2 ^ i)) ∧
       (getSess (commandState 15 0 0x12 []) 63).regions.length < 4 ∧ (∀ r ∈ (getSess (commandState 15 0 0x12 []) 63).regions, r.purpose ≠ 1) ∧
       (∃ r ∈ ([{ host := 0, len := 4096, rkey := 0, purpose := 1 }] : List Region), r.purpose = 1)) ∧
    (let s := withField (commandState 15 0 0x13 (leBytes 8 (47 * unit64))) (rWinBounds 63) 30 16 48
     Executes s 15 0x13 [0, 1, 2] (leBytes 8 (47 * unit64)) ∧ fld (leBytes 8 (47 * unit64)) 0 8 % unit64 = 0 ∧
       regBits s (rWinBounds 63) 14 0 ≤ 47 ∧ 47 < regBits s (rWinBounds 63) 30 16 ∧ unit64 + 47 * unit64 ≤ stackBytes s ∧
       regBits s (rWinBounds 63) 30 16 ≤ 48 ∧ fld (leBytes 8 1) 0 8 % unit64 ≠ 0) := by
  refine ⟨fun hi h => ⟨executes_of_test ?_, ?_⟩, fun r h => ⟨executes_of_test ?_, ?_⟩, ⟨fun n h => ⟨executes_of_test ?_, ?_⟩, by decide +kernel⟩,
    executes_of_test (by decide +kernel), by decide +kernel⟩
  · exact (by decide +kernel : ∀ hi ∈ [48, 49], executes (openState hi) 16 0x10 [1] (zeros 8) = true) hi h
  · exact (by decide +kernel : ∀ hi ∈ [48, 49], openBlockOk (memBytes (openState hi) payloadAt 256) = true ∧
      openRefused (openState hi) (openBlock (memBytes (openState hi) payloadAt 256)) = decide (hi = 49) ∧ sessionUnits (openState hi) = true) hi h
  · exact (by decide +kernel : ∀ r ∈ [0, 1, 2], executes (commandState 15 r 0x11 [63]) 15 0x11 [0, 1, 2] [63] = true) r h
  · exact (by decide +kernel : ∀ r ∈ [0, 1, 2], fld [63] 0 1 < 64 ∧ fld [63] 0 1 = qOwner (commandState 15 r 0x11 [63]) 15) r h
  · exact (by decide +kernel : ∀ n ∈ [4096, 4096 * 2 ^ 8], executes (commandState 15 0 0x12 (zeros 8 ++ leBytes 8 n ++ zeros 4 ++ [1])) 15 0x12 [0, 1, 2]
      (zeros 8 ++ leBytes 8 n ++ zeros 4 ++ [1]) = true) n h
  · exact (by decide +kernel : ∀ n ∈ [4096, 4096 * 2 ^ 8], fld (zeros 8 ++ leBytes 8 n ++ zeros 4 ++ [1]) 20 1 = 1 ∧
      (∃ i < 9, fld (zeros 8 ++ leBytes 8 n ++ zeros 4 ++ [1]) 8 8 = 4096 * 2 ^ i)) n h

/-- Session 63's staging: K = 2, part 1 of 2, one page a slot at the start of cellar 0's pinned aperture, whose first slot holds a part for step 0 with
one entry. -/
def stagingState (crc : Nat) : State :=
  let c := commandState 15 0 0x21 []
  let s := [(rWinStageBase 63, 63, 12, pinAt 0 / 4096), (rWinStageCtl 63, 23, 0, 1), (rWinStageCtl 63, 28, 24, 2), (rWinStageCtl 63, 35, 32, 1),
    (rWinStageCtl 63, 40, 36, 2), (rCelPin 0, 3, 0, 1)].foldl (fun (s : State) r => withField s r.1 r.2.1 r.2.2.1 r.2.2.2) c
  { bytesAt s (pinAt 0) (ascii "GK20BTCH" ++ zeros 8 ++ leBytes 8 128 ++ leBytes 8 crc ++ zeros 4 ++ [1, 0, 1] ++ zeros 25 ++ [4, 0, 0, 0, 2]) with job := { loaded := true } }

theorem witness_FeedingCommandsComplete :
    (let b := [63, 15, 16, 2] ++ zeros 4 ++ leBytes 8 4096 ++ leBytes 8 4096
     Executes (commandState 15 1 0x20 b) 15 0x20 [1] b ∧ fld b 0 1 < 64 ∧ fld b 2 1 ≤ 16 ∧ fld b 1 1 < fld b 2 1 ∧ 2 ≤ fld b 3 1 ∧ fld b 3 1 ≤ 16 ∧
       fld b 8 8 % 4096 = 0 ∧ fld b 16 8 % 4096 = 0 ∧ fld b 16 8 ≠ 0 ∧ fld b 16 8 / 4096 < 2 ^ 24 ∧ (commandState 15 1 0x20 b).job.loaded = false ∧
       sessRole (commandState 15 0 0x20 b) 63 = 0 ∧ sessState (commandState 15 1 0x20 b) 0 = 0) ∧
    (let s := stagingState 1
     Executes s 15 0x21 [0] [] ∧ (getQueue s 15).next = none ∧ s.job.loaded = true ∧ (stagedAt s 63 0).k ≠ 0 ∧ batchUnread s (stagedAt s 63 0) 2 = false ∧
       batchCode s (stagedAt s 63 0) 2 ≠ 0) ∧
    ((getQueue (setQueue State.reset 15 { next := some 0 }) 15).next = some 0) :=
  ⟨⟨executes_of_test (by decide +kernel), by decide +kernel⟩, ⟨executes_of_test (by decide +kernel), by decide +kernel⟩, by decide +kernel⟩

theorem witness_FeedingCommandsComplete_accepted : batchCode (stagingState 0x99F2E7FF6A043AA6) (stagedAt (stagingState 0x99F2E7FF6A043AA6) 63 0) 0 = 0 := by
  decide +kernel

/-- A loaded job in LOADED with a journal ring. -/
def loadedJob (op : Nat) (b : List Byte) : State :=
  let s := [(rSchState, 2, 0, 2), (rJrnlCtl, 23, 0, 1)].foldl (fun (s : State) r => withField s r.1 r.2.1 r.2.2.1 r.2.2.2) (commandState 15 1 op b)
  { s with job := { loaded := true }, seq := { image := anImage 1 } }

theorem witness_JobCommandsComplete :
    (Executes (commandState 15 1 0x30 (leBytes 8 64)) 15 0x30 [1] (leBytes 8 64) ∧ fld (leBytes 8 64) 0 8 % 64 = 0 ∧
      (commandState 15 1 0x30 (leBytes 8 64)).job.loaded = false ∧ schState (commandState 15 1 0x30 (leBytes 8 64)) ≠ 3) ∧
    (let s := loadedJob 0x31 [0]
     Executes s 15 0x31 [1] [0] ∧ fld [0] 0 1 = 0 ∧ s.job.loaded = true ∧ schState s = 2 ∧ stagingWhole s = true ∧ regBits s rJrnlCtl 23 0 ≠ 0 ∧
       (phaseAt s 0).isSome = true ∧ s.jrnl.read = []) ∧
    (let s := loadedJob 0x31 [1]
     Executes s 15 0x31 [1] [1] ∧ fld [1] 0 1 = 1 ∧ s.job.loaded = true ∧ schState s = 2 ∧ stagingWhole s = true ∧
       schState (startJob (regSet (withField s rReplay 0 0 (fld [1] 0 1)) rReplayUntil (BitVec.ofNat 64 (fld [1] 8 8)))) = 3) ∧
    (let s := withField (loadedJob 0x32 []) rSchState 2 0 3
     Executes s 15 0x32 [1] [] ∧ schState s = 3) ∧
    (Executes (loadedJob 0x33 []) 15 0x33 [1] [] ∧ (loadedJob 0x33 []).job.loaded = true ∧ schState (loadedJob 0x33 []) ≠ 3) ∧
    (let b := leBytes 8 1
     let s : State := { loadedJob 0x34 b with att := { epochs := [{ num := 1, step := 0, rank := 0, full := true, base := 1, recs := [] }] } }
     Executes s 15 0x34 [1] b ∧ s.job.loaded = true ∧ schState s = 2 ∧
       (s.att.epochs.find? (fun e => decide (e.num = fld b 0 8 ∧ e.rank = rank s))).isSome = true ∧ restoreWaits s = false ∧
       (loadedJob 0x34 b).att.epochs.find? (fun e => decide (e.num = fld b 0 8 ∧ e.rank = rank (loadedJob 0x34 b))) = none) ∧
    Executes (commandState 15 1 0x35 (leBytes 8 9)) 15 0x35 [1] (leBytes 8 9) :=
  ⟨⟨executes_of_test (by decide +kernel), by decide +kernel⟩, ⟨executes_of_test (by decide +kernel), by decide +kernel⟩,
    ⟨executes_of_test (by decide +kernel), by decide +kernel⟩, ⟨executes_of_test (by decide +kernel), by decide +kernel⟩,
    ⟨executes_of_test (by decide +kernel), by decide +kernel⟩, ⟨executes_of_test (by decide +kernel), by decide +kernel⟩,
    executes_of_test (by decide +kernel)⟩

theorem witness_SystemCommandsComplete :
    (∀ op ∈ [1, 6], Executes (commandState 15 1 0x40 [BitVec.ofNat 8 op]) 15 0x40 [1] [BitVec.ofNat 8 op] ∧ 1 ≤ fld [BitVec.ofNat 8 op] 0 1 ∧
      fld [BitVec.ofNat 8 op] 0 1 ≤ 6) ∧
    (Executes (commandState 15 1 0x41 [19, 31]) 15 0x41 [1] [19, 31] ∧ Powered (commandState 15 1 0x41 [19, 31]) ∧ fld [19, 31] 0 1 < 20 ∧ fld [19, 31] 1 1 < 32) ∧
    (∀ q ∈ [15, 16],
      let s : State := { withField (commandState q 1 0x50 (zeros 8)) rSecStatus 1 1 1 with sec := { seed := some [] } }
      Executes s q 0x50 [1, 2] (zeros 8) ∧ (∃ key, idSeed s = some key) ∧ regBits s rSecStatus 1 1 = 1 ∧ fld (zeros 8) 0 8 = 0) ∧
    (let s : State := { commandState 16 1 0x51 [7] with sec := { seed := some [] } }
     Executes s 16 0x51 [1] [7] ∧ fld [7] 0 1 < 8 ∧ (∃ key, wrapKey s = some key) ∧ Executes (commandState 15 1 0x51 [7]) 15 0x51 [1] [7]) ∧
    (let s : State := { on [(rLbxCtrl, 1, 1, 1)] with mgmt := { stage := 4 } }
     4 ≤ s.mgmt.stage ∧ s.mgmt.service = false ∧ regBits s rLbxCtrl 1 1 = 1 ∧ mgmtAccepts s [0x4D, 0x43, 0xFE] = false ∧ ([0x4D, 0x43, 0xFF] : List Byte).take 2 = ascii "MC" ∧ fld [0x4D, 0x43, 0xFF] 2 1 = 0xFF ∧
       fld [0x4D, 0x43, 0xFE] 2 1 ≠ 0xFF ∧ (getQueue s 16).cmd = none) := by
  refine ⟨fun op h => ⟨executes_of_test ?_, ?_⟩, ⟨executes_of_test (by decide +kernel), by decide +kernel⟩,
    fun q h => ⟨executes_of_test ?_, ⟨_, rfl⟩, ?_, by decide⟩,
    ⟨executes_of_test (by decide +kernel), by decide, ⟨_, rfl⟩, executes_of_test (by decide +kernel)⟩, by decide +kernel⟩
  · exact (by decide +kernel : ∀ op ∈ [1, 6], executes (commandState 15 1 0x40 [BitVec.ofNat 8 op]) 15 0x40 [1] [BitVec.ofNat 8 op] = true) op h
  · exact (by decide +kernel : ∀ op ∈ [1, 6], 1 ≤ fld [BitVec.ofNat 8 op] 0 1 ∧ fld [BitVec.ofNat 8 op] 0 1 ≤ 6) op h
  · exact (by decide +kernel : ∀ q ∈ [15, 16], executes { withField (commandState q 1 0x50 (zeros 8)) rSecStatus 1 1 1 with sec := { seed := some [] } } q 0x50
      [1, 2] (zeros 8) = true) q h
  · exact (by decide +kernel : ∀ q ∈ [15, 16], regBits { withField (commandState q 1 0x50 (zeros 8)) rSecStatus 1 1 1 with sec := { seed := some [] } }
      rSecStatus 1 1 = 1) q h

/-- An epoch in capture, its parts as given, on one drive that works; the capture table is empty unless `n` is 1, when its one range lies nowhere. -/
def epochState (shadow dense : Bool) (n : Nat) : State :=
  { on [(rDrvState 0, 2, 0, 1), (rAttCaptureN, 15, 0, n), (rAttCapture, 63, 6, pinAt 0x1000 / 64), (rCelPin 0, 3, 0, 1), (rSchStep, 63, 0, 8)] with
    mem := smSetList (0 : Byte) [] (pinAt 0x1000) ([1, 0, 0, 0, 1, 0, 0, 0] ++ leBytes 8 0 ++ leBytes 8 64)
    att := { active := true, shadowDone := shadow, denseDone := dense, captured := 7, drives := [(0, { member := true })] } }

theorem witness_EpochsComplete :
    (let s := epochState false false 0
     Powered s ∧ s.att.active = true ∧ s.att.shadowDone = false ∧ rangesWait s 1 = false ∧ captureRanges s 2 1 = some [] ∧ captureRanges (epochState false false 1) 2 1 = none) ∧
    (let s := epochState true false 0
     s.att.shadowDone = true ∧ s.att.denseDone = false ∧ stepNo s = s.att.captured + 1 ∧ rangesWait s 0 = false ∧ captureRanges s 3 0 = some []) ∧
    (captureRanges { epochState true false 1 with mem := smSet (0 : Byte) (epochState true false 1).mem (pinAt 0x1004) 0 } 3 0 = none) ∧
    (let s := epochState true true 0
     s.att.active = true ∧ s.att.shadowDone = true ∧ s.att.denseDone = true ∧ atticWrites s = true ∧ ∀ o ∈ s.att.owed, accessWaits s o.addr o.len = false) ∧
    (expSize State.reset = 0 ∧
      (let s : State := { on [(rAttExportCtl, 23, 0, 4)] with att := { expPlaced := 2, exported := [(3, 1)] } }
       expSize s ≠ 0 ∧ (∀ tail ∈ [0, 2], s.att.expTaken + (tail % 4 + 4 - regBits s rAttExportPtr 63 32 % 4) % 4 ≤ s.att.expPlaced) ∧
         s.att.exported.filter (fun x => decide (x.1 ≤ 2)) = [] ∧ s.att.expPlaced < s.att.expTaken + (3 % 4 + 4 - regBits s rAttExportPtr 63 32 % 4) % 4)) := by
  decide +kernel

/-- Whether all of an epoch's records find room: with no export ring they do, with one of a single page they do not. -/
theorem witness_EpochsComplete_room :
    ∀ n ∈ [0, 1],
      let s := withField (epochState true true 0) rAttExportCtl 23 0 n
      let u := captureAll s.att.owed.length s
      let list := ((recPlaces u u.att.ringHead u.att.recs).map (fun p => leBytes 8 p.1 ++ leBytes 4 p.2.ty ++ leBytes 4 p.2.id)).flatten
      let v := if u.att.recs.any (fun r => decide (r.ty = 8)) then u
        else { u with att := { u.att with recs := u.att.recs ++ [{ attRec u 8 0 0 0 list with base := chainBase u (regBits s rAttEpoch 31 0) u.att.full }] } }
      let w := placeRecords (v.att.recs.drop v.att.placed) v
      if n = 0 then w.att.recs.length ≤ w.att.placed else w.att.placed < w.att.recs.length := by
  decide +kernel

/-- Drive 3 in a state, a member of the array. -/
def driveState (st : Nat) (d : Drive) : State :=
  { on [(rDrvState 3, 2, 0, st), (rDrvState 3, 3, 3, 1), (rDrvState 3, 4, 4, 1)] with now := 60 * 1300000000, att := { drives := [(3, d)] } }

theorem witness_DrivesComplete :
    (∀ st ∈ [1, 2, 4], Powered (driveState st {}) ∧ drvState (driveState st {}) 3 ≠ 0 ∧ drvState (driveState st {}) 3 ≠ 3) ∧
    (let s (t : List Nat) := driveState 1 { member := true, timeouts := t }
     let n (t : List Nat) := ((getDrive (s t) 3).timeouts.filter (fun x => decide ((s t).now ≤ x + 60 * 1300000000)) ++ [(s t).now]).length
     n [0] < 3 ∧ ¬(n [0, 0] < 3)) ∧
    ((driveState 1 { worn := true }).att.active = false ∧ (getDrive (driveState 1 { worn := true }) 3).worn = true ∧ (getDrive (driveState 1 {}) 3).worn = false) ∧
    (let s := driveState 3 { member := true }
     let u := withField s (rDrvState 3) 3 3 0
     let z := withField s (rDrvState 3) 4 4 0
     drvState u 3 ≠ 1 ∧ drvState u 3 ≠ 2 ∧ (getDrive u 3).member = true ∧ drvState z 3 ≠ 0) ∧
    (let s := on [(rCelPin 0, 3, 0, 1)]
     let n := regBits s rAttImportLen 31 0 * 4096
     let r := readBytes s (pinAt 0 / 4096 * 4096) n
     schState s ≠ 3 ∧ r.2 = 0 ∧ parseRun (rank s) (n / 4096 + 1) r.1 = some []) := by
  decide +kernel

theorem witness_ManagementProcessorCompletes :
    (let s : State := setWdog { on [(rMpWdog 3, 24, 24, 1)] with now := 1300 } 3 1300
     Clocked s ∧ wdogOn s 3 = true ∧ wdogEnd s 3 ≤ s.now) ∧
    sramBytes / 8 - 1 < sramBytes / 8 ∧
    (let ws := (upTo 6).map (fun i => regGet State.reset (rCvu 31 (8 * i)))
     regBits State.reset (rCvu 31 0x18) 16 16 = 0 ∧ cvuBad (cvuCfg ws) = false) ∧
    (∀ w ∈ [7, 65], cvuBad (cvuCfg ((upTo 6).map (fun i => regGet (on [(rCvu 31 0x18, 6, 0, w)]) (rCvu 31 (8 * i))))) = true) ∧
    (let s : State := { on [(rCvu 31 0x18, 16, 16, 1)] with now := 17, cvu := [(31, { ends := 17 })] }
     regBits s (rCvu 31 0x18) 16 16 = 1 ∧ (getCvu s 31).ends ≤ s.now) := by
  decide +kernel

/-- Source 512 with a software level, assigned to core 3 at priority 5. -/
def irqState (active : Nat) (st : List (Nat × Nat)) : State :=
  { on [(rIrqSrc 512, 3, 0, 5), (rIrqSrc 512, 8, 4, 8), (rIrqSrc 512, 11, 10, 3), (rIrqSrc 512, 12, 12, active), (rIrqSrc 512, 15, 13, 3)] with
    irq := { sw := [512], served := [(3, st)] } }

theorem witness_InterruptsComplete :
    (let s : State := { up with irq := { sw := [1023] } }
     Clocked s ∧ regBits s (rIrqSrc 1023) 10 10 ≠ b2n (levelOf s 1023)) ∧
    (let s : State := { on [(rIrqGrp 63, 10, 10, 1)] with now := 7, irq := { hold := [(63, 7)] } }
     regBits s (rIrqGrp 63) 10 10 = 1 ∧ smGet 0 s.irq.hold 63 ≤ s.now) ∧
    claimable State.reset 3 = none ∧ claimable (irqState 0 []) 3 = some 512 ∧
    ((irqStack (irqState 1 [(512, 5)]) 3).head? = some (512, 5) ∧ (∀ e ∈ (irqStack (irqState 1 [(34, 6)]) 3).head?, e.1 ≠ 512) ∧
      (∀ e ∈ (irqStack (irqState 1 []) 3).head?, e.1 ≠ 512)) ∧
    (let s := withField (irqState 1 []) (rIrqSrc 512) 15 13 4
     srcActive s 512 = true ∧ srcTarget s 512 = 4) := by
  decide +kernel

/-- A recorder with its HEAD and cursor at given offsets. -/
def recorderState (head cursor : Nat) (e : Evr) : State :=
  { on [(rEvrPtr, 15, 0, head), (rEvrCursor, 15, 3, cursor / 8), (rEvrCtrl, 0, 0, 1)] with now := 9, evr := e }

def aRecord : EvRec := { ty := 1, code := 7, unit := 0, ftime := 0, step := 0, body := [] }

theorem witness_RecorderCompletes :
    (let s := recorderState 0 0 { queue := [aRecord] }
     Clocked s ∧ s.evr.lost = 0 ∧ s.evr.queue.head? = some aRecord ∧ (evrWrite s aRecord).isSome = true) ∧
    (let s := recorderState 65504 0 { queue := [aRecord] }
     evrWrite s aRecord = none) ∧
    (let s := recorderState 0 0 { lost := 1, queue := List.replicate 63 aRecord }
     0 < s.evr.lost ∧ s.evr.queue.length < 64 ∧ regBits s rEvrCtrl 0 0 = 1 ∧
       (evrWrite s { ty := 4, code := 0, unit := unitId 12 0, ftime := s.now, step := recStep s, body := [(s.evr.lost, 8)] }).isSome = true) ∧
    (evrCursor (recorderState 64 65528 {}) ≠ evrHead (recorderState 64 65528 {}) ∧ evrCursor (recorderState 64 64 {}) = evrHead (recorderState 64 64 {})) ∧
    (let s := recorderState 64 65528 {}
     (∀ o ∈ [65528, 0, 64], (o + 65536 - evrCursor s) % 65536 ≤ evrUnread s) ∧ (∀ o ∈ [72, 65520], evrUnread s < (o + 65536 - evrCursor s) % 65536)) ∧
    (let s : State := { on [(rEvrTrg 7, 0, 0, 1), (rEvrTrg 7, 2, 1, 2), (rEvrTrgTime 7, 63, 0, 9)] with now := 9 }
     regBits s (rEvrTrg 7) 0 0 = 1 ∧ regBits s (rEvrTrg 7) 2 1 = 2 ∧ s.now = (regGet s (rEvrTrgTime 7)).toNat ∧
       regBits (withField s (rEvrTrg 7) 2 1 3) (rEvrTrg 7) 2 1 = 3) ∧
    (∀ n ∈ [0, 32], let s : State := { on [(rEvrTrg 7, 10, 5, n)] with evr := { snaps := [{ trig := 7, ftime := 0, vals := List.replicate n 0 }] } }
     (s.evr.snaps.head?.map (fun p => decide (min 32 (regBits s (rEvrTrg p.trig) 10 5) ≤ p.vals.length))) = some true) := by
  decide +kernel

theorem witness_FreezesComplete :
    (let s : State := { on [(rMpFreeze, 0, 0, 1), (rMpFreezeAt, 63, 0, 9)] with now := 9, mgmt := { stage := 2 } }
     Clocked s ∧ s.mgmt.frozen = none ∧ 2 ≤ s.mgmt.stage ∧ s.mgmt.freezeIgnored = false ∧ regBits s rMpFreeze 0 0 = 1 ∧ s.now = (regGet s rMpFreezeAt).toNat) ∧
    (let s : State := { up with mgmt := { frozen := some 0, scanSel := some 4 } }
     s.mgmt.frozen = some 0 ∧ s.mgmt.scanSel ≠ none) := by
  decide +kernel

/-- Inputs of 39.99, 40, 43.99 and 44 V; floors at each end of the ranges. -/
theorem witness_PowerAndHeatComplete :
    (3999 < 4000 ∧ 4000 ≤ 4000 ∧ 4399 < 4400 ∧ 4400 ≤ 4400) ∧ Powered up ∧ (9 : Nat) < 10 ∧
    (let h := noteHeat (noteRails (notePower State.reset 4399 0 0) [] [])
     let l := if h.mgmt.low = 0 then alarm h 1 false else if 10 ≤ h.mgmt.low then alarm h 1 true else h
     let v := if l.mgmt.high = 0 then alarm l 2 false else if 10 ≤ l.mgmt.high then alarm l 2 true else l
     v.mgmt.lockout = 0) ∧
    (∀ t ∈ [2000, 2047], 16 * 125 ≤ toSigned 12 t) ∧ (∀ t ∈ [0, 1999, 2048, 4095], toSigned 12 t < 16 * 125) := by
  decide +kernel

/-- Each stage, with the stage before it ended; service mode. -/
theorem witness_StartupCompletes :
    (∀ n ∈ upTo 10, let s : State := { up with mgmt := { present := true, stage := n } }
     atStage s n = true ∧ Clocked s) ∧
    idSeed State.reset = none ∧
    (let s : State := { up with mgmt := { present := true, service := true } }
     Clocked s ∧ inService s = true) := by
  decide +kernel

theorem witness_StartupCompletes_identity : ∃ k, idSeed { up with sec := { seed := some [] } } = some k := ⟨_, rfl⟩

theorem witness_RegisterAccessesComplete :
    (inCtl rSchStep = true ∧ rSchStep % 8 = 0 ∧ regFields rSchStep ≠ []) ∧
    answers (on [(rPwrStatus, 1, 1, 1)]) rSchStep = true ∧ answers State.reset rSchStep = false ∧ Clocked State.reset ∧
    (∀ w ∈ [4, 16], w ≠ 8) ∧ (rSchStep + 4) % 8 ≠ 0 ∧ inCtl (rSchStep + 4) = true ∧ (∃ a ∈ [baseCtl + 0xFFF8], inCtl a = true ∧ regFields a = []) ∧
    inCtl 0x05FFFFFFFFF8 = false ∧ inCtl 0x060012000000 = false := by
  decide +kernel

/-- A bundle of an ASWAP, a VADD, an MFENCE and an XADDI, encoded and decoded again. -/
theorem witness_BundlesRoundTrip :
    let a : Instr := .aswap 3 { gb := 4, gs := 2, gp := 1 }
    let v : Instr := .vadd 3 { vd := 31, va := 1, vb := 2 }
    let m : Instr := .mfence 3 { tk := 63 }
    let c : Instr := .xaddi 3 { d24 := 0xFFFC83#24 }
    (bundleWord (some a) (some v) (some m) (some c)).isSome = true ∧ (∀ i ∈ [a, v, m, c], slotRoom i = some 3) ∧
    (bundleWord (some a) (some v) (some m) (some c)).bind (bundleCmds 3) = some [a, v, m, c] := by
  decide +kernel

theorem witness_SlotsTouchOneRoom :
    slotForm (.vadd 0 {}) = some (0, true) ∧ slotForm (.wait 0 { cf := 2 }) = some (0, false) ∧ Acts (room {}) 0 ∧
    (match exec (.vadd 0 {}) (room {}) with | .next _ => true | _ => false) = true := by
  decide +kernel

theorem witness_BeatsOfAStretch :
    (∀ k ∈ [0, 16], regBits (on [(rSchStretch, 4, 0, k)]) rSchStretch 4 0 ≤ 16) ∧ (State.reset).seq.t0 ≤ (State.reset).seq.t0 ∧
    regBits (on [(rSchStretch, 4, 0, 0)]) rSchStretch 4 0 = 0 := by
  decide +kernel

theorem witness_CanonicalNans :
    fvIsNan (b32 0x7F800001#32) = true ∧ fvIsNan (b32 0xFFFFFFFF#32) = true ∧ fvIsNan (b32 0x7F800000#32) = false ∧
    (b32Sub 0x7F800000#32 0x7F800000#32).1 = b32Nan ∧ fvIsNan (b32 b32Nan) = true := by
  decide +kernel

theorem witness_CutCoversItsUnits : 0 < 1 ∧ (∀ p ∈ [0, 2], p < 3) ∧ 0 < 3 % 2 ∧ ¬(1 < 3 % 2) ∧ (0 : Nat) ≤ 1 ∧ 1 < 2 ∧ 2 < 3 := by decide

theorem witness_MemoryKeepsWhatIsWritten :
    let s := on [(rCelPin 19, 3, 0, 12)]
    let a := 0x040000000000 + 19 * 64 * mib + 48 * mib - 2
    (∀ i, i < [0x12#8, 0].length → translate s (a + i) = a + i ∧ locate s (a + i) = .pinned) ∧ locate s (a + 2) = .unmapped ∧ Memory.wf s.mem = true := by
  decide +kernel

/-- Token 5 pending, complete and failed, complete, and idle; a room held on it. -/
def waitRoom (t : Token) (run : RunState) (hold : Option Hold) : State :=
  { up with rooms := [(0, { run := run, toks := [(5, t)], hold := hold })] }

theorem witness_FailedTokens :
    (let s := waitRoom { st := .complete, word := doneWord 0x0155 1 } .running none
     Acts s 0 ∧ (∀ cf ∈ [0, 1], waitLegal { tk := 5, cf := cf } = true) ∧ (getRoom s 0).run ≠ .stopped ∧ (token (getRoom s 0) 5).st = .complete ∧
       bitOf (token (getRoom s 0) 5).word 18 = true ∧ regBits s rEvrCtrl 0 0 = 1 ∧ s.evr.queue.length < 63) ∧
    (∀ cf ∈ [(2 : BitVec 2), 3], cf = 2 ∨ cf = 3) := by
  decide +kernel

theorem witness_WaitCompletes :
    (∀ r ∈ [RunState.running, .stopped], let s := waitRoom { st := .pending } r none
     Acts s 0 ∧ waitLegal { tk := 5, d24 := 0xFFFFFF#24 } = true ∧ (token (getRoom s 0) 5).st = .pending ∧ (getRoom s 0).run = r) ∧
    (let s := waitRoom { st := .complete, word := doneWord 0 0, doneAt := 9 } .running none
     Acts s 0 ∧ (token (getRoom s 0) 5).st = .complete ∧ bitOf (token (getRoom s 0) 5).word 18 = false ∧ (getRoom s 0).run ≠ .stopped) ∧
    (token (getRoom (waitRoom {} .running none) 0) 5).st = .idle ∧
    (∀ cf ∈ [0, 1], let s := waitRoom { st := .pending } .held (some { tk := 5, w := 0, e := 0, cf := cf, bundle := 0 })
     (getRoom s 0).hold.any (fun h => decide (h.tk = 5 ∧ (h.cf = 0 ∨ (0 : Nat) = 0))) = true ∧ (getRoom s 0).run = .held) := by
  decide +kernel

/-! ### Effects on small states, from the words of the rules -/

/-- The state after a command. -/
def after (c : Instr) (s : State) : State := match step { s with pending := c :: s.pending } with | .next t => t | _ => s

/-- A room that its own bundle has stopped stays stopped at WAIT, PEND and HALT (R89, R116). -/
theorem test_stopped_room_stays_stopped :
    ∀ c ∈ [Instr.wait 0 { tk := 5 }, .halt 0 {}, .pend 0 {}], (getRoom (after c (waitRoom { st := .pending } .stopped none)) 0).run = .stopped := by
  decide +kernel

/-- XADD wraps modulo 2^64; its result waits for the next beat (R93, Table 4.10). -/
theorem test_xadd_wraps :
    let s := room { x := [(1, 0xFFFFFFFFFFFFFFFF#64), (2, 2#64)] }
    let t := after (.xadd 0 { d24 := 0x0823#24 }) s
    (getRoom t 0).micro.map (fun m => (m.due, m.op)) = [(1, .x 3 1#64)] ∧ xReg (getRoom (after (.xadd 0 { d24 := 0x0823#24 }) s) 0) 3 = 0 := by
  decide +kernel

/-- A misaligned VLD stops the room with ROOM_ADDRESS, recorded once (R94, R116). -/
theorem test_vld_misaligned :
    let t := after (.vld 0 { aa := 1, fmt := 1 }) (room { a := [(1, 32#64)] })
    (getRoom t 0).run = .stopped ∧ t.evr.queue.map (fun e => (e.ty, e.code)) = [(1, 0x0151)] := by
  decide +kernel

def aLoad : Elastic := { kind := .mload, f := { tk := 5, sfmt := 1, dfmt := 1 }, issued := 0, src := pinAt 0, dst := 128, len := 64, par := 0, shape := 0 }

/-- MLOAD_DONE copies the line and completes its token (R103, R107). -/
theorem test_mload_done_copies :
    let s0 := bytesAt (on [(rCelPin 0, 3, 0, 1)]) (pinAt 0) [0xAB]
    let s : State := { s0 with rooms := [(0, { run := .running, toks := [(5, { st := .pending })], ops := [aLoad] })] }
    let t := after (.mloadDone 0 5) s
    memBytes t (storeAddr 0 0 128) 2 = [0xAB, 0] ∧ (token (getRoom t 0) 5).st = .complete ∧ bits (token (getRoom t 0) 5).word 18 0 = 0x20000 ∧ (getRoom t 0).ops = [] := by
  decide +kernel

/-- The claim of the example after R436: source 34 at priority 6 is claimed; the word has VALID and the priority. -/
theorem test_irq_claim :
    let t := after (.irqClaim 3) (irqState 0 [])
    t.lastRead = BitVec.ofNat 64 (512 + 2 ^ 10 + 5 * 2 ^ 11) ∧ irqStack t 3 = [(512, 5)] ∧ srcActive t 512 = true := by
  decide +kernel

/-- REF_OK of a module whose PRIORITY is 255 reads 0 whatever its input says; of another it follows the input (R480). -/
theorem test_ref_ok_at_priority_255 :
    ∀ p ∈ [254, 255], regBits (after (.refOkChange true false false 0 0) (on [(rFabTimeCfg, 7, 0, p)])) rFabTimeStat 0 0 = b2n (decide (p ≠ 255)) := by
  decide +kernel

/-- A read of 4 bytes reads 0, one of 8 reads the register; a write of 4 bytes writes nothing (R8). -/
theorem test_access_width :
    let s := on [(rSchSeed, 63, 0, 9)]
    (after (.registerReadClear ⟨rSchSeed, 4⟩) s).lastRead = 0 ∧ (after (.registerReadClear ⟨rSchSeed, 8⟩) s).lastRead = 9 ∧
    (regGet (after (.registerWrite ⟨rSchSeed, 4⟩ 7) s) rSchSeed, regGet (after (.registerWrite ⟨rSchSeed, 8⟩ 7) s) rSchSeed) = (9, 7) := by
  decide +kernel

/-- With no command waiting a cycle passes (log 4). -/
theorem test_tick_counts : (match step State.reset with | .next t => t.now | _ => 0) = 1 := by decide +kernel

end Sys2Proof.Tests
end

section
/-!
The statements on memory, reset, the queue and register accesses (00_scope.md).
-/
namespace Sys2Proof.Proofs
open Sys2Proof.Machine Sys2Proof.Laws

/-! ### Sparse maps and little-endian numbers -/

/-- An empty map reads as its default everywhere. -/
theorem smGetList_nil {α : Type} (d : α) (a n : Nat) : smGetList d [] a n = List.replicate n d := by
  induction n generalizing a with
  | zero => rfl
  | succ n ih => rw [smGetList, ih, List.replicate_succ]; rfl

theorem smSetList_append {α : Type} [DecidableEq α] (d : α) (m : List (Nat × α)) (a : Nat) (xs ys : List α) :
    smSetList d m a (xs ++ ys) = smSetList d (smSetList d m a xs) (a + xs.length) ys := by
  induction xs generalizing m a with
  | nil => rfl
  | cons x xs ih =>
    have hn : a + 1 + xs.length = a + (x :: xs).length := by rw [List.length_cons]; omega
    rw [List.cons_append, smSetList, ih, smSetList, hn]

theorem smGetList_add {α : Type} (d : α) (m : List (Nat × α)) (a k n : Nat) :
    smGetList d m a (k + n) = smGetList d m a k ++ smGetList d m (a + k) n := by
  induction k generalizing a with
  | zero => simp [smGetList]
  | succ k ih =>
    have hn : a + 1 + k = a + (k + 1) := by omega
    rw [Nat.succ_add_eq_add_succ, Nat.add_succ, smGetList, ih, smGetList, List.cons_append, hn]

@[simp] theorem length_leBytes (n v : Nat) : (leBytes n v).length = n := by
  induction n generalizing v with
  | zero => rfl
  | succ n ih => rw [leBytes, List.length_cons, ih]

/-- The little-endian bytes of a number give it back, modulo what they hold (R5). -/
theorem leNat_leBytes (n v : Nat) : leNat (leBytes n v) = v % 256 ^ n := by
  induction n generalizing v with
  | zero => rw [Nat.pow_zero, Nat.mod_one]; rfl
  | succ n ih =>
    rw [leBytes, leNat, ih, Nat.pow_succ', Nat.mod_mul, BitVec.toNat_ofNat]

/-! ### The spans of a range -/

/-- The spans `l` follow one another without gaps from `p` to `e`, and none is empty. -/
def Tiles : Nat → List (Nat × Nat) → Nat → Prop
  | p, [], e => p = e
  | p, q :: l, e => q.1 = p ∧ 0 < q.2 ∧ Tiles (p + q.2) l e

theorem Tiles.le {l : List (Nat × Nat)} {p e : Nat} (h : Tiles p l e) : p ≤ e := by
  induction l generalizing p with
  | nil => exact Nat.le_of_eq h
  | cons q l ih =>
    obtain ⟨-, -, rest⟩ := h
    have := ih rest
    omega

/-- The part of `[a, a + n)` in the `i`-th line from the one that holds `a`. -/
def lineSpan (a n i : Nat) : Nat × Nat :=
  (max a (a - a % 64 + 64 * i), min (a + n) (a - a % 64 + 64 * i + 64) - max a (a - a % 64 + 64 * i))

theorem lineSpans_eq_map (a n : Nat) : lineSpans a n = (upTo (ceilDiv (a % 64 + n) 64)).map (lineSpan a n) := rfl

/-- The spans of the lines `k` to `k + j`, the last of them the line that ends the range, tile what is left of it. -/
theorem tiles_map_lineSpan {a n k j : Nat} (hlo : 64 * (k + j) < a % 64 + n) (hhi : a % 64 + n ≤ 64 * (k + j + 1)) (hn : 0 < n) :
    Tiles (max a (a - a % 64 + 64 * k)) ((upFrom k (j + 1)).map (lineSpan a n)) (a + n) := by
  induction j generalizing k with
  | zero =>
    have last : max a (a - a % 64 + 64 * k) + (lineSpan a n k).2 = a + n := by unfold lineSpan; omega
    exact ⟨rfl, by unfold lineSpan; omega, last⟩
  | succ j ih =>
    have next : max a (a - a % 64 + 64 * k) + (lineSpan a n k).2 = max a (a - a % 64 + 64 * (k + 1)) := by unfold lineSpan; omega
    refine ⟨rfl, by unfold lineSpan; omega, ?_⟩
    rw [next]
    exact ih (by omega) (by omega)

/-- A range that is not empty is cut into spans that tile it. -/
theorem tiles_lineSpans (a : Nat) {n : Nat} (hn : 0 < n) : Tiles a (lineSpans a n) (a + n) := by
  have hc : ceilDiv (a % 64 + n) 64 = (a % 64 + n - 1) / 64 + 1 := by unfold ceilDiv; omega
  have h0 : max a (a - a % 64 + 64 * 0) = a := by omega
  have tiles := tiles_map_lineSpan (a := a) (n := n) (k := 0) (j := (a % 64 + n - 1) / 64) (by omega) (by omega) hn
  rw [h0] at tiles
  rwa [lineSpans_eq_map, hc]

/-! ### Pinned ranges -/

/-- Every byte of `[a, a + n)` lies in a pinned part and is not moved by the floating map or a parity window (R21, R142). -/
def PinnedRange (s : State) (a n : Nat) : Prop := ∀ i, i < n → translate s (a + i) = a + i ∧ locate s (a + i) = .pinned

theorem PinnedRange.byte {s : State} {a n p : Nat} (h : PinnedRange s a n) (hlo : a ≤ p) (hhi : p < a + n) : translate s p = p ∧ locate s p = .pinned := by
  have := h (p - a) (by omega)
  rwa [Nat.add_sub_cancel' hlo] at this

/-- What backs an address depends on the registers alone. -/
theorem PinnedRange.withMem {s : State} {a n : Nat} (h : PinnedRange s a n) (m : List Host.Cell) : PinnedRange { s with mem := m } a n := h

theorem writePiece_pinned {s : State} {p : Nat} (bs : List Byte) (ht : translate s p = p) (hl : locate s p = .pinned) :
    writePiece s p bs = ({ s with mem := smSetList 0 s.mem p bs }, 0) := by
  simp [writePiece, writeAt, writeCodeAt, putBytes, ht, hl]

theorem readPiece_pinned {s : State} {p : Nat} (n : Nat) (ht : translate s p = p) (hl : locate s p = .pinned) :
    readPiece s p n = (smGetList 0 s.mem p n, 0) := by
  simp [readPiece, readCode, readCodeAt, memBytes, ht, hl]

/-- What `writeBytes` does at one span: it writes the span's bytes and keeps the first fault. -/
def writeSpan (a : Nat) (bs : List Byte) (x : State × Nat) (q : Nat × Nat) : State × Nat :=
  let y := writePiece x.1 q.1 ((bs.drop (q.1 - a)).take q.2)
  (y.1, firstCode x.2 y.2)

theorem writeBytes_eq_foldl (s : State) (a : Nat) (bs : List Byte) : writeBytes s a bs = (lineSpans a bs.length).foldl (writeSpan a bs) (s, 0) := rfl

/-- What `readBytes` does at one span: it appends the span's bytes and keeps the first fault. -/
def readSpan (s : State) (x : List Byte × Nat) (q : Nat × Nat) : List Byte × Nat :=
  let y := readPiece s q.1 q.2
  (x.1 ++ y.1, firstCode x.2 y.2)

theorem readBytes_eq_foldl (s : State) (a n : Nat) : readBytes s a n = (lineSpans a n).foldl (readSpan s) ([], 0) := rfl

/-- Spans that tile the rest of a pinned range, from `p` on, store the rest of the bytes there. -/
theorem foldl_writeSpan_pinned {s : State} {a : Nat} {bs : List Byte} (h : PinnedRange s a bs.length) {l : List (Nat × Nat)} {p : Nat} (m : List Host.Cell)
    (hap : a ≤ p) (ht : Tiles p l (a + bs.length)) :
    l.foldl (writeSpan a bs) ({ s with mem := m }, 0) = ({ s with mem := smSetList 0 m p (bs.drop (p - a)) }, 0) := by
  induction l generalizing p m with
  | nil =>
    have hp : p = a + bs.length := ht
    rw [hp, Nat.add_sub_cancel_left, List.drop_length]
    rfl
  | cons q l ih =>
    obtain ⟨hq, hw, ht⟩ := ht
    have hle := ht.le
    obtain ⟨htr, hloc⟩ := (h.withMem m).byte hap (by omega)
    have hlen : ((bs.drop (p - a)).take q.2).length = q.2 := by rw [List.length_take, List.length_drop]; omega
    have hcut : bs.drop (p - a) = (bs.drop (p - a)).take q.2 ++ bs.drop (p + q.2 - a) := by
      rw [Nat.sub_add_comm hap, ← List.drop_drop, List.take_append_drop]
    have step : writeSpan a bs ({ s with mem := m }, 0) q = ({ s with mem := smSetList 0 m p ((bs.drop (p - a)).take q.2) }, 0) := by
      rw [writeSpan, hq, writePiece_pinned _ htr hloc]
      rfl
    rw [List.foldl_cons, step, ih _ (by omega) ht]
    conv_rhs => rw [hcut, smSetList_append, hlen]

/-- A non-empty write to a pinned range stores its bytes and changes nothing else. -/
theorem writeBytes_pinned {s : State} {a : Nat} {bs : List Byte} (h : PinnedRange s a bs.length) (hne : bs ≠ []) :
    writeBytes s a bs = ({ s with mem := smSetList 0 s.mem a bs }, 0) := by
  rw [writeBytes_eq_foldl, foldl_writeSpan_pinned h s.mem le_rfl (tiles_lineSpans a (List.length_pos_iff.mpr hne)), Nat.sub_self, List.drop_zero]

/-- Spans that tile the rest of a pinned range, from `p` on, read what memory holds there. -/
theorem foldl_readSpan_pinned {s : State} {a n : Nat} (h : PinnedRange s a n) {l : List (Nat × Nat)} {p : Nat} (acc : List Byte)
    (hap : a ≤ p) (ht : Tiles p l (a + n)) : l.foldl (readSpan s) (acc, 0) = (acc ++ smGetList 0 s.mem p (a + n - p), 0) := by
  induction l generalizing p acc with
  | nil =>
    have hp : p = a + n := ht
    rw [hp, Nat.sub_self, smGetList, List.append_nil]
    rfl
  | cons q l ih =>
    obtain ⟨hq, hw, ht⟩ := ht
    have hle := ht.le
    obtain ⟨htr, hloc⟩ := h.byte hap (by omega)
    have hcut : a + n - p = q.2 + (a + n - (p + q.2)) := by omega
    have step : readSpan s (acc, 0) q = (acc ++ smGetList 0 s.mem p q.2, 0) := by
      rw [readSpan, hq, readPiece_pinned _ htr hloc]
      rfl
    rw [List.foldl_cons, step, ih _ (by omega) ht, hcut, smGetList_add, List.append_assoc]

/-- A read of a non-empty pinned range gives what memory holds. -/
theorem readBytes_pinned {s : State} {a n : Nat} (h : PinnedRange s a n) (hn : 0 < n) : readBytes s a n = (smGetList 0 s.mem a n, 0) := by
  rw [readBytes_eq_foldl, foldl_readSpan_pinned h [] le_rfl (tiles_lineSpans a hn), Nat.add_sub_cancel_left, List.nil_append]

/-- A non-empty write to a pinned range reads back. -/
theorem readBytes_writeBytes_pinned {s : State} {a : Nat} {bs : List Byte} (h : PinnedRange s a bs.length) (hne : bs ≠ []) :
    readBytes (writeBytes s a bs).1 a bs.length = (bs, 0) := by
  rw [writeBytes_pinned h hne, readBytes_pinned (h.withMem _) (List.length_pos_iff.mpr hne), smGetList_smSetList]

/-- A number written to a non-empty pinned range reads back, modulo what its bytes hold. -/
theorem memNat_writeNat_pinned {s : State} {a n : Nat} (h : PinnedRange s a n) (hn : 0 < n) (v : Nat) :
    memNat (writeNat s a n v) a n = v % 256 ^ n := by
  have hl := length_leBytes n v
  have hne : leBytes n v ≠ [] := List.ne_nil_of_length_pos (by omega)
  have hrb := readBytes_writeBytes_pinned (bs := leBytes n v) (hl.symm ▸ h) hne
  rw [hl] at hrb
  rw [memNat, readNat, writeNat, hrb, leNat_leBytes]

/-- Every clause of `Obligations.MemoryKeepsWhatIsWritten` holds of a range with at least one byte: only an empty range can fail it. -/
theorem memoryKeepsWhatIsWritten_of_ne_nil (s : State) (a : Nat) (bs : List Byte) (hne : bs ≠ []) (h : PinnedRange s a bs.length) :
    let t := (writeBytes s a bs).1
    (writeBytes s a bs).2 = 0 ∧ readBytes t a bs.length = (bs, 0) ∧ (∀ b, b < a ∨ a + bs.length ≤ b → smGet 0 t.mem b = smGet 0 s.mem b) ∧
    (Memory.wf s.mem = true → Memory.wf t.mem = true) ∧ t = { s with mem := t.mem } ∧
    (∀ v, memNat (writeNat s a bs.length v) a bs.length = v % 256 ^ bs.length) := by
  have hw := writeBytes_pinned h hne
  refine ⟨by rw [hw], readBytes_writeBytes_pinned h hne, fun b hb => ?_, writeBytes_wf a bs, by rw [hw], ?_⟩
  · rw [hw]
    exact smGet_smSetList_other 0 s.mem a bs hb
  · exact memNat_writeNat_pinned h (List.length_pos_iff.mpr hne)

/-- A write of no bytes at an unaligned address still visits that address's line, here one that nothing backs. -/
theorem writeBytes_nil_unmapped : (writeBytes State.reset 1 []).2 = codeUnmapped := by decide +kernel

/-- Refutes O58: the range may be empty, and then nothing is said of its address; a write of no bytes to the unmapped address 1 after reset answers
ADDRESS_UNMAPPED. -/
theorem not_memoryKeepsWhatIsWritten : ¬ Obligations.MemoryKeepsWhatIsWritten := by
  unfold Obligations.MemoryKeepsWhatIsWritten
  intro h
  have hcode : (writeBytes State.reset 1 []).2 = 0 := (h State.reset 1 [] (fun i hi => absurd hi (Nat.not_lt_zero i))).1
  rw [writeBytes_nil_unmapped] at hcode
  exact absurd hcode (by decide)

/-! ### The register maps -/

/-- A single register covers its own address alone. -/
theorem covers_reg1 (b a : Nat) (fs : List RField) : (reg1 b fs).covers a = decide (a = b) := by
  dsimp only [RDef.covers, reg1]
  rw [Bool.eq_iff_iff]
  simp only [Bool.and_eq_true, decide_eq_true_eq]
  constructor
  · rintro ⟨hle, ⟨hfirst, -⟩, hrem⟩
    omega
  · rintro rfl
    omega

/-- A row of `n` registers covers each of them. -/
theorem covers_regN {b n st i : Nat} (fs : List RField) (hi : i < n) (hs : 0 < st) (hr : st * i < 2 ^ 28) : (regN b n st fs).covers (b + st * i) = true := by
  simp only [RDef.covers, regN, Nat.add_sub_cancel_left, Nat.div_eq_of_lt hr, Nat.mod_eq_of_lt hr, Nat.mul_div_cancel_left _ hs, Nat.mul_mod_right,
    Nat.le_add_right, hi, decide_true, Nat.zero_lt_one, Bool.and_self]

/-- The fields of a register, once its block is known. -/
theorem regFields_of_block {a b : Nat} (hb : a % 2 ^ 40 / 2 ^ 24 = b) :
    regFields a = ((blockRegs b).find? (fun d => d.covers a)).elim [] RDef.fields := by
  rw [regFields, hb]
  cases (blockRegs b).find? (fun d => d.covers a) <;> rfl

theorem regFields_rIrqSrc {n : Nat} (hn : n < 1024) :
    regFields (rIrqSrc n) = [fRw 3 0 15, fRw 8 4 1, fRw 9 9, fRo 10 10, fRo 11 11, fRo 12 12, fRo 15 13 7] := by
  have block : rIrqSrc n % 2 ^ 40 / 2 ^ 24 = 11 := by unfold rIrqSrc baseIrq; omega
  have h1 : rIrqSrc n ≠ rIrqSwset := by unfold rIrqSrc rIrqSwset; omega
  have h2 : rIrqSrc n ≠ rIrqSwclr := by unfold rIrqSrc rIrqSwclr; omega
  have h3 : rIrqSrc n ≠ rIrqStat := by unfold rIrqSrc rIrqStat; omega
  have h4 (fs : List RField) : (regN (rIrqSrc 0) 1024 8 fs).covers (rIrqSrc n) = true := covers_regN fs hn (by omega) (by omega)
  simp only [regFields_of_block block, blockRegs, regsIrq, List.find?_cons, covers_reg1, h1, h2, h3, h4, decide_false]
  rfl

theorem regFields_rWinSess {k : Nat} (hk : k < 64) : regFields (rWinSess k) = [fRw 1 0, fRw 3 2, fRw 31 16, fRw 47 32] := by
  have block : rWinSess k % 2 ^ 40 / 2 ^ 24 = 7 := by unfold rWinSess rWin baseWin; omega
  have h1 (fs : List RField) : (regN (rWinSess 0) 64 0x100 fs).covers (rWinSess k) = true := by
    have := covers_regN (b := rWinSess 0) fs hk (st := 0x100) (by omega) (by omega)
    rwa [show rWinSess 0 + 0x100 * k = rWinSess k by unfold rWinSess rWin; omega] at this
  simp only [regFields_of_block block, blockRegs, regsWin, List.find?_cons, h1]
  rfl

/-! ### Reset -/

/-- After power-on every register field reads from its reset value. -/
theorem regBits_reset (a hi lo : Nat) : regBits State.reset a hi lo = bits (regReset a) hi lo := rfl

theorem memBytes_reset (a n : Nat) : memBytes State.reset a n = zeros n := smGetList_nil 0 a n

theorem sessState_reset {k : Nat} (hk : k < 64) : sessState State.reset k = 0 := by
  rw [sessState, regBits_reset, regReset, regFields_rWinSess hk]
  decide

theorem regBits_rIrqSrc_reset {n : Nat} (hn : n < 1024) : regBits State.reset (rIrqSrc n) 15 13 = 7 := by
  rw [regBits_reset, regReset, regFields_rIrqSrc hn]
  decide

theorem qOwned_reset : ∀ q, q < 17 → qOwned State.reset q = false := by decide +kernel

theorem regBits_rIrqRpri_reset : ∀ c, c < 4 → regBits State.reset (rIrqRpri c) 4 0 = 16 := by decide +kernel

theorem regGet_rCvu_reset : ∀ k, k < 32 → regGet State.reset (rCvu k 0) = 0x1EDC6F41#64 := by decide +kernel

/-- Settles O1: nothing is listed, so each register reads its map's reset value and each byte 0. -/
theorem resetState : Obligations.ResetState := by
  refine ⟨rfl, rfl, reset_mem_wf, reset_regs_wf, fun _ => rfl, memBytes_reset, ?_, fun _ => rfl, fun _ => sessState_reset, qOwned_reset,
    regBits_rIrqRpri_reset, fun _ => regBits_rIrqSrc_reset, regGet_rCvu_reset, ?_, rfl, rfl⟩
  · decide +kernel
  · decide +kernel

/-! ### The queue and the clock -/

theorem step_of_pending_nil {s : State} (h : s.pending = []) : step s = .next (tick s) := by
  rw [step, h]

/-- In a frozen module a cycle only counts, and the notes of the cycle begin anew (R10, R448). -/
theorem tick_frozen {s : State} (h : Frozen s) : tick s = { s with now := s.now + 1, cyc := { old := s.regs } } := by
  have still : clocksStopped s = true := h
  simp only [tick, still, if_true]

/-- Settles O3: with no command waiting a step is `tick`, which a frozen module cuts short. -/
theorem emptyQueueIsOneCycle : Obligations.EmptyQueueIsOneCycle := by
  intro s hp
  rw [step_of_pending_nil hp]
  exact ⟨⟨_, rfl⟩, fun hf => by rw [tick_frozen hf]⟩

/-! ### Register accesses -/

/-- An access to a register: aligned, of 64 bits, in the region, at an address where the block's map has one (R8). -/
def RegisterAt (a n : Nat) : Prop := inCtl a = true ∧ n = 8 ∧ a % 8 = 0 ∧ regFields a ≠ []

/-- An access within the region that is none to a register (R8). -/
def NoRegisterAt (a n : Nat) : Prop := inCtl a = true ∧ (n ≠ 8 ∨ a % 8 ≠ 0 ∨ regFields a = [])

section
variable {s : State} {a n : Nat}

theorem exec_registerWrite (h : Clocked s) (acc : Sys2Proof.CtlAccess) (d : Sys2Proof.Word) :
    exec (.registerWrite acc d) s = .next (writeCtl s acc.addr acc.width d) :=
  clocked_runs h (execRegisterWrite acc d s)

theorem exec_registerReadClear (h : Clocked s) (acc : Sys2Proof.CtlAccess) : exec (.registerReadClear acc) s = .next (readCtl s acc.addr acc.width) :=
  clocked_runs h (execRegisterReadClear acc s)

theorem writeCtl_answered (h : RegisterAt a n) (ha : answers s a = true) (d : Sys2Proof.Word) : writeCtl s a n d = writeReg s a d := by
  obtain ⟨hin, hn, hal, hf⟩ := h
  simp [writeCtl, hin, hn, hal, ha, hf]

theorem readCtl_answered (h : RegisterAt a n) (ha : answers s a = true) : readCtl s a n = readReg s a := by
  obtain ⟨hin, hn, hal, hf⟩ := h
  simp [readCtl, hin, hn, hal, ha, hf]

theorem writeCtl_unpowered (h : RegisterAt a n) (ha : answers s a = false) (d : Sys2Proof.Word) : writeCtl s a n d = s := by
  obtain ⟨hin, -⟩ := h
  simp [writeCtl, hin, ha]

theorem readCtl_unpowered (h : RegisterAt a n) (ha : answers s a = false) :
    readCtl s a n = { s with lastRead := Sys2Proof.Config.freeWord s.freeCount, freeCount := s.freeCount + 1 } := by
  obtain ⟨hin, hn, hal, hf⟩ := h
  simp [readCtl, hin, hn, hal, ha, hf]

theorem writeCtl_noRegister (h : NoRegisterAt a n) (d : Sys2Proof.Word) : writeCtl s a n d = s := by
  obtain ⟨hin, hno⟩ := h
  have bad : n ≠ 8 ∨ a % 8 ≠ 0 ∨ answers s a = false ∨ (regFields a).isEmpty := by
    rcases hno with hn | hal | hf
    · exact .inl hn
    · exact .inr (.inl hal)
    · exact .inr (.inr (.inr (List.isEmpty_iff.mpr hf)))
  simp only [writeCtl, hin, Bool.not_true, Bool.false_eq_true, if_false, if_pos bad]

theorem readCtl_noRegister (h : NoRegisterAt a n) : readCtl s a n = { s with lastRead := 0 } := by
  obtain ⟨hin, hno⟩ := h
  rw [← List.isEmpty_iff] at hno
  simp only [readCtl, hin, Bool.not_true, Bool.false_eq_true, if_false, if_pos hno]

theorem writeCtl_outside (h : inCtl a = false) (d : Sys2Proof.Word) : writeCtl s a n d = unmapped s a := by
  simp only [writeCtl, h, Bool.not_false, if_true]

theorem readCtl_outside (h : inCtl a = false) : readCtl s a n = { unmapped s a with lastRead := 0 } := by
  simp only [readCtl, h, Bool.not_false, if_true]

end

/-- Settles O49: one clause for each of the four things that R8 has an access meet. -/
theorem registerAccessesComplete : Obligations.RegisterAccessesComplete := by
  intro s a hc
  simp only [exec_registerWrite hc, exec_registerReadClear hc]
  refine ⟨fun hin hal hf => ?_, fun w hin hno => ?_, fun w hout => ?_⟩
  · have hr : RegisterAt a 8 := ⟨hin, rfl, hal, hf⟩
    exact ⟨fun ha => ⟨fun d => by rw [writeCtl_answered hr ha], by rw [readCtl_answered hr ha]⟩,
      fun ha => ⟨fun d => by rw [writeCtl_unpowered hr ha], by rw [readCtl_unpowered hr ha]⟩⟩
  · have hn : NoRegisterAt a w := ⟨hin, hno⟩
    exact ⟨fun d => by rw [writeCtl_noRegister hn], by rw [readCtl_noRegister hn]⟩
  · exact ⟨fun d => by rw [writeCtl_outside hout], by rw [readCtl_outside hout]⟩

end Sys2Proof.Proofs
end

section
/-!
The statements on the journal, SCH_CTRL and the outcome of a step (01_floors_rooms_cellars.md).
-/
namespace Sys2Proof.Proofs
open Sys2Proof.Machine Sys2Proof.Laws

/-! ### Fields of registers -/

/-- A field reads as it was written, modulo its width, where it lies within the word. -/
theorem bits_setBits_same {n : Nat} (w : BitVec n) {hi lo : Nat} (v : Nat) (hlo : lo ≤ hi) (hhi : hi < n) :
    bits (setBits w hi lo v) hi lo = v % 2 ^ (hi + 1 - lo) := by
  have hwidth : n = lo + (n - lo) := by omega
  have hdvd : 2 ^ (hi + 1 - lo) ∣ 2 ^ (n - lo) := Nat.pow_dvd_pow 2 (by omega)
  have hcut : w.toNat / 2 ^ lo - w.toNat / 2 ^ lo % 2 ^ (hi + 1 - lo) = 2 ^ (hi + 1 - lo) * (w.toNat / 2 ^ lo / 2 ^ (hi + 1 - lo)) := by
    have := Nat.mod_add_div (w.toNat / 2 ^ lo) (2 ^ (hi + 1 - lo))
    omega
  simp only [bits, setBits, BitVec.toNat_ofNat, Nat.shiftLeft_eq, Nat.shiftRight_eq_div_pow]
  conv_lhs => rw [show 2 ^ n = 2 ^ lo * 2 ^ (n - lo) by rw [← Nat.pow_add, ← hwidth]]
  rw [Nat.mod_mul_right_div_self, Nat.mod_mod_of_dvd _ hdvd, Nat.add_mul_div_right _ _ (Nat.two_pow_pos lo), Nat.mul_comm _ (2 ^ lo),
    Nat.sub_mul_div, hcut, Nat.mul_add_mod, Nat.mod_mod]

theorem regGet_withField_same (s : State) (a hi lo v : Nat) : regGet (withField s a hi lo v) a = setBits (regGet s a) hi lo v :=
  smGet_smSet_same (regReset a) s.regs a _

theorem regBits_withField_same (s : State) (a : Nat) {hi lo : Nat} (v : Nat) (hlo : lo ≤ hi) (hhi : hi < 64) :
    regBits (withField s a hi lo v) a hi lo = v % 2 ^ (hi + 1 - lo) := by
  rw [regBits, regGet_withField_same, bits_setBits_same _ v hlo hhi]

/-! ### Powered modules -/

section
variable {s : State}

theorem powered_runs (h : Powered s) (o : Host.Outcome State Fault Refusal) : powered s o = o := by
  have acts : mainsIdle s = false := h
  simp only [powered, acts, Bool.false_eq_true, if_false]

theorem clocked_of_powered (h : Powered s) : Clocked s := by
  have acts : mainsIdle s = false := h
  rw [mainsIdle, Bool.or_eq_false_iff] at acts
  exact acts.1

theorem exec_schCtrlLoad (h : Powered s) : exec .schCtrlLoad s = .next (loadImage s) := powered_runs h (execSchCtrlLoad s)

theorem exec_schCtrlStart (h : Powered s) : exec .schCtrlStart s = .next (startJob s) := powered_runs h (execSchCtrlStart s)

theorem exec_schCtrlStop (h : Powered s) : exec .schCtrlStop s = .next (passAbort (sendAbort s 0)) := powered_runs h (execSchCtrlStop s)

theorem exec_journalPut (h : Powered s) (addr : Nat) : exec (.journalPut addr) s = execJournalPut addr s := powered_runs h _

theorem exec_replayRingLoad (h : Powered s) (head : Nat) : exec (.replayRingLoad head) s = .next (withField s rRplyPtr 31 0 head) :=
  powered_runs h (execReplayRingLoad head s)

end

/-! ### Loading (R124, R125) -/

/-- The state that a refused load leaves (log 103): no image, no rooms and no locks, and the fault recorded. -/
def loadRefused (u : State) (code : Nat) : State :=
  imageFault { lockJob (regPut u rSchState 2 0 0) 0 with seq := { u.seq with image := {} }, rooms := [] } code

/-- Whether an image is the job's, of no more turns than it allows, with a close barrier that it names (R124, R137, R208). -/
def ImageFits (u : State) (im : Image) : Prop := im.modules = u.seq.jobModules ∧ tauMod (takeImage u im) ≤ im.turnsMax ∧ closeNamed u im = true

/-- SCH_IMAGE as an address. -/
def imageAddr (s : State) : Nat := regBits s rSchImage 63 6 * 64

/-- LENGTH in the header of the image at SCH_IMAGE (Table 5.1). -/
def imageLength (s : State) : Nat := leNat (((readBytes s (imageAddr s) 0x100).1.drop 0x10).take 8)

/-- The module once it has fetched and measured the image `b`. -/
def measured (s : State) (b : List Byte) : State :=
  mrExtend (noteFetch s (imageAddr s) (imageLength s) unitSch) 2 (digest64 (b.take (secOff b 9)))

/-- Outside state RUNNING, SCH_IMAGE names the image `b`: every byte of it can be read, and it holds a header and reaches a signature block. -/
structure ImageRead (s : State) (b : List Byte) : Prop where
  idle : schState s ≠ 3
  header : (readBytes s (imageAddr s) 0x100).2 = 0
  length : imageLength s ≤ 2 ^ 41
  whole : readBytes s (imageAddr s) (imageLength s) = (b, 0)
  hasHeader : 0x100 ≤ b.length
  hasSignature : secOff b 9 ≤ b.length

/-- What a load does with a measured image: its signature, its format and its fit are checked in this order (R125). The code is 0 where it is taken. -/
def checkImage (u : State) (b : List Byte) : State × Nat :=
  if imageSigned u b = false then (loadRefused (regPut u rSecEvent 0 0 1) codeImageSignature, codeImageSignature)
  else
    match parseImage b with
    | none => (loadRefused u codeImageFormat, codeImageFormat)
    | some im =>
      if im.modules ≠ u.seq.jobModules ∨ im.turnsMax < tauMod (takeImage u im) ∨ closeNamed u im = false then
        (loadRefused u codeImageMismatch, codeImageMismatch)
      else (takeImage u im, 0)

section
variable {s u : State} {b : List Byte}

theorem tryImage_of_read (h : ImageRead s b) : tryImage s = checkImage (measured s b) b := by
  obtain ⟨idle, header, length, whole, hasHeader, hasSignature⟩ := h
  have readable : ¬((readBytes s (imageAddr s) 0x100).2 ≠ 0 ∨ 2 ^ 41 < imageLength s) := by omega
  have reaches : ¬((0 : Nat) ≠ 0 ∨ b.length < 0x100 ∨ b.length < secOff b 9) := by omega
  have len : at_ (readBytes s (imageAddr s) 0x100).1 0x10 8 = imageLength s := rfl
  rw [tryImage, if_neg idle]
  dsimp only
  rw [← imageAddr, len, if_neg readable, if_neg readable, whole]
  exact if_neg reaches

theorem checkImage_unsigned (h : imageSigned u b = false) :
    checkImage u b = (loadRefused (regPut u rSecEvent 0 0 1) codeImageSignature, codeImageSignature) := if_pos h

theorem checkImage_malformed (hsig : imageSigned u b = true) (h : parseImage b = none) :
    checkImage u b = (loadRefused u codeImageFormat, codeImageFormat) := by
  rw [checkImage, hsig, h]
  rfl

theorem checkImage_misfit {im : Image} (hsig : imageSigned u b = true) (hparse : parseImage b = some im) (h : ¬ImageFits u im) :
    checkImage u b = (loadRefused u codeImageMismatch, codeImageMismatch) := by
  have misfit : im.modules ≠ u.seq.jobModules ∨ im.turnsMax < tauMod (takeImage u im) ∨ closeNamed u im = false := by
    rwa [ImageFits, not_and_or, not_and_or, not_le, Bool.not_eq_true] at h
  rw [checkImage, hsig, hparse]
  exact if_pos misfit

theorem checkImage_fits {im : Image} (hsig : imageSigned u b = true) (hparse : parseImage b = some im) (h : ImageFits u im) :
    checkImage u b = (takeImage u im, 0) := by
  have fits : ¬(im.modules ≠ u.seq.jobModules ∨ im.turnsMax < tauMod (takeImage u im) ∨ closeNamed u im = false) := by
    rwa [not_or, not_or, not_not, not_lt, Bool.not_eq_false]
  rw [checkImage, hsig, hparse]
  exact if_neg fits

end

/-! ### Starting (R342, R344) -/

section
variable {s : State}

theorem readReplay_of_not_replaying (h : replaying s = false) : readReplay s = s := by
  simp only [readReplay, h, Bool.false_eq_true, false_and, if_false]

/-- A ring of which nothing has been read holds no JOB record to disagree with. -/
theorem jobRecordAgrees_of_unread (h : s.jrnl.read = []) : jobRecordAgrees s = true := by
  rw [jobRecordAgrees, h, List.find?_nil]

/-- START's last check: it is refused with REPLAY_DIVERGED where a JOB record disagrees with what is loaded (R344); otherwise the started module `t` stands. -/
def replayChecked (s t : State) : State :=
  match (if jobRecordAgrees t then none else some (replayItems t 1 0 (fun _ => true))) with
  | some items => journalFault s codeReplayDiverged items
  | none => t

theorem replayChecked_of_agrees {t : State} (h : jobRecordAgrees t = true) : replayChecked s t = t := by
  rw [replayChecked, h]
  rfl

/-- The state at the start barrier of phase `p`, with the job running and no replay. -/
def atStartBarrier (s : State) (p : PhaseEnt) : State :=
  let t := withField (withField s rSchState 2 0 3) rReplay 1 1 0
  openSync { t with seq := { t.seq with stopped := false, abort := none } } p.startSync 0 s.now

theorem replaying_atStartBarrier (p : PhaseEnt) : replaying (atStartBarrier s p) = false := by
  have off : regBits (atStartBarrier s p) rReplay 1 1 = 0 := regBits_withField_same (withField s rSchState 2 0 3) rReplay 0 (by omega) (by omega)
  rw [replaying, off]
  rfl

theorem startJob_recording {p : PhaseEnt} (hload : schState s = 2) (hring : regBits s rJrnlCtl 23 0 ≠ 0) (hphase : phaseAt s 0 = some p)
    (hreplay : regBits s rReplay 0 0 = 0) (hread : s.jrnl.read = []) : startJob s = atStartBarrier s p := by
  have same : readReplay (atStartBarrier s p) = atStartBarrier s p := readReplay_of_not_replaying (replaying_atStartBarrier p)
  rw [startJob, if_neg (not_not_intro hload), if_neg hring, hphase, hreplay]
  change replayChecked s (readReplay (atStartBarrier s p)) = _
  rw [same]
  exact replayChecked_of_agrees (jobRecordAgrees_of_unread hread)

end

/-- Settles O20: a load is `checkImage` of what it has measured, a start without a replay reads no record, and the other commands are one update each. -/
theorem journalAndScheduleControlComplete : Obligations.JournalAndScheduleControlComplete := by
  refine ⟨fun s hp => ⟨fun b hidle => ?load, ?start, ?stop⟩, fun s hp => ⟨?put, ?head⟩⟩
  case load =>
    intro h len hheader hlen hwhole hhas hsec u refuse
    have read : ImageRead s b := ⟨hidle, hheader, hlen, hwhole, hhas, hsec⟩
    rw [exec_schCtrlLoad hp, loadImage, tryImage_of_read read]
    refine congrArg Host.Outcome.next ?_
    change (checkImage u b).1 = _
    cases hsig : imageSigned u b with
    | false => exact congrArg Prod.fst (checkImage_unsigned hsig)
    | true =>
      cases hparse : parseImage b with
      | none => exact congrArg Prod.fst (checkImage_malformed hsig hparse)
      | some im =>
        by_cases fits : ImageFits u im
        · rw [checkImage_fits hsig hparse fits, if_pos rfl]
          exact (if_pos fits).symm
        · rw [checkImage_misfit hsig hparse fits, if_pos rfl]
          exact (if_neg fits).symm
  case start =>
    intro p hload hring hphase hreplay hread
    rw [exec_schCtrlStart hp, startJob_recording hload hring hphase hreplay hread]
    rfl
  case stop =>
    intro hrun hab stop
    have acts : clocksStopped s = false ∧ schState s = 3 ∧ s.seq.abort = none := ⟨clocked_of_powered hp, hrun, hab⟩
    rw [exec_schCtrlStop hp]
    exact congrArg (fun t => Host.Outcome.next (passAbort t)) (if_pos acts)
  case put =>
    intro addr a h u hheader hunits hbody
    rw [exec_journalPut hp]
    exact if_neg (by simp only [not_or, not_not]; exact ⟨hheader, Nat.not_lt.mpr hunits, hbody⟩)
  case head => exact fun head => exec_replayRingLoad hp head

/-- The outcome is a next state: neither a fault nor a refusal. -/
def Completes (o : Host.Outcome State Fault Refusal) : Prop := ∃ t, o = .next t

/-! ### The outcomes that a meaning is made of -/

theorem Completes.next {s : State} : Completes (.next s) := ⟨s, rfl⟩

theorem Completes.ite {a b : Host.Outcome State Fault Refusal} {c : Prop} {dec : Decidable c} (ha : Completes a) (hb : Completes b) :
    Completes (if c then a else b) := by
  split
  · exact ha
  · exact hb

/-- A unit that is idle where its clock or its power is missing (R17, R448): the shape of `clocked` and of `powered`. -/
theorem Completes.unlessIdle {o : Host.Outcome State Fault Refusal} {c : Prop} {dec : Decidable c} {s : State} (h : Completes o) :
    Completes (if c then .next s else o) := Completes.next.ite h

/-- A queue of Travar's that holds no such command, or one it does not take, answers all the same (R399). -/
theorem travar_completes (q op : Nat) (roles : List Nat) (s : State) (act : List Byte → State) : Completes (travar q op roles s act) := by
  unfold travar
  split
  · exact .next
  · exact .ite .next (.ite .next (.ite .next .next))

/-! ### Meanings that look something up first -/

section
variable {s : State}

theorem execPeriodicRetrainStart_completes : Completes (execPeriodicRetrainStart s) := by
  refine .ite .next ?_
  split <;> exact .next

theorem execRetrainComplete_completes {cellar ch rdT wrT rdV wrV : Nat} : Completes (execRetrainComplete cellar ch rdT wrT rdV wrV s) := by
  unfold execRetrainComplete
  dsimp only
  split
  · exact .next
  · exact .ite .next (.ite .next .next)

theorem execPackedBlockWriteback_completes {slot : Nat} : Completes (execPackedBlockWriteback slot s) := by
  unfold execPackedBlockWriteback
  split
  · exact .ite .next .next
  · exact .next

theorem execPrepComplete_completes {floor : Nat} : Completes (execPrepComplete floor s) := by
  unfold execPrepComplete
  split
  · exact .next
  · exact .ite .next .next

theorem execGatherRowReadDone_completes {room tk n : Nat} : Completes (execGatherRowReadDone room tk n s) := by
  unfold execGatherRowReadDone
  dsimp only
  split
  · exact .next
  · split
    · exact .next
    · split
      · exact .ite .next .next
      · split
        · exact .next
        · exact .ite .next (.ite .next (.ite .next .next))
      · exact .next

theorem execServeRowReadDone_completes {floor k e : Nat} : Completes (execServeRowReadDone floor k e s) := by
  unfold execServeRowReadDone
  dsimp only
  split
  · exact .next
  · split
    · exact .next
    · split
      · exact .next
      · exact .ite .next (.ite .next .next)

theorem execCellarUpdateComplete_completes {cellar : Nat} : Completes (execCellarUpdateComplete cellar s) := by
  unfold execCellarUpdateComplete
  split
  · exact .next
  · exact .ite .next .next

theorem execSliceDeliver_completes {k : Nat} : Completes (execSliceDeliver k s) := by
  unfold execSliceDeliver
  split
  · exact .next
  · refine .ite .next ?_
    split <;> exact .next

theorem execBlockProcessComplete_completes {floor : Nat} : Completes (execBlockProcessComplete floor s) := by
  unfold execBlockProcessComplete
  dsimp only
  split
  · exact .next
  · split
    · exact .next
    · exact .ite .next .next

theorem execE2eTimeout_completes {floor xid : Nat} : Completes (execE2eTimeout floor xid s) := by
  unfold execE2eTimeout
  split
  · exact .next
  · exact .ite .next (.ite .next .next)

theorem execXidRelease_completes {floor xid : Nat} : Completes (execXidRelease floor xid s) := by
  refine .ite .next ?_
  split <;> exact .next

theorem execNoticeWriteAck_completes {slot nseq : Nat} : Completes (execNoticeWriteAck slot nseq s) := by
  unfold execNoticeWriteAck
  split
  · exact .ite .next .next
  · exact .next

theorem execCommandReread_completes {q : Nat} : Completes (execCommandReread q s) := by
  unfold execCommandReread
  split
  · exact .next
  · exact .ite .next (.ite .next (.ite .next (.ite .next .next)))

theorem execCnpReceive_completes {qp : Nat} : Completes (execCnpReceive qp s) := by
  unfold execCnpReceive
  split <;> exact .next

theorem execCcTimer_completes {qp : Nat} : Completes (execCcTimer qp s) := by
  unfold execCcTimer
  split
  · exact .next
  · exact .ite .next .next

theorem execRoceAckTimeout_completes {qp : Nat} : Completes (execRoceAckTimeout qp s) := by
  unfold execRoceAckTimeout
  split
  · exact .next
  · split
    · exact .next
    · exact .ite .next (.ite .next .next)

theorem execRoceNakReceive_completes {qp : Nat} {rnr : Bool} : Completes (execRoceNakReceive qp rnr s) := by
  unfold execRoceNakReceive
  split
  · exact .next
  · exact .ite .next (.ite .next .next)

theorem execEpochShadowCopyDone_completes : Completes (execEpochShadowCopyDone s) := by
  refine .ite .next ?_
  split <;> exact .next

theorem execDenseCopyDone_completes : Completes (execDenseCopyDone s) := by
  refine .ite .next ?_
  split <;> exact .next

theorem execWaitTimeout_completes {room : Nat} : Completes (execWaitTimeout room s) := by
  unfold execWaitTimeout
  dsimp only
  split
  · exact .ite .next .next
  · exact .next

theorem execBarrierArrival_completes : Completes (execBarrierArrival s) := by
  unfold execBarrierArrival
  split
  · exact .next
  · exact .ite .next (.ite .next (.ite .next (.ite .next (.ite .next (.ite .next .next)))))

theorem execRootDeadline_completes : Completes (execRootDeadline s) := by
  unfold execRootDeadline
  dsimp only
  split
  · exact .next
  · split
    · exact .next
    · refine .ite .next ?_
      split <;> exact .next

theorem execTolerantRelease_completes : Completes (execTolerantRelease s) := by
  unfold execTolerantRelease
  split
  · exact .next
  · exact .ite .next .next

theorem execBarrierTimeout_completes : Completes (execBarrierTimeout s) := by
  unfold execBarrierTimeout
  split
  · exact .next
  · exact .ite .next .next

theorem execBarrierRelease_completes : Completes (execBarrierRelease s) := by
  unfold execBarrierRelease
  dsimp only
  split
  · exact .next
  · split
    · exact .next
    · exact .ite .next (.ite .next .next)

theorem execSyncRelease_completes : Completes (execSyncRelease s) := by
  unfold execSyncRelease
  split
  · exact .next
  · exact .ite .next .next

theorem execTurnSwap_completes {failed : Bool} : Completes (execTurnSwap failed s) := by
  unfold execTurnSwap
  split
  · exact .next
  · exact .ite .next (.ite .next .next)

theorem execStepStop_completes : Completes (execStepStop s) := by
  unfold execStepStop
  split
  · exact .next
  · exact .ite .next .next

theorem execTimeUnlocked_completes : Completes (execTimeUnlocked s) := by
  unfold execTimeUnlocked
  split
  · exact .next
  · exact .ite .next .next

theorem execFlitReceive_completes {link : Nat} {f : FlitIn} : Completes (execFlitReceive link f s) := by
  refine .ite .next ?_
  cases f with
  | bad | symbols | control => exact .next
  | bytes b => exact .ite .next (.ite .next (.ite .next (.ite .next .next)))

theorem execEvrRecordWrite_completes : Completes (execEvrRecordWrite s) := by
  refine .ite .next ?_
  split <;> exact .next

theorem execEvrSnapshotComplete_completes : Completes (execEvrSnapshotComplete s) := by
  unfold execEvrSnapshotComplete
  split
  · exact .next
  · exact .ite .next .next

theorem execScanRead_completes : Completes (execScanRead s) := by
  unfold execScanRead
  split <;> exact .next

theorem execConfigurationStage_completes : Completes (execConfigurationStage s) := by
  refine .ite .next ?_
  split
  · exact .next
  · split <;> exact .next

theorem execFloorBringupStage_completes {badRail : Option Nat} {vmins speeds : List Nat} {arrays : List (Nat × Nat)} {rooms : List Nat} :
    Completes (execFloorBringupStage badRail vmins speeds arrays rooms s) := by
  refine .ite .next ?_
  cases badRail <;> exact .next

theorem execAttestationStage_completes {written : Bool} : Completes (execAttestationStage written s) := by
  refine .ite .next ?_
  split <;> exact .next

theorem execServiceImageWrite_completes {slot : Nat} {image : List Byte} : Completes (execServiceImageWrite slot image s) := by
  refine .ite ?_ .next
  split <;> exact .next

theorem execServiceConfigWrite_completes {part : List Byte} : Completes (execServiceConfigWrite part s) := by
  refine .ite .next ?_
  split
  · exact .next
  · split
    · exact .next
    · exact .ite .next .next
    · exact .next

end

/-! ### Every command, and every run -/

theorem exec_completes (c : Sys2Proof.Instr) (s : State) : Completes (exec c s) := by
  cases c with
  -- Meanings that look something up first.
  | periodicRetrainStart => exact .unlessIdle execPeriodicRetrainStart_completes
  | retrainComplete => exact .unlessIdle execRetrainComplete_completes
  | packedBlockWriteback => exact .unlessIdle execPackedBlockWriteback_completes
  | prepComplete => exact .unlessIdle execPrepComplete_completes
  | gatherRowReadDone => exact .unlessIdle execGatherRowReadDone_completes
  | serveRowReadDone => exact .unlessIdle execServeRowReadDone_completes
  | cellarUpdateComplete => exact .unlessIdle execCellarUpdateComplete_completes
  | sliceDeliver => exact .unlessIdle execSliceDeliver_completes
  | blockProcessComplete => exact .unlessIdle execBlockProcessComplete_completes
  | e2eTimeout => exact .unlessIdle execE2eTimeout_completes
  | xidRelease => exact .unlessIdle execXidRelease_completes
  | noticeWriteAck => exact .unlessIdle execNoticeWriteAck_completes
  | commandReread => exact .unlessIdle execCommandReread_completes
  | cnpReceive => exact .unlessIdle execCnpReceive_completes
  | ccTimer => exact .unlessIdle execCcTimer_completes
  | roceAckTimeout => exact .unlessIdle execRoceAckTimeout_completes
  | roceNakReceive => exact .unlessIdle execRoceNakReceive_completes
  | epochShadowCopyDone => exact .unlessIdle execEpochShadowCopyDone_completes
  | denseCopyDone => exact .unlessIdle execDenseCopyDone_completes
  | waitTimeout => exact .unlessIdle execWaitTimeout_completes
  | barrierArrival => exact .unlessIdle execBarrierArrival_completes
  | rootDeadline => exact .unlessIdle execRootDeadline_completes
  | tolerantRelease => exact .unlessIdle execTolerantRelease_completes
  | barrierTimeout => exact .unlessIdle execBarrierTimeout_completes
  | barrierRelease => exact .unlessIdle execBarrierRelease_completes
  | syncRelease => exact .unlessIdle execSyncRelease_completes
  | turnSwap => exact .unlessIdle execTurnSwap_completes
  | stepStop => exact .unlessIdle execStepStop_completes
  | timeUnlocked => exact .unlessIdle execTimeUnlocked_completes
  | flitReceive => exact .unlessIdle execFlitReceive_completes
  | evrRecordWrite => exact .unlessIdle execEvrRecordWrite_completes
  | evrSnapshotComplete => exact .unlessIdle execEvrSnapshotComplete_completes
  | configurationStage => exact .unlessIdle execConfigurationStage_completes
  | floorBringupStage => exact .unlessIdle execFloorBringupStage_completes
  | attestationStage => exact .unlessIdle execAttestationStage_completes
  | serviceImageWrite => exact .unlessIdle execServiceImageWrite_completes
  | serviceConfigWrite => exact .unlessIdle execServiceConfigWrite_completes
  -- Travar's commands.
  | nop | query | regRead | regWrite | openSession | closeSession | registerRegion | winMove | setStaging | batch | jobLoad | jobStart | jobStop
  | jobUnload | restore | journalSafe | version | mapout | attest | wrapCak => exact .unlessIdle (travar_completes ..)
  -- One condition decides.
  | scrubRead | driftRetrainStart | firmwareRetrain | floatMoveComplete | journalPut | indexReceive | replyReceive | migrateReceive | scatterReceive
  | collectiveReceive | sendReceive | peerWriteReceive | producerWrite | resumeWrite | cqConsumerWrite | atticCommandTimeout | atticDriveLinkLost
  | atticScrub | programFillDone | irqLevelChange | irqHoldoffExpiry | evrTimeTrigger | mpWatchdog | cvuComplete | freezeN | timedFreeze | porchLinkDown
  | priorityFlowControlFrame | macsecRekey | linkAckTimeout | holdoverExpiry | refOkChange | travarStage | cellarTrainingStage | linkStage
  | fabricTimeStage | letterboxStage | serviceReset | droop => exact .unlessIdle (.ite .next .next)
  -- Two conditions decide.
  | ldrPrepSubmit | prefetchSubmit | commandConsume | exportTailAdvance | atticHealthPoll | atticRebuildComplete | epochComplete | mpSramUncorrectable
  | porchLinkUp | eapolFrame | linkTrainComplete | nakReceive => exact .unlessIdle (.ite .next (.ite .next .next))
  -- Three or four do.
  | channelMapout | atticIoComplete | timeExchange | bootRomStage => exact .unlessIdle (.ite .next (.ite .next (.ite .next .next)))
  | mgmtRequest => exact .unlessIdle (.ite .next (.ite .next (.ite .next (.ite .next .next))))
  -- Units that act without the module's clocks (R448, R454).
  | scanRead => exact execScanRead_completes
  | presentNAssert | presentNDeassert | carrierRegulatorSensorTrip => exact .next
  | scanSelect | standbyStage => exact .ite .next .next
  | cellarTempReading | floorTempSample | powerSample => exact .ite .next (.ite .next .next)
  -- Every other meaning is one next state.
  | _ => exact .unlessIdle .next

theorem step_completes (s : State) : Completes (step s) := by
  unfold step
  split
  · exact .next
  · exact exec_completes _ _

theorem run_succ_of_next {M : Host.Core} {n : Nat} {s t : M.State} (h : M.step s = .next t) : M.run (n + 1) s = M.run n t := by
  rw [Host.Core.run, h]

/-- Settles O4: every step completes, so a run of any length does, by induction on its length. -/
theorem noRunStops : Obligations.NoRunStops := by
  intro s n
  induction n generalizing s with
  | zero => exact ⟨s, rfl⟩
  | succ n ih =>
    obtain ⟨t, ht⟩ := step_completes s
    obtain ⟨u, hu⟩ := ih t
    exact ⟨u, (run_succ_of_next ht).trans hu⟩

end Sys2Proof.Proofs
end

section
/-!
The statements on integers, NaNs and the lanes of the arithmetic port (02_number_formats.md).
-/
namespace Sys2Proof.Proofs
open Sys2Proof.Machine Sys2Proof.Laws

/-! ### Integers (R38) -/

/-- The model's reading of a lane as an INT32 is the library's signed value. -/
@[simp] theorem int32_eq_toInt (x : Lane) : int32 x = x.toInt := by
  have hx := x.isLt
  simp only [int32, toSigned, BitVec.toInt_eq_toNat_cond, Nat.mod_eq_of_lt hx, Int.ofNat_eq_natCast]
  split <;> split <;> omega

/-- The INT32 code of an integer is its residue modulo 2^32. -/
theorem ofNat_ofSigned (z : Int) : BitVec.ofNat 32 (ofSigned 32 z) = BitVec.ofInt 32 z := by
  apply BitVec.eq_of_toNat_eq
  rw [BitVec.toNat_ofNat, BitVec.toNat_ofInt, ofSigned, Int.ofNat_eq_natCast]
  exact Nat.mod_eq_of_lt (by omega)

/-- Without saturation the exact result wraps. -/
theorem int32Of_wrap (z : Int) : (int32Of false z).1 = BitVec.ofInt 32 z := ofNat_ofSigned z

/-- The integers of an INT32 read back from their codes. -/
theorem toInt_ofInt_of_range {z : Int} (hlo : -2147483648 ≤ z) (hhi : z ≤ 2147483647) : (BitVec.ofInt 32 z).toInt = z := by
  rw [BitVec.toInt_ofInt]
  exact Int.bmod_eq_of_le (by omega) (by omega)

/-- With saturation the exact result is clamped to the range of INT32. -/
theorem toInt_int32Of_saturate (z : Int) :
    (int32Of true z).1.toInt = if z < -2147483648 then -2147483648 else if 2147483647 < z then 2147483647 else z := by
  simp only [int32Of, Bool.true_and, decide_eq_true_eq, ofNat_ofSigned]
  by_cases below : z < -2147483648
  · rw [if_pos (.inl below), if_pos (by omega), if_pos below]
    decide
  · by_cases above : 2147483647 < z
    · rw [if_pos (.inr above), if_neg (by omega), if_neg below, if_pos above]
      decide
    · rw [if_neg (not_or.mpr ⟨below, above⟩), if_neg below, if_neg above]
      exact toInt_ofInt_of_range (by omega) (by omega)

/-- The overflow case is that the exact result lies outside of INT32, whether or not it saturates. -/
theorem int32Of_intRange (sat : Bool) (z : Int) : (int32Of sat z).2.intRange = (decide (z < -2147483648) || decide (2147483647 < z)) :=
  Bool.decide_or ..

/-- Settles O55: the three operations are `int32Of` of the exact sum, difference and product. -/
theorem integersWrapOrSaturate : Obligations.IntegersWrapOrSaturate := by
  intro a b lo hi sat outside
  simp only [i32Add, i32Sub, i32Mul, int32_eq_toInt]
  refine ⟨?sum, ?difference, ?product, toInt_int32Of_saturate _, toInt_int32Of_saturate _, toInt_int32Of_saturate _,
    fun m => ⟨int32Of_intRange m _, int32Of_intRange m _, int32Of_intRange m _⟩⟩
  case sum => rw [int32Of_wrap, BitVec.ofInt_add, BitVec.ofInt_toInt, BitVec.ofInt_toInt]
  case difference => rw [int32Of_wrap, Int.sub_eq_add_neg, BitVec.ofInt_add, BitVec.ofInt_neg, BitVec.ofInt_toInt, BitVec.ofInt_toInt, ← BitVec.sub_eq_add_neg]
  case product => rw [int32Of_wrap, BitVec.ofInt_mul, BitVec.ofInt_toInt, BitVec.ofInt_toInt]

/-! ### NaNs (R35): the encodings -/

/-- An encoding is a NaN when its exponent bits are all ones and its fraction is not zero (R33). -/
theorem fvIsNan_fdec (f : FFmt) (n : Nat) : fvIsNan (fdec f n) = decide ((n >>> f.fw) % 2 ^ f.ew = 2 ^ f.ew - 1 ∧ n % 2 ^ f.fw ≠ 0) := by
  unfold fdec
  dsimp only
  split
  case isTrue ones => split <;> simp [fvIsNan, *]
  case isFalse ones => split <;> simp [fvIsNan, ones]

/-- A binary32 encoding is a NaN when its bits 30..0 lie above those of an infinity. -/
theorem fvIsNan_b32 (x : Lane) : fvIsNan (b32 x) = decide (0x7F800000 < x.toNat % 2 ^ 31) := by
  rw [b32, fvIsNan_fdec, decide_eq_decide, Nat.shiftRight_eq_div_pow]
  dsimp only [fmtB32]
  omega

/-- Rounding gives a sign and a magnitude that is at most that of an infinity. -/
theorem fround_magnitude (f : FFmt) (rm : RMode) (s : Bool) (m : Nat) (e : Int) : ∃ c ≤ fInfCode f, (fround f rm s m e).1 = fSign f s + c := by
  unfold fround
  split
  · exact ⟨0, Nat.zero_le _, rfl⟩
  · lift_lets
    intro top q n code
    by_cases h : fInfCode f ≤ code
    · exact ⟨fInfCode f, le_rfl, by rw [if_pos h]⟩
    · exact ⟨code, Nat.le_of_not_le h, by rw [if_neg h]⟩

/-- A sign and a magnitude that is at most that of an infinity are no NaN of binary32. -/
theorem not_nan_of_magnitude (s : Bool) {c : Nat} (hc : c ≤ fInfCode fmtB32) : fvIsNan (b32 (BitVec.ofNat 32 (fSign fmtB32 s + c))) = false := by
  have hc : c ≤ 0x7F800000 := hc
  have hs : fSign fmtB32 s = 0 ∨ fSign fmtB32 s = 2 ^ 31 := by cases s <;> simp [fSign, fmtB32]
  rw [fvIsNan_b32, BitVec.toNat_ofNat]
  exact decide_eq_false (by omega)

@[simp] theorem toB32_nan : toB32 .nan = (b32Nan, false) := by decide

/-- Encoding gives no NaN but the canonical one. -/
theorem toB32_canonical {v : FV} (h : fvIsNan (b32 (toB32 v).1) = true) : (toB32 v).1 = b32Nan := by
  cases v with
  | nan => rw [toB32_nan]
  | inf s => exact absurd h (Bool.eq_false_iff.mp (not_nan_of_magnitude s le_rfl))
  | fin s m e =>
    obtain ⟨c, hc, code⟩ := fround_magnitude fmtB32 .rne s m e
    simp only [toB32, fenc, code, not_nan_of_magnitude s hc, Bool.false_eq_true] at h

/-- relu gives its operand, which it has seen is no NaN, or +0, or the canonical NaN. -/
theorem b32Relu_canonical {a : Lane} (h : fvIsNan (b32 (b32Relu a)) = true) : b32Relu a = b32Nan := by
  unfold b32Relu at h ⊢
  dsimp only at h ⊢
  split at h
  · rw [if_pos ‹_›]
  · split at h
    · exact absurd h (by decide)
    · exact absurd h ‹_›

/-! ### NaNs (R35, R60): the operands -/

theorem eq_nan_of_isNan {v : FV} (h : fvIsNan v = true) : v = .nan := by
  cases v with
  | nan => rfl
  | inf | fin => cases h

@[simp] theorem fvAdd_nan_left (v : FV) : fvAdd .nan v = (.nan, false) := rfl
@[simp] theorem fvAdd_nan_right (v : FV) : fvAdd v .nan = (.nan, false) := by cases v <;> rfl
@[simp] theorem fvMul_nan_left (v : FV) : fvMul .nan v = (.nan, false) := rfl
@[simp] theorem fvMul_nan_right (v : FV) : fvMul v .nan = (.nan, false) := by cases v <;> rfl
@[simp] theorem fvDiv_nan_left (v : FV) : fvDiv .nan v = (.nan, false, false) := rfl
@[simp] theorem fvDiv_nan_right (v : FV) : fvDiv v .nan = (.nan, false, false) := by cases v <;> rfl

section
variable {a : Lane}

theorem b32Add_nan_left (h : b32 a = .nan) (b : Lane) : b32Add a b = (b32Nan, noFlags) := by simp [b32Add, h, noFlags]
theorem b32Add_nan_right (h : b32 a = .nan) (b : Lane) : b32Add b a = (b32Nan, noFlags) := by simp [b32Add, h, noFlags]

/-- A NaN subtrahend is not negated. -/
theorem b32Sub_nan_right (h : b32 a = .nan) (b : Lane) : b32Sub b a = (b32Nan, noFlags) := by
  simp only [b32Sub, h, fvIsNan, if_true, b32Add_nan_right h]

theorem b32Mul_nan_left (h : b32 a = .nan) (b : Lane) : b32Mul a b = (b32Nan, noFlags) := by simp [b32Mul, h, noFlags]
theorem b32Mul_nan_right (h : b32 a = .nan) (b : Lane) : b32Mul b a = (b32Nan, noFlags) := by simp [b32Mul, h, noFlags]
theorem b32Fma_nan_left (h : b32 a = .nan) (b c : Lane) : b32Fma a b c = (b32Nan, noFlags) := by simp [b32Fma, h, noFlags]
theorem b32Div_nan_left (h : b32 a = .nan) (b : Lane) : b32Div a b = (b32Nan, noFlags) := by simp [b32Div, h, noFlags]
theorem b32Div_nan_right (h : b32 a = .nan) (b : Lane) : b32Div b a = (b32Nan, noFlags) := by simp [b32Div, h, noFlags]
theorem b32Sqrt_nan (h : b32 a = .nan) : b32Sqrt a = (b32Nan, noFlags) := by simp [b32Sqrt, fvSqrt, h, noFlags]
theorem b32Relu_nan (h : b32 a = .nan) : b32Relu a = b32Nan := by rw [b32Relu, h]; rfl

end

/-- Settles O56: a NaN operand stays one up to the encoding, and whatever is encoded, the NaN that comes out is the canonical one. -/
theorem canonicalNans : Obligations.CanonicalNans := by
  refine fun a b c => ⟨fun hnan => ?_, ?_⟩
  · have h := eq_nan_of_isNan hnan
    exact ⟨b32Add_nan_left h b, b32Add_nan_right h b, b32Add_nan_left h _, b32Sub_nan_right h b, b32Mul_nan_left h b, b32Mul_nan_right h b,
      b32Fma_nan_left h b c, b32Div_nan_left h b, b32Div_nan_right h b, b32Sqrt_nan h, b32Relu_nan h⟩
  · simp only [List.forall_mem_cons]
    exact ⟨toB32_canonical, toB32_canonical, toB32_canonical, toB32_canonical, toB32_canonical, toB32_canonical, toB32_canonical, toB32_canonical,
      b32Relu_canonical, List.forall_mem_nil _⟩

/-! ### Lane operations (R59, R80, R84, R101) -/

/-- What a lane-by-lane operation of the arithmetic port leaves of a state in which its result meets no other: the lanes pending for their beat, and the cases
noted. -/
def lanesDue (s : State) (r : Nat) (f : VectorSlot) (lat : Nat) (fn : Lane → Lane → Lane → Lane × NumFlags) : State :=
  let x := laneRun fn 0 (vecOn (getRoom s r) f) (vReg (getRoom s r) f.va.toNat) (vecB (getRoom s r) f) (vReg (getRoom s r) f.vc.toNat)
  vecNote (resultDue s r (s.beat + lat) .arith (.v f.vd.toNat x.1)) r x.2

section
variable {s : State} {r : Nat} {f : VectorSlot}

/-- A vector slot whose body is `laneBody` completes, where the room acts and the port and the destination are free in the beat of the result (R95). -/
theorem laneSlot_completes {c : Sys2Proof.Instr} {legal : Bool} {body : Room → SlotRes} {lat : Nat} {fn : Lane → Lane → Lane → Lane × NumFlags}
    (hexec : exec c s = powered s (.next (runSlot s r legal body))) (hbody : body (getRoom s r) = laneBody s r f (getRoom s r) lat .arith fn)
    (ha : Acts s r) (hlegal : legal = true) (hfree : PortFree s r (s.beat + lat) .arith (0, f.vd.toNat)) :
    exec c s = .next (lanesDue s r f lat fn) := by
  have hrun := runSlot_ok ha.2 hlegal hbody
  rw [hexec, powered_runs ha.1, hrun, addResult_free rfl hfree]
  rfl

theorem unmasked_of_msk (h : f.msk = 0) : unmasked f = true := by simp [unmasked, h]

end

/-- Settles O6: each of these slots has `laneBody` as its body, and VSEL and VFMA are legal without a mask. -/
theorem laneOperationsComplete : Obligations.LaneOperationsComplete := by
  intro s r f ha q run after
  refine ⟨fun hfree => ?_, fun hfree hmsk => laneSlot_completes rfl rfl ha (unmasked_of_msk hmsk) hfree,
    fun hfree => laneSlot_completes rfl rfl ha rfl hfree⟩
  have lanes {c : Sys2Proof.Instr} {body : Room → SlotRes} {fn : Lane → Lane → Lane → Lane × NumFlags}
      (hexec : exec c s = powered s (.next (runSlot s r true body))) (hbody : body q = laneBody s r f q 4 .arith fn) : exec c s = after 4 fn :=
    laneSlot_completes hexec hbody ha rfl hfree
  exact ⟨lanes rfl rfl, lanes rfl rfl, lanes rfl rfl, lanes rfl rfl, lanes rfl rfl, lanes rfl rfl, lanes rfl rfl, lanes rfl rfl, lanes rfl rfl,
    lanes rfl rfl, lanes rfl rfl, lanes rfl rfl, lanes rfl rfl, lanes rfl rfl, lanes rfl rfl,
    fun hmsk => laneSlot_completes rfl rfl ha (unmasked_of_msk hmsk) hfree⟩

end Sys2Proof.Proofs
end

section
/-!
The statements on the long operations of the vector slot and on its operations across lanes (03_rooms_and_arrays.md).
-/
namespace Sys2Proof.Proofs
open Sys2Proof.Machine Sys2Proof.Laws

/-! ### Slots of a room that acts -/

section
variable {s : State} {r : Nat} {c : Sys2Proof.Instr} {legal : Bool} {body : Room → SlotRes}

/-- A legal slot whose body succeeds leaves what its body leaves (R91, R116). -/
theorem slot_completes (hexec : exec c s = powered s (.next (runSlot s r legal body))) (ha : Acts s r) (hlegal : legal = true) {t : State}
    (hbody : body (getRoom s r) = .ok t) : exec c s = .next t := by
  rw [hexec, powered_runs ha.1, runSlot_ok ha.2 hlegal hbody]

/-- A legal slot whose body fails, with no earlier access concerned, stops its room. -/
theorem slot_stops (hexec : exec c s = powered s (.next (runSlot s r legal body))) (ha : Acts s r) (hlegal : legal = true) {code : Nat}
    (hbody : body (getRoom s r) = .error { code := code }) : exec c s = .next (stopRoom s r code 0) := by
  rw [hexec, powered_runs ha.1, runSlot_error ha.2 hlegal hbody]
  rfl

end

/-! ### Long and cross-lane operations (R81, R82, R84, R102) -/

section
variable {s : State} {r : Nat} {f : VectorSlot} {q : Room} {fn : Lane → Lane → Lane → Lane × NumFlags}

/-- What a lane-by-lane operation leaves where its result meets no other (R95): the lanes pending for `port`, and the cases noted. -/
def lanesPending (s : State) (r : Nat) (f : VectorSlot) (q : Room) (lat : Nat) (port : Port) (fn : Lane → Lane → Lane → Lane × NumFlags) : State :=
  let x := laneRun fn 0 (vecOn q f) (vReg q f.va.toNat) (vecB q f) (vReg q f.vc.toNat)
  vecNote (resultDue s r (s.beat + lat) port (.v f.vd.toNat x.1)) r x.2

theorem laneBody_free {lat : Nat} {port : Port} (hfree : PortFree s r (s.beat + lat) port (0, f.vd.toNat)) :
    laneBody s r f q lat port fn = .ok (lanesPending s r f q lat port fn) := by
  rw [laneBody, addResult_free rfl hfree]
  rfl

theorem portFree_of_micro {t : State} {due : Nat} {port : Port} {reg : Nat × Nat} (h : PortFree s r due port reg)
    (same : (getRoom t r).micro = (getRoom s r).micro) : PortFree t r due port reg := by
  rwa [PortFree, same]

theorem iterBody_free (hidle : q.iterBusy ≤ s.beat) (hfree : PortFree s r (s.beat + 14) .arith (0, f.vd.toNat)) :
    iterBody s r f q fn = .ok (lanesPending (modRoom s r (fun q => { q with iterBusy := s.beat + 8 })) r f q 14 .arith fn) := by
  rw [iterBody, if_neg (Nat.not_lt.mpr hidle)]
  exact laneBody_free (portFree_of_micro hfree (by rw [getRoom_modRoom]))

theorem iterBody_busy (hbusy : s.beat < q.iterBusy) : iterBody s r f q fn = .error { code := codeSlotBusy } := if_pos hbusy

theorem sfuBody_free {fn : Lane → Lane × NumFlags} (hidle : q.sfuBusy ≤ s.beat)
    (hfree : PortFree s r (s.beat + (4 * sfuPasses f.imm.toNat + 6)) .sfu (0, f.vd.toNat)) :
    sfuBody s r f q fn = .ok (lanesPending (modRoom s r (fun q => { q with sfuBusy := s.beat + 4 * sfuPasses f.imm.toNat })) r f q
      (4 * sfuPasses f.imm.toNat + 6) .sfu (fun a _ _ => fn a)) := by
  rw [sfuBody, if_neg (Nat.not_lt.mpr hidle)]
  exact laneBody_free (portFree_of_micro hfree (by rw [getRoom_modRoom]))

theorem sfuBody_busy {fn : Lane → Lane × NumFlags} (hbusy : s.beat < q.sfuBusy) : sfuBody s r f q fn = .error { code := codeSlotBusy } := if_pos hbusy

/-- An operation across lanes leaves the tree's result pending and its cases noted. -/
theorem crossBody_free {fn : Lane → Lane → Lane × NumFlags} {ident : Lane} (hfree : PortFree s r (s.beat + 10) .vecArr (1, f.xs.toNat)) :
    let x := treeRun fn 8 (((vecOn q f).zip (vReg q f.va.toNat)).map (fun p => if p.1 then p.2 else ident)) noFlags
    crossBody s r f q fn ident =
      .ok (vecNote (resultDue s r (s.beat + 10) .vecArr (.x f.xs.toNat (x.1.zeroExtend 64))) r (VecCases.addArith {} x.2)) := by
  rw [crossBody, addResult_free rfl hfree]

theorem vxtrBody_free (hfree : PortFree s r (s.beat + 2) .vecArr (1, f.xs.toNat)) :
    vxtrBody s r f q = .ok (resultDue s r (s.beat + 2) .vecArr (.x f.xs.toNat ((vLane q f.va.toNat (f.imm.toNat % 256)).zeroExtend 64))) := by
  rw [vxtrBody, addResult_free rfl hfree]

theorem vsfudLegal_of_mem (hlo : 4 ≤ f.imm.toNat) (hhi : f.imm.toNat ≤ 10) : vsfudLegal f = true := by simp [vsfudLegal, hlo, hhi]

end

/-- Settles O7: a free unit runs its lanes as the arithmetic port does, a busy one refuses, and the tree's result goes to a scalar register. -/
theorem longAndTreeOperationsComplete : Obligations.LongAndTreeOperationsComplete := by
  refine ⟨fun s r f ha => ⟨fun hfree hidle => ?iter, fun hfree hidle => ?sfu, fun hbusy => ?iterBusy, fun hbusy => ?sfuBusy⟩,
    fun s r f ha => ⟨fun hfree => ?tree, fun hfree => slot_completes rfl ha rfl (vxtrBody_free hfree)⟩⟩
  case iter => exact ⟨slot_completes rfl ha rfl (iterBody_free hidle hfree), slot_completes rfl ha rfl (iterBody_free hidle hfree)⟩
  case sfu =>
    exact ⟨fun hhi => slot_completes rfl ha (decide_eq_true hhi) (sfuBody_free hidle hfree),
      fun hlo hhi => slot_completes rfl ha (vsfudLegal_of_mem hlo hhi) (sfuBody_free hidle hfree)⟩
  case iterBusy => exact ⟨slot_stops rfl ha rfl (iterBody_busy hbusy), slot_stops rfl ha rfl (iterBody_busy hbusy)⟩
  case sfuBusy =>
    exact ⟨fun hhi => slot_stops rfl ha (decide_eq_true hhi) (sfuBody_busy hbusy),
      fun hlo hhi => slot_stops rfl ha (vsfudLegal_of_mem hlo hhi) (sfuBody_busy hbusy)⟩
  case tree =>
    exact ⟨slot_completes rfl ha rfl (crossBody_free hfree), slot_completes rfl ha rfl (crossBody_free hfree),
      slot_completes rfl ha rfl (crossBody_free hfree)⟩

end Sys2Proof.Proofs
end

section
/-!
What the operations of a room's slots add to it: banks, pending results and actions, and post-increments (03_rooms_and_arrays.md).
-/
namespace Sys2Proof.Proofs
open Sys2Proof.Machine Sys2Proof.Laws

/-! ### Counting up, and whole lines -/

theorem upFrom_eq_range' (k n : Nat) : upFrom k n = List.range' k n := by
  induction n generalizing k with
  | zero => rfl
  | succ n ih => rw [upFrom, ih, List.range'_succ]

theorem upTo_eq_range (n : Nat) : upTo n = List.range n := by rw [upTo, upFrom_eq_range', List.range_eq_range']

@[simp] theorem mem_upTo {i n : Nat} : i ∈ upTo n ↔ i < n := by rw [upTo_eq_range, List.mem_range]

theorem nodup_upTo (n : Nat) : (upTo n).Nodup := by
  rw [upTo_eq_range]
  exact List.nodup_range

theorem roundUp_of_lines {n : Nat} (h : n % 64 = 0) : roundUp n 64 = n := by unfold roundUp ceilDiv; omega

@[simp] theorem roundUp_mod (n : Nat) : roundUp n 64 % 64 = 0 := Nat.mul_mod_left _ _

/-! ### The frame of the array slot -/

/-- A state, and a room, with what an operation of the array slot may change set aside. -/
def outsideSlot (s : State) : State := { s with rooms := [], regs := [], cyc := {}, storeCe := [] }
def outsideArrays (q : Room) : Room := { q with arrays := [], gangs := [], micro := [], banks := [], drainTok := [], watch := {} }

/-- `t` is `s` within the frame of an array slot of room `r`: neither differs outside of what is set aside, and no other room differs. -/
structure SlotFrame (s : State) (r : Nat) (t : State) : Prop where
  outside : outsideSlot t = outsideSlot s
  others : ∀ r', r' ≠ r → getRoom t r' = getRoom s r'
  room : outsideArrays (getRoom t r) = outsideArrays (getRoom s r)

section
variable {s t u : State} {r : Nat}

/-- The frame is the one of the obligations. -/
theorem SlotFrame.arrayFrame (h : SlotFrame s r t) : ArrayFrame s t r := by
  obtain ⟨outside, others, room⟩ := h
  refine ⟨?_, others, ?_⟩
  · cases s
    cases t
    simp only [outsideSlot, State.mk.injEq] at outside
    simp only [outside]
  · generalize getRoom s r = q at room ⊢
    generalize getRoom t r = q' at room ⊢
    cases q
    cases q'
    simp only [outsideArrays, Room.mk.injEq] at room
    simp only [room]

theorem SlotFrame.refl (s : State) (r : Nat) : SlotFrame s r s := ⟨rfl, fun _ _ => rfl, rfl⟩

theorem SlotFrame.trans (h : SlotFrame s r t) (k : SlotFrame t r u) : SlotFrame s r u :=
  ⟨k.outside.trans h.outside, fun r' hr => (k.others r' hr).trans (h.others r' hr), k.room.trans h.room⟩

/-- A change of the room within the frame. -/
theorem SlotFrame.modRoom {g : Room → Room} (hg : outsideArrays (g (getRoom s r)) = outsideArrays (getRoom s r)) : SlotFrame s r (modRoom s r g) :=
  ⟨rfl, fun _ hr => getRoom_modRoom_other s g hr, by rw [getRoom_modRoom, hg]⟩

/-- A change of the registers or of the counts of corrected words. -/
theorem SlotFrame.of_rooms (outside : outsideSlot t = outsideSlot s) (rooms : t.rooms = s.rooms) : SlotFrame s r t := by
  have same (r' : Nat) : getRoom t r' = getRoom s r' := by rw [getRoom, rooms, ← getRoom]
  exact ⟨outside, fun r' _ => same r', by rw [same]⟩

theorem SlotFrame.beat (h : SlotFrame s r t) : t.beat = s.beat := by
  have := congrArg State.beat h.outside
  exact this

theorem SlotFrame.aReg (h : SlotFrame s r t) (a : Nat) : aReg (getRoom t r) a = aReg (getRoom s r) a := by
  have := congrArg Room.a h.room
  exact congrArg (smGet 0 · a) this

/-- The store addresses of the room are outside of what may change. -/
theorem SlotFrame.storeAddr (h : SlotFrame s r t) (off : Nat) :
    storeAddr (getRoom t r).floor (getRoom t r).pos off = storeAddr (getRoom s r).floor (getRoom s r).pos off := by
  have := congrArg (fun q : Room => Machine.storeAddr q.floor q.pos off) h.room
  exact this

theorem SlotFrame.storeRead (h : SlotFrame s r t) (off n : Nat) : storeRead t r off n = storeRead s r off n := by
  have mem := congrArg State.mem h.outside
  change smGetList 0 t.mem _ n = smGetList 0 s.mem _ n
  rw [h.storeAddr]
  exact congrArg (smGetList 0 · _ n) mem

theorem SlotFrame.storeBad (h : SlotFrame s r t) (off n : Nat) : storeBad t r off n = storeBad s r off n := by
  have bad := congrArg (fun v => badIn v (Machine.storeAddr (getRoom s r).floor (getRoom s r).pos off) n) h.outside
  change badIn t _ n = badIn s _ n
  rw [h.storeAddr]
  exact bad

end

/-! ### What an operation adds to its room -/

/-- `t` is `s` but for the frame of the array slot, with `ms` pending in the room and its banks `us` taken besides. -/
structure RoomAdds (s : State) (r : Nat) (ms : List Micro) (us : List BankUse) (t : State) : Prop where
  frame : SlotFrame s r t
  micro : (getRoom t r).micro = (getRoom s r).micro ++ ms
  banks : (getRoom t r).banks = (getRoom s r).banks ++ us

/-- What `n` bytes of the post-increment of register `a` leave pending (R94); an increment of 0 is none. -/
def postMicro (s : State) (r a n : Nat) : List Micro :=
  if n = 0 then []
  else [{ due := s.beat + 1, ord := 0, issued := s.beat, port := .post, op := .a a (aReg (getRoom s r) a + BitVec.ofNat 64 n) }]

/-- The banks that an access takes. -/
def bankUses (issued src off n beat : Nat) : List BankUse := (banksOf off n).map (fun b => { beat := beat, bank := b, issued := issued, src := src })

section
variable {s t u : State} {r : Nat} {ms ms' : List Micro} {us us' : List BankUse}

theorem RoomAdds.refl (s : State) (r : Nat) : RoomAdds s r [] [] s := ⟨SlotFrame.refl s r, (List.append_nil _).symm, (List.append_nil _).symm⟩

theorem RoomAdds.trans (h : RoomAdds s r ms us t) (k : RoomAdds t r ms' us' u) : RoomAdds s r (ms ++ ms') (us ++ us') u :=
  ⟨h.frame.trans k.frame, by rw [k.micro, h.micro, List.append_assoc], by rw [k.banks, h.banks, List.append_assoc]⟩

/-- A step that adds nothing. -/
theorem RoomAdds.still (h : RoomAdds s r ms us t) (k : RoomAdds t r [] [] u) : RoomAdds s r ms us u := by
  have := h.trans k
  rwa [List.append_nil, List.append_nil] at this

/-- A step that takes banks alone, and one that makes something pending alone. -/
theorem RoomAdds.take (h : RoomAdds s r ms us t) (k : RoomAdds t r [] us' u) : RoomAdds s r ms (us ++ us') u := by
  have := h.trans k
  rwa [List.append_nil] at this

theorem RoomAdds.pend (h : RoomAdds s r ms us t) (k : RoomAdds t r ms' [] u) : RoomAdds s r (ms ++ ms') us u := by
  have := h.trans k
  rwa [List.append_nil us] at this

theorem RoomAdds.mem_micro (h : RoomAdds s r ms us t) {m : Micro} (hm : m ∈ ms) : m ∈ (getRoom t r).micro := by
  rw [h.micro]
  exact List.mem_append_right _ hm

theorem RoomAdds.mem_banks (h : RoomAdds s r ms us t) {x : BankUse} (hx : x ∈ us) : x ∈ (getRoom t r).banks := by
  rw [h.banks]
  exact List.mem_append_right _ hx

/-! ### What each step adds -/

/-- A change of the room's arrays, gangs, token scales or watch adds nothing. -/
theorem modRoom_adds (s : State) (r : Nat) {g : Room → Room} (hg : ∀ q, outsideArrays (g q) = outsideArrays q) (hm : ∀ q, (g q).micro = q.micro)
    (hb : ∀ q, (g q).banks = q.banks) : RoomAdds s r [] [] (modRoom s r g) :=
  ⟨SlotFrame.modRoom (hg _), by rw [getRoom_modRoom, hm, List.append_nil], by rw [getRoom_modRoom, hb, List.append_nil]⟩

theorem setGang_adds (s : State) (r : Nat) (gb : Nat) (g : Room → Gang) : RoomAdds s r [] [] (modRoom s r (fun q => setGang q gb (g q))) :=
  modRoom_adds s r (fun _ => rfl) (fun _ => rfl) (fun _ => rfl)

theorem countWeak_adds (s : State) (r : Nat) (a n : Nat) : RoomAdds s r [] [] (countWeak s a n) :=
  ⟨SlotFrame.of_rooms (by rw [countWeak_eq]; rfl) (countWeak_rooms s a n), by simp, by simp⟩

theorem regCount_adds (s : State) (r : Nat) (a hi lo n : Nat) : RoomAdds s r [] [] (regCount s a hi lo n) :=
  ⟨SlotFrame.of_rooms rfl rfl, (List.append_nil _).symm, (List.append_nil _).symm⟩

theorem withBanks_adds (s : State) (r : Nat) (src off n beat : Nat) : RoomAdds s r [] (bankUses s.beat src off n beat) (withBanks s r src off n beat) :=
  ⟨SlotFrame.modRoom rfl, by simp, by simp [bankUses]⟩

theorem addActionOf_adds (s : State) (r : Nat) (issued src due ord : Nat) (op : MicroOp) :
    RoomAdds s r [{ due := due, ord := ord, issued := issued, port := .none, op := op, src := src }] [] (addActionOf s r issued src due ord op) :=
  ⟨SlotFrame.modRoom rfl, by simp, by simp⟩

theorem resultDue_adds (s : State) (r : Nat) (due : Nat) (port : Port) (op : MicroOp) (src : Nat) :
    RoomAdds s r [{ due := due, ord := 0, issued := s.beat, port := port, op := op, src := src }] [] (resultDue s r due port op src) :=
  ⟨SlotFrame.modRoom rfl, by simp, by simp⟩

theorem getRoom_foldl_addActionOf {α : Type} (issued : Nat) (src due ord : α → Nat) (op : α → MicroOp) (l : List α) (s : State) (r : Nat) :
    getRoom (l.foldl (fun s i => addActionOf s r issued (src i) (due i) (ord i) (op i)) s) r =
      { getRoom s r with
        micro := (getRoom s r).micro ++
          l.map fun i => { due := due i, ord := ord i, issued := issued, port := .none, op := op i, src := src i } } := by
  induction l generalizing s with
  | nil => simp
  | cons i l ih => simp [ih]

theorem foldl_addActionOf_adds {α : Type} (issued : Nat) (src due ord : α → Nat) (op : α → MicroOp) (l : List α) (s : State) (r : Nat) :
    RoomAdds s r (l.map fun i => { due := due i, ord := ord i, issued := issued, port := .none, op := op i, src := src i }) []
      (l.foldl (fun s i => addActionOf s r issued (src i) (due i) (ord i) (op i)) s) := by
  induction l generalizing s with
  | nil => exact RoomAdds.refl s r
  | cons i l ih => exact (addActionOf_adds s r issued (src i) (due i) (ord i) (op i)).trans (ih _)

theorem getRoom_posted (s : State) (r a n : Nat) :
    getRoom (posted s r a n) r = { getRoom s r with micro := (getRoom s r).micro ++ postMicro s r a n } := by
  unfold postMicro posted
  split <;> simp

theorem posted_adds (s : State) (r : Nat) (a n : Nat) : RoomAdds s r (postMicro s r a n) [] (posted s r a n) := by
  unfold postMicro posted
  split
  · exact RoomAdds.refl s r
  · exact resultDue_adds s r _ _ _ _

/-! ### Post-increments (R94, R95) -/

/-- A post-increment uses no port, so it needs its register alone. -/
theorem postInc_free {a n : Nat} (h : PostFree s r a n) : postInc s r a n = posted s r a n := by
  by_cases hn : n = 0
  · rw [postInc, posted, if_pos hn, if_pos hn]
  · have none_collides (v : Word) :
        ((getRoom s r).micro.any fun m => collide { due := s.beat + 1, ord := 0, issued := s.beat, port := .post, op := .a a v } m) = false := by
      rw [List.any_eq_false]
      intro m hm
      have free := h hn m hm
      simp only [collide, microReg, bne_self_eq_false, Bool.and_false, Bool.false_and, Bool.false_or, Option.isSome_some, Bool.true_and,
        Bool.and_eq_true, decide_eq_true_eq, beq_iff_eq, not_and]
      exact fun hdue same => free hdue.symm same.symm
    rw [postInc, posted, if_neg hn, if_neg hn, addResult, addResultOf]
    simp only [none_collides, Bool.false_eq_true, if_false]
    rfl

/-- A register that may be post-incremented still may where nothing newly pending reaches it. -/
theorem RoomAdds.postFree (h : RoomAdds s r ms us t) {a n : Nat} (hf : PostFree s r a n) (hms : n ≠ 0 → ∀ m ∈ ms, microReg m ≠ some (2, a)) :
    PostFree t r a n := by
  intro hn m hm hdue
  rw [h.frame.beat] at hdue
  rw [h.micro] at hm
  rcases List.mem_append.mp hm with old | new
  · exact hf hn m old hdue
  · exact hms hn m new

theorem RoomAdds.post (h : RoomAdds s r ms us t) (a n : Nat) : RoomAdds s r (ms ++ postMicro s r a n) us (posted t r a n) := by
  have same : postMicro t r a n = postMicro s r a n := by simp only [postMicro, h.frame.beat, h.frame.aReg]
  exact h.pend (same ▸ posted_adds t r a n)

theorem microReg_of_mem_postMicro {a n : Nat} {m : Micro} (hm : m ∈ postMicro s r a n) : n ≠ 0 ∧ microReg m = some (2, a) := by
  unfold postMicro at hm
  split at hm
  · cases hm
  · rw [List.mem_singleton.mp hm]
    exact ⟨‹_›, rfl⟩

/-- Post-increments of different registers do not meet. -/
theorem postMicro_other {a a' n : Nat} (h : n ≠ 0 → a ≠ a') : ∀ m ∈ postMicro s r a n, microReg m ≠ some (2, a') := by
  intro m hm same
  obtain ⟨hn, reg⟩ := microReg_of_mem_postMicro hm
  rw [reg] at same
  cases same
  exact h hn rfl

/-- What a post-increment does to a state that follows `s`. -/
theorem RoomAdds.postInc_eq (h : RoomAdds s r ms us t) {a n : Nat} (hf : PostFree s r a n) (hms : n ≠ 0 → ∀ m ∈ ms, microReg m ≠ some (2, a)) :
    postInc t r a n = posted t r a n := postInc_free (h.postFree hf hms)

theorem exists_mem_postMicro {a n : Nat} (hn : n ≠ 0) :
    ∃ m ∈ postMicro s r a n, m.due = s.beat + 1 ∧ m.op = .a a (aReg (getRoom s r) a + BitVec.ofNat 64 n) := by
  rw [postMicro, if_neg hn]
  exact ⟨_, List.mem_singleton_self _, rfl, rfl⟩

theorem RoomAdds.exists_post (h : RoomAdds s r ms us t) {a n : Nat} (hsub : postMicro s r a n ⊆ ms) (hn : n ≠ 0) :
    ∃ m ∈ (getRoom t r).micro, m.due = s.beat + 1 ∧ m.op = .a a (aReg (getRoom s r) a + BitVec.ofNat 64 n) := by
  obtain ⟨m, hm, due, op⟩ := exists_mem_postMicro (s := s) (r := r) (a := a) hn
  exact ⟨m, h.mem_micro (hsub hm), due, op⟩

/-- A field that counts lines is 0 just where it counts none. -/
theorem lines_ne_zero {n : Nat} {x : BitVec n} : 64 * x.toNat ≠ 0 ↔ x ≠ 0 := by
  rw [Nat.mul_ne_zero_iff, ← BitVec.toNat_ne_iff_ne]
  simp

/-! ### Claims and reads (R85, R86, R88) -/

theorem mem_bankUses {issued src off n beat : Nat} {x : BankUse} :
    x ∈ bankUses issued src off n beat ↔ ∃ b ∈ banksOf off n, { beat := beat, bank := b, issued := issued, src := src } = x := List.mem_map

/-- A claim that may be made still may where none of the banks newly taken is one of its own in its beat. -/
theorem RoomAdds.claimable (h : RoomAdds s r ms us t) {off n beat : Nat} (hc : Claimable s r off n beat)
    (hus : ∀ x ∈ us, ¬(x.beat = beat ∧ x.bank ∈ banksOf off n)) : Claimable t r off n beat := by
  obtain ⟨haligned, hlines, hinside, hlen, hbanks⟩ := hc
  refine ⟨haligned, hlines, hinside, hlen, fun x hx => ?_⟩
  rw [h.banks] at hx
  exact (List.mem_append.mp hx).elim (hbanks x) (hus x)

theorem RoomAdds.readable (h : RoomAdds s r ms us t) {off n : Nat} (hr : Readable s r off n)
    (hus : ∀ x ∈ us, ¬(x.beat = s.beat ∧ x.bank ∈ banksOf off n)) : Readable t r off n := by
  obtain ⟨hc, hgood⟩ := hr
  rw [← h.frame.beat] at hc hus
  exact ⟨h.claimable hc hus, by rw [h.frame.storeBad, hgood]⟩

/-- A read that meets no uncorrectable word gives the bytes (R88). -/
theorem storeFetch_good {off n : Nat} (h : storeBad s r off n = false) :
    storeFetch s r off n = (countWeak s (storeAddr (getRoom s r).floor (getRoom s r).pos off) n, some (storeRead s r off n)) := by
  simp only [storeFetch, h, Bool.false_eq_true, if_false]

@[simp] theorem readDone_beat (src off n : Nat) : (readDone s r src off n).beat = s.beat := countWeak_beat _ _ _

@[simp] theorem getRoom_readDone (src off n : Nat) : getRoom (readDone s r src off n) r = getRoom (withBanks s r src off n s.beat) r :=
  getRoom_countWeak _ _ _ _

theorem readDone_adds (s : State) (r : Nat) (src off n : Nat) : RoomAdds s r [] (bankUses s.beat src off n s.beat) (readDone s r src off n) :=
  (withBanks_adds s r src off n s.beat).still (countWeak_adds _ r _ _)

/-- A read that may be made takes its banks, counts its corrected words and gives the bytes. -/
theorem readNow_ok {arr src off n : Nat} (h : Readable s r off (roundUp n 64)) :
    readNow s r arr src off n s.beat = .ok (readDone s r src off (roundUp n 64), storeRead s r off (roundUp n 64)) := by
  obtain ⟨hclaim, hgood⟩ := h
  have frame := (withBanks_adds s r src off (roundUp n 64) s.beat).frame
  rw [readNow, claim_ok arr src hclaim, Except.bind, storeFetch_good ((frame.storeBad _ _).trans hgood), frame.storeRead]
  rfl

theorem RoomAdds.readNow_eq (h : RoomAdds s r ms us t) {arr src off n : Nat} (hr : Readable s r off (roundUp n 64))
    (hus : ∀ x ∈ us, ¬(x.beat = s.beat ∧ x.bank ∈ banksOf off (roundUp n 64))) :
    readNow t r arr src off n s.beat = .ok (readDone t r src off (roundUp n 64), storeRead s r off (roundUp n 64)) := by
  have read := readNow_ok (arr := arr) (src := src) (h.readable hr hus)
  rwa [h.frame.beat, h.frame.storeRead] at read

theorem RoomAdds.read (h : RoomAdds s r ms us t) (src off n : Nat) : RoomAdds s r ms (us ++ bankUses s.beat src off n s.beat) (readDone t r src off n) := by
  have := h.take (readDone_adds t r src off n)
  rwa [h.frame.beat] at this

end

end Sys2Proof.Proofs
end

section
/-!
The statement on the loads and stores of the vector slot (03_rooms_and_arrays.md).
-/
namespace Sys2Proof.Proofs
open Sys2Proof.Machine Sys2Proof.Laws

/-! ### Loads and stores of the vector slot (R80, R94, R101) -/

section
variable {s : State} {r : Nat} {f : VectorSlot}

theorem numericEvent_rooms (s : State) (code key unit : Nat) (items : Items) : (numericEvent s code key unit items).rooms = s.rooms := by
  unfold numericEvent
  split
  · rfl
  · dsimp only
    split
    · rfl
    · split <;> rfl

theorem caseEvents_rooms (s : State) (c : CaseCounts) (key unit : Nat) (items : Items) : (caseEvents s c key unit items).rooms = s.rooms := by
  have go (s : State) (n code : Nat) : (if n = 0 then s else numericEvent s code key unit items).rooms = s.rooms := by
    split
    · rfl
    · exact numericEvent_rooms s code key unit items
  exact (go _ _ _).trans ((go _ _ _).trans ((go _ _ _).trans ((go _ _ _).trans (go _ _ _))))

@[simp] theorem vecNote_beat (v : VecCases) : (vecNote s r v).beat = s.beat := by
  obtain ⟨-, -, -, -, same, -⟩ := (vecNote_one s r v).frame
  exact same

/-- Noting cases makes no result pending for a register. -/
theorem micro_vecNote {v : VecCases} {m : Micro} (hm : m ∈ (getRoom (vecNote s r v) r).micro) : m ∈ (getRoom s r).micro ∨ microReg m = none := by
  unfold vecNote at hm
  split at hm
  · exact .inl hm
  · rw [vectorEvents, getRoom, caseEvents_rooms, ← getRoom, addAction, getRoom_addActionOf] at hm
    rcases List.mem_append.mp hm with old | new
    · exact .inl old
    · rw [List.mem_singleton.mp new]
      exact .inr rfl

theorem postFree_vecNote {a n : Nat} (v : VecCases) (h : PostFree s r a n) : PostFree (vecNote s r v) r a n := by
  intro hn m hm hdue
  rw [vecNote_beat] at hdue
  rcases micro_vecNote hm with old | noted
  · exact h hn m old hdue
  · simp [noted]

theorem roundUp_vector (es : Nat) : roundUp (256 * es) 64 = 256 * es := roundUp_of_lines (by omega)

theorem vldBody_ok (hpost : PostFree s r f.aa.toNat (64 * f.ia.toNat))
    (hread : Readable s r (vecAddr (getRoom s r) f) (256 * cellBytes f.fmt.toNat)) (hfree : PortFree s r (s.beat + 6) .load (0, f.vd.toNat)) :
    let q := getRoom s r
    let n := 256 * cellBytes f.fmt.toNat
    let vals := (valuesOf (cellBytes f.fmt.toNat) (storeRead s r (vecAddr q f) n)).map (widenLane f.fmt.toNat)
    vldBody s r f q = .ok (posted
      (resultDue (readDone s r srcVector (vecAddr q f) n) r (s.beat + 6) .load
        (.v f.vd.toNat (laneRun (fun a _ _ => (a, noFlags)) 0 (vecOn q f) vals vals vals).1) srcVector)
      r f.aa.toNat (64 * f.ia.toNat)) := by
  have read := readNow_ok (arr := 0) (src := srcVector) (n := 256 * cellBytes f.fmt.toNat) ((roundUp_vector _).symm ▸ hread)
  rw [roundUp_vector] at read
  intro q n vals
  have readAdds := readDone_adds s r srcVector (vecAddr q f) n
  have free : PortFree (readDone s r srcVector (vecAddr q f) n) r (s.beat + 6) .load (0, f.vd.toNat) :=
    portFree_of_micro hfree (readAdds.micro.trans (List.append_nil _))
  have loadAdds := readAdds.trans (resultDue_adds _ r (s.beat + 6) .load
    (.v f.vd.toNat (laneRun (fun a _ _ => (a, noFlags)) 0 (vecOn q f) vals vals vals).1) srcVector)
  have post := loadAdds.postFree hpost (by simp [microReg])
  rw [vldBody, read, Except.bind]
  dsimp only
  rw [readDone_beat, addResultOf_free rfl free]
  exact congrArg Except.ok (postInc_free post)

theorem vstBody_ok (hpost : PostFree s r f.aa.toNat (64 * f.ia.toNat))
    (hclaim : Claimable s r (vecAddr (getRoom s r) f) (256 * cellBytes f.fmt.toNat) (s.beat + 2)) :
    let q := getRoom s r
    let es := cellBytes f.fmt.toNat
    let off := vecAddr q f
    let xv := xReg q f.xs.toNat
    let draw (i : Nat) := drawOf (roomDrawKey s r 2 (bits xv 63 56)) (256 * bits xv 55 32 + i)
    let x := storeRun f.fmt.toNat (BitVec.ofNat 32 (bits xv 31 0)) (decide (f.ro = 1)) draw 0 (vReg q f.va.toNat)
    vstBody s r f q = .ok (posted
      (vecNote (addActionOf (withBanks s r srcVector off (256 * es) (s.beat + 2)) r s.beat srcVector (s.beat + 2) 2
        (.store off ((x.1.map (fun c => leBytes es c)).flatten))) r x.2)
      r f.aa.toNat (64 * f.ia.toNat)) := by
  intro q es off xv draw x
  have storeAdds := (withBanks_adds s r srcVector off (256 * es) (s.beat + 2)).trans (addActionOf_adds _ r s.beat srcVector (s.beat + 2) 2
    (.store off ((x.1.map (fun c => leBytes es c)).flatten)))
  have post := postFree_vecNote x.2 (storeAdds.postFree hpost (by simp [microReg]))
  rw [vstBody, claim_ok 0 srcVector hclaim]
  exact congrArg Except.ok (postInc_free post)

end

/-- Settles O10: the access takes its banks, and what it makes pending reaches no address register, so the post-increment meets nothing. -/
theorem vectorMemoryCompletes : Obligations.VectorMemoryCompletes := by
  intro s r f ha hlegal q es off hpost
  refine ⟨fun hread hfree => slot_completes rfl ha hlegal (vldBody_ok hpost hread hfree), fun hclaim hmsk => ?_⟩
  have hst : vstLegal f = true := by rw [vstLegal, hlegal, unmasked_of_msk hmsk]; rfl
  exact slot_completes rfl ha hst (vstBody_ok hpost hclaim)

end Sys2Proof.Proofs
end

section
/-!
Gangs, arrays and the accesses of several rows, as the operations of the array slot use them (03_rooms_and_arrays.md).
-/
namespace Sys2Proof.Proofs
open Sys2Proof.Machine Sys2Proof.Laws

/-! ### A body's steps in turn -/

/-- The next step of a body, where the one before has succeeded. -/
theorem bind_ok {ε α β : Type} {x : Except ε α} {a : α} {k : α → Except ε β} (h : x = .ok a) : x.bind k = k a := by
  rw [h, Except.bind]

/-! ### Gangs (R66, R114) -/

section
variable {s : State} {r gb gs gp g p k : Nat}

theorem gangShape_some (h : gangShape gb gs gp = some (g, p, k)) : g = 2 ^ gs ∧ p = 2 ^ gp ∧ k = 2 ^ (gs - gp) := by
  unfold gangShape at h
  split at h
  · cases h
  · cases h
    exact ⟨rfl, rfl, rfl⟩

/-- A gang that may act does, and is in use from then on. -/
theorem useGang_ok (h : GangFree s r gb gs gp g p k) : useGang s r gb gs gp = .ok (gangUsed s r gb gs, g, p, k) := by
  obtain ⟨hshape, hfree⟩ := h
  unfold useGang gangUsed
  rw [hshape]
  dsimp only
  by_cases hused : (getGang (getRoom s r) gb).used = true ∧ (getGang (getRoom s r) gb).gs = gs
  · obtain ⟨used, same⟩ := hused
    simp only [used, same, decide_true, Bool.and_self, if_true, and_self]
  · have apart : (getRoom s r).gangs.any (fun e => e.2.used && decide (e.1 < gb + g) && decide (gb < e.1 + 2 ^ e.2.gs)) = false := by
      rw [List.any_eq_false]
      intro e he
      have clear := hfree.resolve_left hused e he
      simp only [Bool.and_eq_true, decide_eq_true_eq, not_and]
      rintro ⟨used, hlo⟩
      have := clear used
      omega
    have unused : ¬(((getGang (getRoom s r) gb).used && decide ((getGang (getRoom s r) gb).gs = gs)) = true) := by
      rwa [Bool.and_eq_true, decide_eq_true_eq]
    rw [if_neg unused, apart, if_neg hused]
    rfl

theorem gangUsed_adds (s : State) (r gb gs : Nat) : RoomAdds s r [] [] (gangUsed s r gb gs) := by
  unfold gangUsed
  split
  · exact RoomAdds.refl s r
  · exact setGang_adds s r gb _

@[simp] theorem gangUsed_beat (s : State) (r gb gs : Nat) : (gangUsed s r gb gs).beat = s.beat := (gangUsed_adds s r gb gs).frame.beat

/-- The first use in a phase clears the status record, and keeps the arrays, the held line of scales, the entries' tags and the drain. -/
@[simp] theorem gangUsed_arrays (s : State) (r gb gs : Nat) : (getRoom (gangUsed s r gb gs) r).arrays = (getRoom s r).arrays := by
  unfold gangUsed
  split
  · rfl
  · rw [getRoom_modRoom]
    rfl

@[simp] theorem getGang_setGang (q : Room) (gb : Nat) (x : Gang) : getGang (setGang q gb x) gb = x := smGet_smSet_same _ _ _ _

@[simp] theorem gangUsed_held (s : State) (r gb gs : Nat) :
    (getGang (getRoom (gangUsed s r gb gs) r) gb).held = (getGang (getRoom s r) gb).held := by
  unfold gangUsed
  split
  · rfl
  · rw [getRoom_modRoom, getGang_setGang]
    rfl

end

/-! ### Arrays of a gang (R64, R66, R67) -/

theorem getArr_setArr_same (q : Room) (a : Nat) (u : ArrayUnit) : getArr (setArr q a u) a = u := smGet_smSet_same _ _ _ _

theorem getArr_setArr_other (q : Room) {a b : Nat} (u : ArrayUnit) (h : b ≠ a) : getArr (setArr q a u) b = getArr q b := smGet_smSet_other _ _ _ _ h

theorem getArr_congr {q q' : Room} (h : q'.arrays = q.arrays) (a : Nat) : getArr q' a = getArr q a := by rw [getArr, h, ← getArr]

section
variable {f : Nat → ArrayUnit → ArrayUnit}

theorem modArrs_cons (q : Room) (a : Nat) (as : List Nat) (f : Nat → ArrayUnit → ArrayUnit) :
    modArrs q (a :: as) f = modArrs (setArr q a (f a (getArr q a))) as f := rfl

/-- Changing arrays changes the room's arrays alone. -/
theorem modArrs_eq (q : Room) (as : List Nat) (f : Nat → ArrayUnit → ArrayUnit) : modArrs q as f = { q with arrays := (modArrs q as f).arrays } := by
  induction as generalizing q with
  | nil => rfl
  | cons a as ih =>
    rw [modArrs_cons, ih]
    rfl

theorem getArr_modArrs_of_notMem {q : Room} {as : List Nat} {a : Nat} (h : a ∉ as) : getArr (modArrs q as f) a = getArr q a := by
  induction as generalizing q with
  | nil => rfl
  | cons b as ih =>
    rw [List.mem_cons, not_or] at h
    obtain ⟨hab, has⟩ := h
    rw [modArrs_cons, ih has, getArr_setArr_other _ _ hab]

/-- Each array of a list without repetitions is changed once. -/
theorem getArr_modArrs_of_mem {q : Room} {as : List Nat} {a : Nat} (hnodup : as.Nodup) (h : a ∈ as) : getArr (modArrs q as f) a = f a (getArr q a) := by
  induction as generalizing q with
  | nil => cases h
  | cons b as ih =>
    obtain ⟨hb, hnodup⟩ := List.nodup_cons.mp hnodup
    rw [modArrs_cons]
    rcases List.mem_cons.mp h with rfl | has
    · rw [getArr_modArrs_of_notMem hb, getArr_setArr_same]
    · have hab : a ≠ b := fun e => hb (e ▸ has)
      rw [ih hnodup has, getArr_setArr_other _ _ hab]

/-- What no change touches stays as it is in every array. -/
theorem modArrs_keeps {α : Type} {π : ArrayUnit → α} (hf : ∀ a u, π (f a u) = π u) (q : Room) (as : List Nat) (a : Nat) :
    π (getArr (modArrs q as f) a) = π (getArr q a) := by
  induction as generalizing q with
  | nil => rfl
  | cons b as ih =>
    rw [modArrs_cons, ih]
    by_cases hab : a = b
    · rw [hab, getArr_setArr_same, hf]
    · rw [getArr_setArr_other _ _ hab]

theorem modArrs_adds (s : State) (r : Nat) (as : List Nat) (f : Nat → ArrayUnit → ArrayUnit) : RoomAdds s r [] [] (modRoom s r (fun q => modArrs q as f)) :=
  modRoom_adds s r (fun q => by rw [modArrs_eq]; rfl) (fun q => by rw [modArrs_eq]) (fun q => by rw [modArrs_eq])

end

theorem nodup_arraysOf (gb g : Nat) : (arraysOf gb g).Nodup :=
  (nodup_upTo g).map fun _ _ h => Nat.add_left_cancel h

theorem nodup_chainEnds (gb p tp : Nat) {k : Nat} (hk : 0 < k) : (chainEnds gb p k tp).Nodup := by
  unfold chainEnds
  split
  · exact (nodup_upTo k).map fun _ _ h => Nat.add_left_cancel h
  · exact (nodup_upTo p).map fun _ _ h => Nat.eq_of_mul_eq_mul_right hk (Nat.add_left_cancel (Nat.add_right_cancel h))

@[simp] theorem planeOf_setPlane_same (u : ArrayUnit) (p : Nat) (x : Plane) : planeOf (setPlane u p x) p = x := by
  unfold planeOf setPlane
  split <;> rfl

@[simp] theorem setPlane_active (u : ArrayUnit) (p : Nat) (x : Plane) : (setPlane u p x).active = u.active := by unfold setPlane; split <;> rfl
@[simp] theorem setPlane_wr (u : ArrayUnit) (p : Nat) (x : Plane) : (setPlane u p x).wr = u.wr := by unfold setPlane; split <;> rfl

/-! ### Accesses of several rows (R86, R97, R99) -/

/-- A scheduled access: its number in its bundle, its offset and length, and the beat in which it takes its banks. -/
structure Access where
  src : Nat
  off : Nat
  len : Nat
  beat : Nat

/-- The banks of some accesses taken. -/
def taken (s : State) (r : Nat) (l : List Access) : State := l.foldl (fun s x => withBanks s r x.src x.off x.len x.beat) s

/-- The banks that some accesses of the bundle of beat `issued` take. -/
def accessUses (issued : Nat) (l : List Access) : List BankUse := l.flatMap (fun x => bankUses issued x.src x.off x.len x.beat)

/-- `k` accesses of `n` bytes, `stride` apart, one a beat. -/
def rowAccesses (src off stride n beat : Nat) : Nat → List Access
  | 0 => []
  | k + 1 => { src := src, off := off, len := n, beat := beat } :: rowAccesses (src + 1) (off + stride) stride n (beat + 1) k

theorem mem_rowAccesses {src off stride n beat k : Nat} {x : Access} :
    x ∈ rowAccesses src off stride n beat k ↔ ∃ i, i < k ∧ x = { src := src + i, off := off + i * stride, len := n, beat := beat + i } := by
  induction k generalizing src off beat with
  | zero => simp [rowAccesses]
  | succ k ih =>
    have shift (i : Nat) : ({ src := src + 1 + i, off := off + stride + i * stride, len := n, beat := beat + 1 + i } : Access) =
        { src := src + (i + 1), off := off + (i + 1) * stride, len := n, beat := beat + (i + 1) } := by
      rw [Nat.add_mul, Nat.one_mul, Nat.add_assoc off, Nat.add_comm stride, Nat.add_assoc src, Nat.add_assoc beat, Nat.add_comm 1]
    rw [rowAccesses, List.mem_cons, ih]
    simp only [shift]
    constructor
    · rintro (rfl | ⟨i, hi, rfl⟩)
      · exact ⟨0, Nat.succ_pos k, by simp⟩
      · exact ⟨i + 1, Nat.succ_lt_succ hi, rfl⟩
    · rintro ⟨_ | i, hi, rfl⟩
      · exact .inl (by simp)
      · exact .inr ⟨i, Nat.lt_of_succ_lt_succ hi, rfl⟩

section
variable {s t : State} {r : Nat}

theorem mem_accessUses {issued : Nat} {l : List Access} {u : BankUse} :
    u ∈ accessUses issued l ↔ ∃ x ∈ l, ∃ b ∈ banksOf x.off x.len, { beat := x.beat, bank := b, issued := issued, src := x.src } = u := by
  simp only [accessUses, List.mem_flatMap, mem_bankUses]

theorem taken_nil (s : State) (r : Nat) : taken s r [] = s := rfl

theorem taken_append (s : State) (r : Nat) (l l' : List Access) : taken s r (l ++ l') = taken (taken s r l) r l' := List.foldl_append

theorem taken_adds (s : State) (r : Nat) (l : List Access) : RoomAdds s r [] (accessUses s.beat l) (taken s r l) := by
  induction l generalizing s with
  | nil => exact RoomAdds.refl s r
  | cons x l ih => exact (withBanks_adds s r x.src x.off x.len x.beat).trans (ih _)

theorem RoomAdds.taken {ms : List Micro} {us : List BankUse} (h : RoomAdds s r ms us t) (l : List Access) :
    RoomAdds s r ms (us ++ accessUses s.beat l) (taken t r l) := by
  have := h.take (taken_adds t r l)
  rwa [h.frame.beat] at this

/-- An access taken holds each of its banks in its beat. -/
theorem RoomAdds.exists_bank {ms : List Micro} {us : List BankUse} (h : RoomAdds s r ms us t) {issued : Nat} {l : List Access}
    (hl : accessUses issued l ⊆ us) {x : Access} (hx : x ∈ l) : ∀ b ∈ banksOf x.off x.len, ∃ u ∈ (getRoom t r).banks, u.beat = x.beat ∧ u.bank = b :=
  fun b hb => ⟨_, h.mem_banks (hl (mem_accessUses.mpr ⟨x, hx, b, hb, rfl⟩)), rfl, rfl⟩

/-- A claim in one beat leaves the banks of every other beat as they are. -/
theorem claimable_withBanks {src off n beat off' n' beat' : Nat} (h : Claimable s r off n beat) (hne : beat' ≠ beat) :
    Claimable (withBanks s r src off' n' beat') r off n beat := by
  refine (withBanks_adds s r src off' n' beat').claimable h fun u hu same => ?_
  obtain ⟨b, -, rfl⟩ := mem_bankUses.mp hu
  exact hne same.1

/-- Rows that may each be claimed in their beats are claimed together. -/
theorem claimRows_ok {arr src off stride n beat k : Nat} (h : ∀ i, i < k → Claimable s r (off + i * stride) n (beat + i)) :
    claimRows s r arr src off stride n beat k = .ok (taken s r (rowAccesses src off stride n beat k)) := by
  induction k generalizing s src off beat with
  | zero => rfl
  | succ k ih =>
    have first : Claimable s r off n beat := by simpa using h 0 (Nat.succ_pos k)
    rw [claimRows, bind_ok (claim_ok arr src first), ih fun i hi => ?_]
    · rfl
    · have later := h (i + 1) (Nat.succ_lt_succ hi)
      rw [Nat.add_mul, Nat.one_mul, Nat.add_comm (i * stride), ← Nat.add_assoc off, Nat.add_comm i, ← Nat.add_assoc beat] at later
      exact claimable_withBanks later (by omega)

/-- Claims of different beats that may each be made are made together. -/
theorem foldl_claim_ok {arr : Nat} {l : List Access} (hbeats : l.Pairwise (fun x y => x.beat ≠ y.beat))
    (h : ∀ x ∈ l, Claimable s r x.off x.len x.beat) :
    l.foldl (fun (o : SlotRes) x => o.bind (fun s => claim s r arr x.src x.off x.len x.beat)) (.ok s) = .ok (taken s r l) := by
  induction l generalizing s with
  | nil => rfl
  | cons x l ih =>
    obtain ⟨hx, hbeats⟩ := List.pairwise_cons.mp hbeats
    rw [List.foldl_cons, bind_ok rfl, claim_ok arr x.src (h x List.mem_cons_self)]
    exact ih hbeats fun y hy => claimable_withBanks (h y (List.mem_cons_of_mem x hy)) (hx y hy)

end

end Sys2Proof.Proofs
end

section
/-!
The statement on planes and status records of the array slot (03_rooms_and_arrays.md).
-/
namespace Sys2Proof.Proofs
open Sys2Proof.Machine Sys2Proof.Laws

/-! ### Status records and swaps (R64, R114) -/

section
variable {s : State} {r g p k : Nat} {f : ArraySlot}

theorem astatBody_ok (h : GangFree s r f.gb.toNat f.gs.toNat 0 g p k) :
    astatBody s r f = .ok (addAction (gangUsed s r f.gb.toNat f.gs.toNat) r (s.beat + 4) 0 (.statRead f)) := by
  rw [astatBody, bind_ok (useGang_ok h)]
  dsimp only
  rw [gangUsed_beat]

theorem aclrBody_ok (h : GangFree s r f.gb.toNat f.gs.toNat 0 g p k) :
    aclrBody s r f = .ok (addAction (gangUsed s r f.gb.toNat f.gs.toNat) r (s.beat + 4) 0 (.statClear f.gb.toNat)) := by
  rw [aclrBody, bind_ok (useGang_ok h)]
  dsimp only
  rw [gangUsed_beat]

theorem aswapBody_ok (h : GangFree s r f.gb.toNat f.gs.toNat f.gp.toNat g p k)
    (hready : ∀ a ∈ arraysOf f.gb.toNat g, (shadowOf s r a).ready < s.beat + 4) :
    aswapBody s r f (getRoom s r) =
      .ok (modRoom (gangUsed s r f.gb.toNat f.gs.toNat) r (fun q => modArrs q (arraysOf f.gb.toNat g) (fun _ a => { a with active := 1 - a.active }))) := by
  have loaded : ((arraysOf f.gb.toNat g).any fun a =>
      decide ((gangUsed s r f.gb.toNat f.gs.toNat).beat + 4 ≤ (planeOf (getArr (getRoom s r) a) (1 - (getArr (getRoom s r) a).active)).ready)) = false := by
    rw [List.any_eq_false]
    intro a ha
    rw [gangUsed_beat, decide_eq_true_eq, not_le]
    exact hready a ha
  rw [aswapBody, bind_ok (useGang_ok h)]
  dsimp only
  rw [loaded]
  rfl

end

/-! ### Loads (R64, R97) -/

/-- The shadow planes of a gang ready in array cycle `done`. -/
def shadowsDue (s : State) (r gb g done : Nat) : State :=
  modRoom s r (fun q => modArrs q (arraysOf gb g) (fun _ u =>
    let p := planeOf u (1 - u.active)
    setPlane u (1 - u.active) { p with ready := done }))

/-- The accesses of a load's nine or eight rows. -/
def loadAccesses (g fmt base b : Nat) : List Access :=
  rowAccesses srcInput base (loadRowBytes g fmt 0) (loadRowBytes g fmt 0) b 8 ++
    if ninthRow fmt then [{ src := srcInput + 8, off := base + 8 * loadRowBytes g fmt 0, len := roundUp (loadRowBytes g fmt 8) 64, beat := b + 8 }] else []

/-- What a load makes pending: the first row, read as it issues, for the shadow planes, and the reads of the others. -/
def loadMicro (gb g sh fmt base b : Nat) (bs : List Byte) : List Micro :=
  { due := b + 4, ord := 2, issued := b, port := .none, op := .loadPut gb g sh fmt 0 bs, src := srcInput } ::
    (upTo (7 + b2n (ninthRow fmt))).map fun i =>
      { due := b + i + 1, ord := 1, issued := b, port := .none, op := .loadRow gb g sh fmt (i + 1) (base + (i + 1) * loadRowBytes g fmt 0),
        src := srcInput + (i + 1) }

/-- What `aloadBody` does once it has claimed its rows, where the first can be read. -/
def loadIssued (s : State) (r gb g sh fmt base done : Nat) : State :=
  (upTo (7 + b2n (ninthRow fmt))).foldl
    (fun t i => addActionOf t r s.beat (srcInput + (i + 1)) (s.beat + i + 1) 1 (.loadRow gb g sh fmt (i + 1) (base + (i + 1) * loadRowBytes g fmt 0)))
    (loadRowAct (shadowsDue s r gb g done) r s.beat gb g sh fmt 0 base)

section
variable {s t : State} {r gb g p k sh fmt base done : Nat} {f : ArraySlot}

theorem loadRowBytes_lines : roundUp (loadRowBytes g fmt 0) 64 = loadRowBytes g fmt 0 := roundUp_of_lines (roundUp_mod _)

theorem shadowsDue_adds (s : State) (r gb g done : Nat) : RoomAdds s r [] [] (shadowsDue s r gb g done) := modArrs_adds s r _ _

theorem shadowOf_shadowsDue {a : Nat} (ha : a ∈ arraysOf gb g) : (shadowOf (shadowsDue s r gb g done) r a).ready = done := by
  rw [shadowOf, shadowsDue, getRoom_modRoom, getArr_modArrs_of_mem (nodup_arraysOf gb g) ha]
  simp only [setPlane_active, planeOf_setPlane_same]

/-- The first row, read as the load issues. -/
theorem loadRowAct_ok {b : Nat} (h : storeBad s r base (loadRowBytes g fmt 0) = false) :
    loadRowAct s r b gb g sh fmt 0 base =
      addActionOf (countWeak s (storeAddr (getRoom s r).floor (getRoom s r).pos base) (loadRowBytes g fmt 0)) r b srcInput (s.beat + 4) 2
        (.loadPut gb g sh fmt 0 (storeRead s r base (loadRowBytes g fmt 0))) := by
  rw [loadRowAct, loadRowBytes_lines, storeFetch_good h]
  dsimp only
  rw [countWeak_beat]
  rfl

theorem loadIssued_eq (h : storeBad s r base (loadRowBytes g fmt 0) = false) : loadIssued s r gb g sh fmt base done =
    (upTo (7 + b2n (ninthRow fmt))).foldl
      (fun t i => addActionOf t r s.beat (srcInput + (i + 1)) (s.beat + i + 1) 1 (.loadRow gb g sh fmt (i + 1) (base + (i + 1) * loadRowBytes g fmt 0)))
      (addActionOf (countWeak (shadowsDue s r gb g done) (storeAddr (getRoom s r).floor (getRoom s r).pos base) (loadRowBytes g fmt 0)) r s.beat srcInput
        (s.beat + 4) 2 (.loadPut gb g sh fmt 0 (storeRead s r base (loadRowBytes g fmt 0)))) := by
  have due := (shadowsDue_adds s r gb g done).frame
  rw [loadIssued, loadRowAct_ok (by rw [due.storeBad, h]), due.beat, due.storeRead, due.storeAddr]

theorem loadIssued_adds (h : storeBad s r base (loadRowBytes g fmt 0) = false) :
    RoomAdds s r (loadMicro gb g sh fmt base s.beat (storeRead s r base (loadRowBytes g fmt 0))) [] (loadIssued s r gb g sh fmt base done) := by
  rw [loadIssued_eq h]
  exact (((shadowsDue_adds s r gb g done).still (countWeak_adds _ r _ _)).trans (addActionOf_adds _ r _ _ _ _ _)).trans
    (foldl_addActionOf_adds s.beat (fun i => srcInput + (i + 1)) (fun i => s.beat + i + 1) (fun _ => 1)
      (fun i => .loadRow gb g sh fmt (i + 1) (base + (i + 1) * loadRowBytes g fmt 0)) _ _ r)

/-- Once the load has issued, its shadow planes are ready in array cycle `done`. -/
theorem shadowOf_posted_loadIssued (h : storeBad s r base (loadRowBytes g fmt 0) = false) {a n x : Nat} (hx : x ∈ arraysOf gb g) :
    (shadowOf (posted (loadIssued s r gb g sh fmt base done) r a n) r x).ready = done := by
  have arrays : (getRoom (posted (loadIssued s r gb g sh fmt base done) r a n) r).arrays = (getRoom (shadowsDue s r gb g done) r).arrays := by
    rw [getRoom_posted, loadIssued_eq h, getRoom_foldl_addActionOf, getRoom_addActionOf, getRoom_countWeak]
  rw [shadowOf, getArr_congr arrays]
  exact shadowOf_shadowsDue hx

/-- The ninth row has a beat of its own, so it is claimed after the others where it could be before. -/
theorem ninthClaim_ok {arr b : Nat}
    (h : ninthRow fmt = true → Claimable s r (base + 8 * loadRowBytes g fmt 0) (roundUp (loadRowBytes g fmt 8) 64) (b + 8)) :
    let u := taken s r (rowAccesses srcInput base (loadRowBytes g fmt 0) (loadRowBytes g fmt 0) b 8)
    (if ninthRow fmt then claim u r arr (srcInput + 8) (base + 8 * loadRowBytes g fmt 0) (roundUp (loadRowBytes g fmt 8) 64) (b + 8) else .ok u) =
      .ok (taken s r (loadAccesses g fmt base b)) := by
  intro u
  rw [loadAccesses, taken_append]
  by_cases hn : ninthRow fmt = true
  · have rows : RoomAdds s r [] _ u := (RoomAdds.refl s r).taken _
    rw [if_pos hn, if_pos hn]
    refine claim_ok arr (srcInput + 8) (rows.claimable (h hn) fun x hx same => ?_)
    obtain ⟨y, hy, bank, -, rfl⟩ := mem_accessUses.mp hx
    obtain ⟨i, hi, rfl⟩ := mem_rowAccesses.mp hy
    exact absurd (Nat.add_left_cancel same.1) (Nat.ne_of_lt hi)
  · rw [if_neg hn, if_neg hn, taken_nil]

theorem aloadBody_ok (hgang : GangFree s r f.gb.toNat f.gs.toNat f.gp.toNat g p k)
    (hfree : ∀ a ∈ arraysOf f.gb.toNat g, (shadowOf s r a).free ≤ s.beat + 4) (hbase : (aReg (getRoom s r) f.aa.toNat).toNat = base) (hfmt : f.fmt.toNat = fmt)
    (hrows : ∀ i, i < 8 → Claimable s r (base + i * loadRowBytes g fmt 0) (loadRowBytes g fmt 0) (s.beat + i))
    (hgood : storeBad s r base (loadRowBytes g fmt 0) = false)
    (hninth : ninthRow fmt = true → Claimable s r (base + 8 * loadRowBytes g fmt 0) (roundUp (loadRowBytes g fmt 8) 64) (s.beat + 8))
    (hpost : PostFree s r f.aa.toNat (64 * f.ia.toNat)) :
    let u := taken (gangUsed s r f.gb.toNat f.gs.toNat) r (loadAccesses g fmt base s.beat)
    let t := posted (loadIssued u r f.gb.toNat g (shadowBits (getRoom s r) f.gb.toNat g) fmt base (s.beat + 11 + b2n (ninthRow fmt)))
      r f.aa.toNat (64 * f.ia.toNat)
    aloadBody s r f (getRoom s r) = .ok t ∧
      RoomAdds s r (loadMicro f.gb.toNat g (shadowBits (getRoom s r) f.gb.toNat g) fmt base s.beat (storeRead s r base (loadRowBytes g fmt 0)) ++
        postMicro s r f.aa.toNat (64 * f.ia.toNat)) (accessUses s.beat (loadAccesses g fmt base s.beat)) t ∧
      ∀ a ∈ arraysOf f.gb.toNat g, (shadowOf t r a).ready = s.beat + 11 + b2n (ninthRow fmt) := by
  intro u t
  have gang := gangUsed_adds s r f.gb.toNat f.gs.toNat
  have took : RoomAdds s r [] (accessUses s.beat (loadAccesses g fmt base s.beat)) u := gang.taken (loadAccesses g fmt base s.beat)
  have good : storeBad u r base (loadRowBytes g fmt 0) = false := by rw [took.frame.storeBad, hgood]
  have issued := took.pend (loadIssued_adds (sh := shadowBits (getRoom s r) f.gb.toNat g) (gb := f.gb.toNat) (done := s.beat + 11 + b2n (ninthRow fmt)) good)
  rw [took.frame.beat, took.frame.storeRead] at issued
  have post := issued.postFree hpost (by simp [loadMicro, microReg])
  have idle : ((arraysOf f.gb.toNat g).any fun a =>
      decide (s.beat + 4 < (planeOf (getArr (getRoom s r) a) (1 - (getArr (getRoom s r) a).active)).free)) = false := by
    rw [List.any_eq_false]
    intro a ha
    rw [decide_eq_true_eq, not_lt]
    exact hfree a ha
  have rows := claimRows_ok (arr := f.gb.toNat) (src := srcInput) fun i hi => gang.claimable (hrows i hi) (by simp)
  have ninth := ninthClaim_ok (arr := f.gb.toNat) fun hn => gang.claimable (hninth hn) (by simp)
  refine ⟨?_, issued.post _ _, fun a => shadowOf_posted_loadIssued good⟩
  rw [aloadBody, bind_ok (useGang_ok hgang)]
  dsimp only
  rw [idle, hbase, hfmt, if_neg Bool.false_ne_true, bind_ok rows, bind_ok ninth, good, if_neg Bool.false_ne_true]
  refine congrArg Except.ok (Eq.trans ?_ (postInc_free post))
  rw [loadIssued, took.frame.beat]
  rfl

theorem exists_loadRow {gb sh b i : Nat} {bs : List Byte} (h1 : 1 ≤ i) (hi : i < 8 + b2n (ninthRow fmt)) :
    ∃ m ∈ loadMicro gb g sh fmt base b bs, m.due = b + i ∧ m.op = .loadRow gb g sh fmt i (base + i * loadRowBytes g fmt 0) := by
  obtain ⟨j, rfl⟩ := Nat.exists_eq_add_of_le' h1
  have hj : j ∈ upTo (7 + b2n (ninthRow fmt)) := mem_upTo.mpr (by omega)
  exact ⟨_, List.mem_cons_of_mem _ (List.mem_map_of_mem hj), rfl, rfl⟩

theorem row_mem_loadAccesses {b i : Nat} (hi : i < 8) :
    { src := srcInput + i, off := base + i * loadRowBytes g fmt 0, len := loadRowBytes g fmt 0, beat := b + i } ∈ loadAccesses g fmt base b :=
  List.mem_append_left _ (mem_rowAccesses.mpr ⟨i, hi, rfl⟩)

theorem ninth_mem_loadAccesses {b : Nat} (h : ninthRow fmt = true) :
    { src := srcInput + 8, off := base + 8 * loadRowBytes g fmt 0, len := roundUp (loadRowBytes g fmt 8) 64, beat := b + 8 } ∈ loadAccesses g fmt base b := by
  rw [loadAccesses, if_pos h]
  exact List.mem_append_right _ (List.mem_singleton_self _)

end

/-- Settles O11: each operation uses its gang and then does what its body says; a load has claimed all of its rows before it reads the first. -/
theorem arrayPlanesComplete : Obligations.ArrayPlanesComplete := by
  intro s r f g p k ha gb
  refine ⟨fun hgang => ⟨fun hlegal => slot_completes rfl ha hlegal (astatBody_ok hgang), fun hlegal => slot_completes rfl ha hlegal (aclrBody_ok hgang)⟩,
    fun hgang => ⟨fun hlegal hready => slot_completes rfl ha hlegal (aswapBody_ok hgang hready), ?load⟩⟩
  case load =>
    intro hlegal fmt base st sh hfree hrows hgood hninth hpost
    obtain ⟨body, adds, ready⟩ := aloadBody_ok hgang hfree rfl rfl hrows hgood hninth hpost
    refine ⟨_, slot_completes rfl ha hlegal body, adds.frame.arrayFrame, ready, ?first, ?others, ?rowBanks, ?ninthBanks, ?posted⟩
    case first => exact ⟨_, adds.mem_micro (List.mem_append_left _ List.mem_cons_self), rfl, rfl⟩
    case others =>
      intro i h1 hi
      obtain ⟨m, hm, due, op⟩ := exists_loadRow h1 hi
      exact ⟨m, adds.mem_micro (List.mem_append_left _ hm), due, op⟩
    case rowBanks => exact fun i hi => adds.exists_bank (List.Subset.refl _) (row_mem_loadAccesses hi)
    case ninthBanks => exact fun hn => adds.exists_bank (List.Subset.refl _) (ninth_mem_loadAccesses hn)
    case posted => exact fun hia => adds.exists_post (List.subset_append_right _ _) (lines_ne_zero.mpr hia)

end Sys2Proof.Proofs
end

section
/-!
The scale bytes that a row reads in its issue beat (03_rooms_and_arrays.md).
-/
namespace Sys2Proof.Proofs
open Sys2Proof.Machine Sys2Proof.Laws

/-! ### Scale bytes (R98) -/

/-- The room's gang holds the line of the scale bytes at `off`. -/
def holdsLine (s : State) (r gb off : Nat) : Bool := (getGang (getRoom s r) gb).held.any (fun h => decide (h.1 = off - off % 64))

/-- What a row's scale bytes leave: a line that the gang does not hold is read and held. -/
def scalesDone (s : State) (r gb off n : Nat) : State :=
  let line := off - off % 64
  if n = 0 then s
  else if holdsLine s r gb off then s
  else modRoom (readDone s r srcInput line 64) r (fun q => setGang q gb { getGang q gb with held := some (line, storeRead s r line 64) })

section
variable {s t : State} {r gb off n : Nat}

theorem getGang_congr {q q' : Room} (h : q'.gangs = q.gangs) (gb : Nat) : getGang q' gb = getGang q gb := by rw [getGang, h, ← getGang]

theorem holdsLine_iff : holdsLine s r gb off = true ↔ ScalesHeld s r gb off := by
  simp only [holdsLine, Option.any_eq_true, decide_eq_true_eq, ScalesHeld]

theorem rowScales_held (hfit : off % 64 + n ≤ 64) (h : holdsLine s r gb off = true) : rowScales s r gb off n = .ok (s, scaleBytes s r gb off n) := by
  obtain ⟨x, hheld, hline⟩ := holdsLine_iff.mp h
  simp only [rowScales, scaleBytes, Nat.not_lt.mpr hfit, hheld, hline, decide_true, if_true, if_false]

theorem scaleBytes_not_held (h : holdsLine s r gb off = false) :
    scaleBytes s r gb off n = (((storeRead s r (off - off % 64) 64).drop (off % 64)).take n).map (fun b => b.toNat) := by
  unfold holdsLine at h
  unfold scaleBytes
  cases hheld : (getGang (getRoom s r) gb).held with
  | none => rfl
  | some x =>
    simp only [hheld, Option.any_some, decide_eq_false_iff_not] at h
    simp only [if_neg h]

theorem rowScales_read (hfit : off % 64 + n ≤ 64) (h : holdsLine s r gb off = false) (hread : Readable s r (off - off % 64) 64) :
    rowScales s r gb off n =
      .ok (modRoom (readDone s r srcInput (off - off % 64) 64) r
        (fun q => setGang q gb { getGang q gb with held := some (off - off % 64, storeRead s r (off - off % 64) 64) }), scaleBytes s r gb off n) := by
  have read := readNow_ok (arr := gb) (src := srcInput) (n := 64) hread
  rw [scaleBytes_not_held h, rowScales, if_neg (Nat.not_lt.mpr hfit)]
  unfold holdsLine at h
  cases hheld : (getGang (getRoom s r) gb).held with
  | none =>
    dsimp only
    rw [hheld]
    dsimp only
    rw [if_neg Bool.false_ne_true, bind_ok read]
    rfl
  | some x =>
    rw [hheld, Option.any_some] at h
    dsimp only
    rw [hheld]
    dsimp only
    rw [if_neg (Bool.eq_false_iff.mp h), bind_ok read]
    rfl

/-- A row's scale bytes, of a line that is held or can be read. -/
theorem scales_ok (h : n ≠ 0 → off % 64 + n ≤ 64 ∧ (ScalesHeld s r gb off ∨ Readable s r (off - off % 64) 64)) :
    (if n = 0 then .ok (s, []) else rowScales s r gb off n) = .ok (scalesDone s r gb off n, if n = 0 then [] else scaleBytes s r gb off n) := by
  unfold scalesDone
  by_cases hn : n = 0
  · simp only [if_pos hn]
  · obtain ⟨hfit, hline⟩ := h hn
    simp only [if_neg hn]
    cases held : holdsLine s r gb off with
    | true => rw [rowScales_held hfit held, if_pos rfl]
    | false =>
      have unheld : ¬ScalesHeld s r gb off := fun k => by rw [holdsLine_iff.mpr k] at held; cases held
      rw [rowScales_read hfit held (hline.resolve_left unheld), if_neg Bool.false_ne_true]

/-- The banks that scale bytes take, if any, are of the issue beat. -/
theorem scalesDone_adds (s : State) (r gb off n : Nat) : ∃ us, RoomAdds s r [] us (scalesDone s r gb off n) ∧ ∀ u ∈ us, u.beat = s.beat := by
  unfold scalesDone
  dsimp only
  split
  · exact ⟨[], RoomAdds.refl s r, by simp⟩
  · split
    · exact ⟨[], RoomAdds.refl s r, by simp⟩
    · refine ⟨_, (readDone_adds s r srcInput _ 64).still (setGang_adds _ r gb _), fun u hu => ?_⟩
      obtain ⟨b, -, rfl⟩ := mem_bankUses.mp hu
      rfl

theorem scalesDone_arrays (s : State) (r gb off n : Nat) : (getRoom (scalesDone s r gb off n) r).arrays = (getRoom s r).arrays := by
  unfold scalesDone
  dsimp only
  split
  · rfl
  · split
    · rfl
    · simp [setGang]

/-- Scale bytes depend on the held line and the room's store alone. -/
theorem scaleBytes_congr (frame : SlotFrame s r t) (held : (getGang (getRoom t r) gb).held = (getGang (getRoom s r) gb).held) :
    scaleBytes t r gb off n = scaleBytes s r gb off n := by
  rw [scaleBytes, scaleBytes, held, frame.storeRead]

/-- Scale bytes once other reads of the beat have taken the banks `us`: the line is held, or can be read beside them. -/
theorem RoomAdds.scales_eq {us : List BankUse} (h : RoomAdds s r [] us t)
    (held : (getGang (getRoom t r) gb).held = (getGang (getRoom s r) gb).held)
    (hline : n ≠ 0 → off % 64 + n ≤ 64 ∧
      (ScalesHeld s r gb off ∨ (Readable s r (off - off % 64) 64 ∧ ∀ x ∈ us, x.bank ∉ banksOf (off - off % 64) 64))) :
    (if n = 0 then .ok (t, []) else rowScales t r gb off n) = .ok (scalesDone t r gb off n, if n = 0 then [] else scaleBytes s r gb off n) := by
  rw [scales_ok, scaleBytes_congr h.frame held]
  intro hn
  obtain ⟨hfit, line⟩ := hline hn
  exact ⟨hfit, line.imp (fun ⟨x, hx, same⟩ => ⟨x, held.trans hx, same⟩) fun ⟨hread, apart⟩ => h.readable hread fun x hx both => apart x hx both.2⟩

/-- Accesses of apart banks do not meet. -/
theorem bankUses_apart {issued src off' n' beat : Nat} (h : ∀ b ∈ banksOf off n, b ∉ banksOf off' n') :
    ∀ x ∈ bankUses issued src off' n' beat, x.bank ∉ banksOf off n := by
  intro x hx hb
  obtain ⟨b, hb', rfl⟩ := mem_bankUses.mp hx
  exact h b hb hb'

@[simp] theorem readDone_gangs (s : State) (r src off n : Nat) : (getRoom (readDone s r src off n) r).gangs = (getRoom s r).gangs := by
  rw [getRoom_readDone, getRoom_withBanks]

@[simp] theorem readDone_arrays (s : State) (r src off n : Nat) : (getRoom (readDone s r src off n) r).arrays = (getRoom s r).arrays := by
  rw [getRoom_readDone, getRoom_withBanks]

end

end Sys2Proof.Proofs
end

section
/-!
Rows in modes N and T (03_rooms_and_arrays.md).
-/
namespace Sys2Proof.Proofs
open Sys2Proof.Machine Sys2Proof.Laws

/-- The chain ends' entry `e` is written until beat `w` (R70). -/
def endsWritten (s : State) (r : Nat) (ends : List Nat) (e w : Nat) : State :=
  modRoom s r (fun q => modArrs q ends (fun _ u =>
    let u := { u with wr := smSet 0 u.wr e (max (smGet 0 u.wr e) w) }
    if e / 256 = 0 then { u with hw0 := max u.hw0 w } else { u with hw1 := max u.hw1 w }))

/-- The gang's active planes are in use until beat `w`. -/
def planesUsed (s : State) (r gb g w : Nat) : State :=
  modRoom s r (fun q => modArrs q (arraysOf gb g) (fun _ u =>
    let p := planeOf u u.active
    setPlane u u.active { p with free := max p.free w }))

/-- Entry `e` of the gang is tagged (R99). -/
def entryTagged (s : State) (r gb e tag : Nat) : State :=
  modRoom s r (fun q => setGang q gb { getGang q gb with tags := smSet 0 (getGang q gb).tags e tag })

/-- The numeric watch counts a row, and names the array of a gang of `g` that it samples, if any (R296). -/
def rowSampled (s : State) (r g : Nat) : State × Option Nat :=
  let wa := (getRoom s r).watch
  let rate := bits wa.ctl 6 2
  let sd := if decide ((wa.cnt + 1) % 2 ^ rate = 0) then watchDue s r else (s, false)
  (modRoom sd.1 r (fun q => { q with watch := { q.watch with cnt := q.watch.cnt + 1 } }), if sd.2 then some ((wa.cnt / 2 ^ rate) % g) else none)

/-- What `arowBody` does in beat `b`, in a gang of `g` with chains of depth `d`, once it has read its values and scale bytes. -/
def rowIssued (s : State) (r : Nat) (f : ArraySlot) (b g d : Nat) (ends planes xs scs : List Nat) : State :=
  let gb := f.gb.toNat
  let e := f.e.toNat
  let c := b + 4
  let noted := entryTagged (planesUsed (endsWritten s r ends e (c + wDepth d)) r gb g (c + 16 + 9 * (d - 1))) r gb e
    (f.tp.toNat + 2 * b2n (decide (f.fmt.toNat = 6 ∨ f.fmt.toNat = 7)))
  let v := rowSampled noted r g
  addActionOf v.1 r v.1.beat srcInput c 1 (.row f planes xs scs v.2)

section
variable {s t : State} {r gb g e w tag : Nat} {f : ArraySlot}

theorem watchDue_adds (s : State) (r : Nat) : RoomAdds s r [] [] (watchDue s r).1 := by
  unfold watchDue
  dsimp only
  split <;> exact regCount_adds s r _ _ _ _

theorem watchDue_rooms (s : State) (r : Nat) : (watchDue s r).1.rooms = s.rooms := by
  unfold watchDue
  dsimp only
  split <;> exact regCount_rooms _ _ _ _ _

@[simp] theorem getRoom_watchDue (s : State) (r : Nat) : getRoom (watchDue s r).1 r = getRoom s r := by
  rw [getRoom, watchDue_rooms, ← getRoom]

theorem rowSampled_adds (s : State) (r g : Nat) : RoomAdds s r [] [] (rowSampled s r g).1 := by
  unfold rowSampled
  dsimp only
  split
  · exact (watchDue_adds s r).still (modRoom_adds _ r (fun _ => rfl) (fun _ => rfl) (fun _ => rfl))
  · exact modRoom_adds s r (fun _ => rfl) (fun _ => rfl) (fun _ => rfl)

/-- Sampling leaves the arrays and the gangs as they are. -/
theorem rowSampled_arrays (s : State) (r g : Nat) : (getRoom (rowSampled s r g).1 r).arrays = (getRoom s r).arrays := by
  unfold rowSampled
  dsimp only
  split <;> simp

theorem rowSampled_gangs (s : State) (r g : Nat) : (getRoom (rowSampled s r g).1 r).gangs = (getRoom s r).gangs := by
  unfold rowSampled
  dsimp only
  split <;> simp

theorem addActionOf_arrays (s : State) (r issued src due ord : Nat) (op : MicroOp) :
    (getRoom (addActionOf s r issued src due ord op) r).arrays = (getRoom s r).arrays := by rw [getRoom_addActionOf]

theorem addActionOf_gangs (s : State) (r issued src due ord : Nat) (op : MicroOp) :
    (getRoom (addActionOf s r issued src due ord op) r).gangs = (getRoom s r).gangs := by rw [getRoom_addActionOf]

theorem wr_endsWritten {ends : List Nat} {a : Nat} (hnodup : ends.Nodup) (ha : a ∈ ends) :
    smGet 0 (getArr (getRoom (endsWritten s r ends e w) r) a).wr e = max (smGet 0 (getArr (getRoom s r) a).wr e) w := by
  rw [endsWritten, getRoom_modRoom, getArr_modArrs_of_mem hnodup ha]
  dsimp only
  split <;> exact smGet_smSet_same _ _ _ _

theorem wr_planesUsed (a : Nat) : (getArr (getRoom (planesUsed s r gb g w) r) a).wr = (getArr (getRoom s r) a).wr := by
  rw [planesUsed, getRoom_modRoom]
  exact modArrs_keeps (fun _ u => setPlane_wr u _ _) _ _ a

theorem entryTagged_arrays : (getRoom (entryTagged s r gb e tag) r).arrays = (getRoom s r).arrays := by
  rw [entryTagged, getRoom_modRoom]
  rfl

theorem tags_entryTagged : smGet 0 (getGang (getRoom (entryTagged s r gb e tag) r) gb).tags e = tag := by
  rw [entryTagged, getRoom_modRoom, getGang_setGang]
  exact smGet_smSet_same _ _ _ _

theorem rowNoted_adds (s : State) (r gb g e w w' tag : Nat) (ends : List Nat) :
    RoomAdds s r [] [] (entryTagged (planesUsed (endsWritten s r ends e w) r gb g w') r gb e tag) :=
  ((modArrs_adds s r _ _).still (modArrs_adds _ r _ _)).still (setGang_adds _ r gb _)

theorem rowIssued_adds (s : State) (r : Nat) (f : ArraySlot) (b g d : Nat) (ends planes xs scs : List Nat) : ∃ sample issued,
    RoomAdds s r [{ due := b + 4, ord := 1, issued := issued, port := .none, op := .row f planes xs scs sample, src := srcInput }] []
      (rowIssued s r f b g d ends planes xs scs) :=
  ⟨_, _, ((rowNoted_adds s r _ _ _ _ _ _ _).still (rowSampled_adds _ r g)).trans (addActionOf_adds _ r _ _ _ _ _)⟩

theorem wr_rowIssued {b d : Nat} {ends planes xs scs : List Nat} {a : Nat} (hnodup : ends.Nodup) (ha : a ∈ ends) :
    smGet 0 (getArr (getRoom (rowIssued s r f b g d ends planes xs scs) r) a).wr f.e.toNat =
      max (smGet 0 (getArr (getRoom s r) a).wr f.e.toNat) (b + 4 + wDepth d) := by
  unfold rowIssued
  dsimp only
  rw [getArr_congr ((addActionOf_arrays ..).trans ((rowSampled_arrays _ _ _).trans entryTagged_arrays)), wr_planesUsed, wr_endsWritten hnodup ha]

theorem tags_rowIssued {b d : Nat} {ends planes xs scs : List Nat} :
    smGet 0 (getGang (getRoom (rowIssued s r f b g d ends planes xs scs) r) f.gb.toNat).tags f.e.toNat =
      f.tp.toNat + 2 * b2n (decide (f.fmt.toNat = 6 ∨ f.fmt.toNat = 7)) := by
  unfold rowIssued
  dsimp only
  rw [getGang_congr ((addActionOf_gangs ..).trans (rowSampled_gangs _ _ _)), tags_entryTagged]

end

/-! ### AROW (R96, R98) -/

/-- The depth of a row's chains, the bytes of its values, and its scale bytes (R67, R98). -/
abbrev rowDepth (f : ArraySlot) (p k : Nat) : Nat := if f.tp.toNat = 0 then p else k
abbrev rowLen (f : ArraySlot) (d : Nat) : Nat := roundUp (valueBytes f.fmt.toNat (8 * d * (if f.fmt.toNat = 7 then 2 else 1))) 64
abbrev rowScaleLen (f : ArraySlot) (d : Nat) : Nat := if f.fmt.toNat = 4 ∨ f.fmt.toNat = 5 then ceilDiv (8 * d) (blockSize f.blk.toNat) else 0

/-- The state once a row's values at `aa` and its scale bytes at `asc` have been read. -/
def rowRead (s : State) (r gb gs aa n asc nsc : Nat) : State := scalesDone (readDone (gangUsed s r gb gs) r srcInput aa n) r gb asc nsc

section
variable {s : State} {r gb gs g p k aa n asc nsc : Nat} {f : ArraySlot}

theorem valuesRead_adds (s : State) (r gb gs aa n : Nat) :
    RoomAdds s r [] (bankUses s.beat srcInput aa n s.beat) (readDone (gangUsed s r gb gs) r srcInput aa n) :=
  (gangUsed_adds s r gb gs).read srcInput aa n

theorem valuesRead_held : (getGang (getRoom (readDone (gangUsed s r gb gs) r srcInput aa n) r) gb).held = (getGang (getRoom s r) gb).held := by
  rw [getGang_congr (readDone_gangs _ _ _ _ _), gangUsed_held]

theorem rowRead_arrays : (getRoom (rowRead s r gb gs aa n asc nsc) r).arrays = (getRoom s r).arrays := by
  rw [rowRead, scalesDone_arrays, readDone_arrays, gangUsed_arrays]

theorem rowRead_adds (s : State) (r gb gs aa n asc nsc : Nat) : ∃ us, RoomAdds s r [] us (rowRead s r gb gs aa n asc nsc) := by
  obtain ⟨us, scales, -⟩ := scalesDone_adds (readDone (gangUsed s r gb gs) r srcInput aa n) r gb asc nsc
  exact ⟨_, (valuesRead_adds s r gb gs aa n).take scales⟩

theorem rowHazard_clear {ends : List Nat} {b : Nat} (hb : b = s.beat)
    (h : ∀ a ∈ ends, ¬(f.cin = 1 ∧ s.beat + 4 ≤ smGet 0 (getArr (getRoom s r) a).wr f.e.toNat) ∧
      ¬((halfDrain (getArr (getRoom s r) a) (f.e.toNat / 256)).1 ≤ s.beat + 4 ∧ s.beat + 4 ≤ (halfDrain (getArr (getRoom s r) a) (f.e.toNat / 256)).2)) :
    ¬(ends.any fun a =>
      (decide (f.cin = 1) && decide (b + 4 ≤ smGet 0 (getArr (getRoom s r) a).wr f.e.toNat)) ||
        (decide ((halfDrain (getArr (getRoom s r) a) (f.e.toNat / 256)).1 ≤ b + 4) &&
          decide (b + 4 ≤ (halfDrain (getArr (getRoom s r) a) (f.e.toNat / 256)).2))) = true := by
  rw [hb, List.any_eq_true]
  rintro ⟨a, ha, hazard⟩
  obtain ⟨carry, drain⟩ := h a ha
  rw [Bool.or_eq_true, Bool.and_eq_true, Bool.and_eq_true] at hazard
  simp only [decide_eq_true_eq] at hazard
  exact hazard.elim carry drain

theorem arowBody_eq (hgang : GangFree s r f.gb.toNat f.gs.toNat f.gp.toNat g p k)
    (hhazard : ∀ a ∈ chainEnds f.gb.toNat p k f.tp.toNat,
      ¬(f.cin = 1 ∧ s.beat + 4 ≤ smGet 0 (getArr (getRoom s r) a).wr f.e.toNat) ∧
        ¬((halfDrain (getArr (getRoom s r) a) (f.e.toNat / 256)).1 ≤ s.beat + 4 ∧ s.beat + 4 ≤ (halfDrain (getArr (getRoom s r) a) (f.e.toNat / 256)).2))
    (hvalid : ∀ a ∈ arraysOf f.gb.toNat g, (activeOf s r a).valid = true)
    (haa : (aReg (getRoom s r) f.aa.toNat).toNat = aa) (hread : Readable s r aa (rowLen f (rowDepth f p k)))
    (hasc : (aReg (getRoom s r) f.asc.toNat).toNat = asc)
    (hscales : rowScaleLen f (rowDepth f p k) ≠ 0 → asc % 64 + rowScaleLen f (rowDepth f p k) ≤ 64 ∧
      (ScalesHeld s r f.gb.toNat asc ∨
        (Readable s r (asc - asc % 64) 64 ∧ ∀ b ∈ banksOf (asc - asc % 64) 64, b ∉ banksOf aa (rowLen f (rowDepth f p k))))) :
    let d := rowDepth f p k
    let nsc := rowScaleLen f d
    arowBody s r f (getRoom s r) = .ok (postInc (postInc
      (rowIssued (rowRead s r f.gb.toNat f.gs.toNat aa (rowLen f d) asc nsc) r f s.beat g d (chainEnds f.gb.toNat p k f.tp.toNat)
        ((arraysOf f.gb.toNat g).map (fun a => (getArr (getRoom s r) a).active)) (operandCodes f.fmt.toNat (storeRead s r aa (rowLen f d)))
        (if nsc = 0 then [] else scaleBytes s r f.gb.toNat asc nsc))
      r f.aa.toNat (64 * f.ia.toNat)) r f.asc.toNat nsc) := by
  intro d nsc
  have gang := gangUsed_adds s r f.gb.toNat f.gs.toNat
  have read := readNow_ok (arr := f.gb.toNat) (src := srcInput) (gang.readable hread (by simp))
  rw [gang.frame.storeRead] at read
  have scales := (valuesRead_adds s r f.gb.toNat f.gs.toNat aa (rowLen f d)).scales_eq valuesRead_held fun hn =>
    (hscales hn).imp_right (Or.imp_right (And.imp_right bankUses_apart))
  have valid : ¬((arraysOf f.gb.toNat g).any fun a => !(activeOf s r a).valid) = true := by
    rw [List.any_eq_true]
    rintro ⟨a, ha, bad⟩
    rw [hvalid a ha] at bad
    cases bad
  subst haa hasc
  rw [← gangUsed_beat s r f.gb.toNat f.gs.toNat]
  refine (bind_ok (useGang_ok hgang)).trans ((if_neg (rowHazard_clear gang.frame.beat hhazard)).trans ((if_neg valid).trans
    ((bind_ok read).trans ((bind_ok scales).trans ?_))))
  unfold rowIssued rowSampled
  rfl

end

end Sys2Proof.Proofs
end

section
/-!
Rows in mode O (03_rooms_and_arrays.md).
-/
namespace Sys2Proof.Proofs
open Sys2Proof.Machine Sys2Proof.Laws

/-! ### AOROW (R73, R74, R100) -/

/-- The bytes of an outer row's two operands, and its scale bytes. -/
abbrev inputLen (f : ArraySlot) : Nat := roundUp (valueBytes f.fmt.toNat 8) 64
abbrev gradLen (f : ArraySlot) (g : Nat) : Nat := roundUp (valueBytes f.fmt.toNat (8 * g)) 64
abbrev outerScaleLen (f : ArraySlot) (g : Nat) : Nat := if f.fmt.toNat = 4 ∨ f.fmt.toNat = 5 then 1 + g else 0

/-- The state once both operands, at `aa` and `ab`, and the scale bytes at `asc` have been read. -/
def operandsRead (s : State) (r gb gs aa nx ab ny : Nat) : State := readDone (readDone (gangUsed s r gb gs) r srcInput aa nx) r srcInput ab ny
def outerRead (s : State) (r gb gs aa nx ab ny asc nsc : Nat) : State := scalesDone (operandsRead s r gb gs aa nx ab ny) r gb asc nsc

/-- What `aorowBody` does in beat `b` with what it has read: the row acts in `b + 4`, and its plane is in use until its last cell, or its drain, is over. -/
def outerIssued (s : State) (r : Nat) (f : ArraySlot) (b g : Nat) (xs ys scs : List Nat) : State :=
  modRoom (addActionOf s r b srcInput (b + 4) 1 (.orow f xs ys scs)) r (fun q => modArrs q (arraysOf f.gb.toNat g) (fun _ u =>
    let p := planeOf u f.tp.toNat
    setPlane u f.tp.toNat { p with
      lastDrain := if f.fin = 1 then b + 4 + 23 else p.lastDrain, free := max p.free (if f.fin = 1 then b + 4 + 24 else b + 4 + 16) }))

/-- The accesses of the drain that ends a pass, where it goes to the room's store (R74). -/
def passAccesses (f : ArraySlot) (g into b : Nat) : List Access :=
  if f.fin = 1 ∧ f.dst = 0 then rowAccesses srcDrain into 1024 (roundUp (32 * g) 64) (b + 22) 8 else []

/-- What the end of a pass makes pending. -/
def passMicro (s : State) (f : ArraySlot) (into b : Nat) : List Micro :=
  if f.fin = 1 then [{ due := b + 4 + 16, ord := 1, issued := s.beat, port := .none, op := .odrain f into }] else []

/-- The state once a row that ends its pass has the drain pending, and the drain's banks taken. -/
def passEnded (s : State) (r : Nat) (f : ArraySlot) (g into b : Nat) : State :=
  taken (if f.fin = 1 then addAction s r (b + 4 + 16) 1 (.odrain f into) else s) r (passAccesses f g into b)

section
variable {s t : State} {r gb gs g p k aa nx ab ny asc nsc into b : Nat} {f : ArraySlot} {ms : List Micro} {us : List BankUse}

theorem operandsRead_adds (s : State) (r gb gs aa nx ab ny : Nat) :
    RoomAdds s r [] (bankUses s.beat srcInput aa nx s.beat ++ bankUses s.beat srcInput ab ny s.beat) (operandsRead s r gb gs aa nx ab ny) :=
  (valuesRead_adds s r gb gs aa nx).read srcInput ab ny

theorem operandsRead_held : (getGang (getRoom (operandsRead s r gb gs aa nx ab ny) r) gb).held = (getGang (getRoom s r) gb).held := by
  rw [operandsRead, getGang_congr (readDone_gangs _ _ _ _ _), valuesRead_held]

/-- All that an outer row reads takes banks of its issue beat. -/
theorem outerRead_adds (s : State) (r gb gs aa nx ab ny asc nsc : Nat) :
    ∃ us, RoomAdds s r [] us (outerRead s r gb gs aa nx ab ny asc nsc) ∧ ∀ u ∈ us, u.beat = s.beat := by
  have operands := operandsRead_adds s r gb gs aa nx ab ny
  obtain ⟨us, scales, now⟩ := scalesDone_adds (operandsRead s r gb gs aa nx ab ny) r gb asc nsc
  rw [operands.frame.beat] at now
  refine ⟨_, operands.take scales, fun u hu => ?_⟩
  simp only [List.mem_append, mem_bankUses] at hu
  rcases hu with (⟨_, -, rfl⟩ | ⟨_, -, rfl⟩) | hscales
  · rfl
  · rfl
  · exact now u hscales

theorem outerIssued_adds (s : State) (r : Nat) (f : ArraySlot) (b g : Nat) (xs ys scs : List Nat) :
    RoomAdds s r [{ due := b + 4, ord := 1, issued := b, port := .none, op := .orow f xs ys scs, src := srcInput }] [] (outerIssued s r f b g xs ys scs) :=
  (addActionOf_adds s r _ _ _ _ _).still (modArrs_adds _ r _ _)

theorem passEnded_adds (s : State) (r : Nat) (f : ArraySlot) (g into b : Nat) :
    RoomAdds s r (passMicro s f into b) (accessUses s.beat (passAccesses f g into b)) (passEnded s r f g into b) := by
  refine RoomAdds.taken (us := []) ?_ (passAccesses f g into b)
  unfold passMicro
  split
  · exact addActionOf_adds s r _ _ _ _ _
  · exact RoomAdds.refl s r

/-- The rows of the drain are claimed where they may be. -/
theorem passEnd_ok {arr : Nat}
    (h : f.fin = 1 → f.dst = 0 → ∀ i, i < 8 → Claimable s r (into + 1024 * i) (roundUp (32 * g) 64) (b + 22 + i)) :
    (if f.fin = 1 then
      let t := addAction s r (b + 4 + 16) 1 (.odrain f into)
      if f.dst = 0 then claimRows t r arr srcDrain into 1024 (roundUp (32 * g) 64) (b + 22) 8 else .ok t
    else .ok s) = .ok (passEnded s r f g into b) := by
  unfold passEnded passAccesses
  by_cases hfin : f.fin = 1
  · by_cases hdst : f.dst = 0
    · simp only [hfin, hdst, and_self, if_true]
      refine claimRows_ok fun i hi => (addActionOf_adds s r _ _ _ _ _).claimable ?_ (by simp)
      rw [Nat.mul_comm]
      exact h hfin hdst i hi
    · simp only [hfin, hdst, and_false, if_true, if_false, taken_nil]
  · simp only [hfin, false_and, if_false, taken_nil]

/-- The drain that ends a pass is no result for a register, so nothing is where the row is none. -/
theorem microReg_of_mem_outer {x m : Micro} (hx : microReg x = none) (hm : m ∈ [x] ++ passMicro s f into b) : microReg m = none := by
  rcases List.mem_append.mp hm with row | drain
  · rw [List.mem_singleton.mp row, hx]
  · unfold passMicro at drain
    split at drain
    · rw [List.mem_singleton.mp drain]
      rfl
    · cases drain

theorem exists_passMicro (hfin : f.fin = 1) : ∃ m ∈ passMicro s f into b, m.due = b + 4 + 16 ∧ m.op = .odrain f into := by
  rw [passMicro, if_pos hfin]
  exact ⟨_, List.mem_singleton_self _, rfl, rfl⟩

theorem row_mem_passAccesses (hfin : f.fin = 1) (hdst : f.dst = 0) {i : Nat} (hi : i < 8) :
    { src := srcDrain + i, off := into + 1024 * i, len := roundUp (32 * g) 64, beat := b + 22 + i } ∈ passAccesses f g into b := by
  rw [passAccesses, if_pos ⟨hfin, hdst⟩, Nat.mul_comm 1024]
  exact mem_rowAccesses.mpr ⟨i, hi, rfl⟩

theorem aorowBody_eq (hgang : GangFree s r f.gb.toNat f.gs.toNat 0 g p k)
    (hdrained : ∀ a ∈ arraysOf f.gb.toNat g, (planeOf (getArr (getRoom s r) a) f.tp.toNat).lastDrain < s.beat + 4)
    (haa : (aReg (getRoom s r) f.aa.toNat).toNat = aa) (hx : Readable s r aa (inputLen f))
    (hab : (aReg (getRoom s r) f.ab.toNat).toNat = ab) (hy : Readable s r ab (gradLen f g)) (hxy : ∀ b ∈ banksOf ab (gradLen f g), b ∉ banksOf aa (inputLen f))
    (hasc : (aReg (getRoom s r) f.asc.toNat).toNat = asc)
    (hscales : outerScaleLen f g ≠ 0 → asc % 64 + outerScaleLen f g ≤ 64 ∧ (ScalesHeld s r f.gb.toNat asc ∨
      (Readable s r (asc - asc % 64) 64 ∧ (∀ b ∈ banksOf (asc - asc % 64) 64, b ∉ banksOf aa (inputLen f)) ∧
        ∀ b ∈ banksOf (asc - asc % 64) 64, b ∉ banksOf ab (gradLen f g))))
    (hinto : (aReg (getRoom s r) f.aa.toNat + BitVec.ofNat 64 (64 * f.ia.toNat)).toNat = into)
    (hrows : f.fin = 1 → f.dst = 0 → ∀ i, i < 8 → Claimable s r (into + 1024 * i) (roundUp (32 * g) 64) (s.beat + 22 + i)) :
    let nsc := outerScaleLen f g
    aorowBody s r f (getRoom s r) = .ok (postInc (postInc (postInc
      (passEnded
        (outerIssued (outerRead s r f.gb.toNat f.gs.toNat aa (inputLen f) ab (gradLen f g) asc nsc) r f s.beat g
          (operandCodes f.fmt.toNat (storeRead s r aa (inputLen f))) (operandCodes f.fmt.toNat (storeRead s r ab (gradLen f g)))
          (if nsc = 0 then [] else scaleBytes s r f.gb.toNat asc nsc))
        r f g into s.beat)
      r f.aa.toNat (64 * f.ia.toNat)) r f.ab.toNat (64 * f.ib.toNat)) r f.asc.toNat nsc) := by
  intro nsc
  have gang := gangUsed_adds s r f.gb.toNat f.gs.toNat
  have inputs := valuesRead_adds s r f.gb.toNat f.gs.toNat aa (inputLen f)
  have operands := operandsRead_adds s r f.gb.toNat f.gs.toNat aa (inputLen f) ab (gradLen f g)
  have readX := gang.readNow_eq (arr := f.gb.toNat) (src := srcInput) hx (by simp)
  have readY := inputs.readNow_eq (arr := f.gb.toNat) (src := srcInput) hy fun x hx' same => bankUses_apart hxy x hx' same.2
  have scales := operands.scales_eq operandsRead_held fun hn => (hscales hn).imp_right (Or.imp_right fun ⟨hline, apartX, apartY⟩ =>
    ⟨hline, fun x hx' => (List.mem_append.mp hx').elim (bankUses_apart apartX x) (bankUses_apart apartY x)⟩)
  obtain ⟨us, read, now⟩ := outerRead_adds s r f.gb.toNat f.gs.toNat aa (inputLen f) ab (gradLen f g) asc nsc
  have passEnd (xs ys scs) := passEnd_ok (arr := f.gb.toNat) (b := s.beat) fun hfin hdst i hi =>
    (read.pend (outerIssued_adds _ r f s.beat g xs ys scs)).claimable (hrows hfin hdst i hi) fun u hu same => by
      have := now u hu
      omega
  have drained : ¬((arraysOf f.gb.toNat g).any fun a => decide (s.beat + 4 ≤ (planeOf (getArr (getRoom s r) a) f.tp.toNat).lastDrain)) = true := by
    rw [List.any_eq_true]
    rintro ⟨a, ha, running⟩
    exact absurd (hdrained a ha) (Nat.not_lt.mpr (of_decide_eq_true running))
  subst haa hab hasc hinto
  exact (bind_ok (useGang_ok hgang)).trans ((if_neg drained).trans ((bind_ok readX).trans ((bind_ok readY).trans
    ((bind_ok scales).trans (bind_ok (passEnd _ _ _))))))

end

end Sys2Proof.Proofs
end

section
/-!
Drains of accumulator entries (03_rooms_and_arrays.md).
-/
namespace Sys2Proof.Proofs
open Sys2Proof.Machine Sys2Proof.Laws

/-! ### ADRAIN (R72, R99) -/

/-- The token-scale lines that an integer drain reads, one in 16 beats. -/
def scaleAccesses (asc b lines : Nat) : List Access :=
  (upTo lines).map fun j => { src := srcScales + j, off := asc + 64 * j, len := 64, beat := b + 16 * j }

/-- The banks of a drain's rows and of its token-scale lines. -/
def drainAccesses (base sd cnt asc b lines : Nat) : List Access := rowAccesses srcDrain base sd sd (b + 6) (cnt + 1) ++ scaleAccesses asc b lines

/-- The reads of the token-scale lines after the first. -/
def scaleMicro (gb asc b lines : Nat) : List Micro :=
  (upTo (lines - 1)).map fun j =>
    { due := b + 16 * (j + 1), ord := 0, issued := b, port := .none, op := .drainScales gb (asc + 64 * (j + 1)) 64 b, src := srcScales + (j + 1) }

/-- The conversions of a drain's entries. -/
def drainMicro (f : ArraySlot) (tag base sd b : Nat) (xv : Word) : List Micro :=
  (upTo (f.cnt.toNat + 1)).map fun i =>
    { due := b + 4 + i, ord := 1, issued := b, port := .none, op := .drainRead f i (tag % 2) (tag / 2) base sd xv b, src := srcDrain + i }

/-- The token-scale lines of a drain: the first is read as it issues, and the others fall due. -/
def scalesIssued (s : State) (r gb asc b lines : Nat) : State :=
  (upTo (lines - 1)).foldl (fun s j => addActionOf s r b (srcScales + (j + 1)) (b + 16 * (j + 1)) 0 (.drainScales gb (asc + 64 * (j + 1)) 64 b))
    (if lines = 0 then s else drainScalesAct s r gb asc 64 b)

/-- The half of the entries and the gang are draining until the last entry is read. -/
def drainNoted (s : State) (r : Nat) (f : ArraySlot) (ends : List Nat) (c : Nat) : State :=
  modRoom s r (fun q => modArrs (setGang q f.gb.toNat { getGang q f.gb.toNat with drain := c + f.cnt.toNat }) ends (fun _ u =>
    if f.e.toNat / 256 = 0 then { u with dr0 := (c, c + f.cnt.toNat) } else { u with dr1 := (c, c + f.cnt.toNat) }))

/-- What `adrainBody` does in beat `b` once it has claimed its banks. -/
def drainIssued (s : State) (r : Nat) (f : ArraySlot) (ends : List Nat) (tag base sd asc lines b : Nat) (xv : Word) : State :=
  (upTo (f.cnt.toNat + 1)).foldl (fun s i => addActionOf s r b (srcDrain + i) (b + 4 + i) 1 (.drainRead f i (tag % 2) (tag / 2) base sd xv b))
    (drainNoted (scalesIssued s r f.gb.toNat asc b lines) r f ends (b + 4))

section
variable {s t : State} {r gb g p k base sd cnt asc b lines tag : Nat} {f : ArraySlot}

theorem drainScalesAct_adds {off n : Nat} (h : storeBad s r off n = false) : RoomAdds s r [] [] (drainScalesAct s r gb off n b) := by
  rw [drainScalesAct, storeFetch_good h]
  exact (countWeak_adds s r _ _).still (modRoom_adds _ r (fun _ => rfl) (fun _ => rfl) (fun _ => rfl))

theorem scalesIssued_adds (h : lines ≠ 0 → storeBad s r asc 64 = false) : RoomAdds s r (scaleMicro gb asc b lines) [] (scalesIssued s r gb asc b lines) := by
  have first : RoomAdds s r [] [] (if lines = 0 then s else drainScalesAct s r gb asc 64 b) := by
    split
    · exact RoomAdds.refl s r
    · exact drainScalesAct_adds (h ‹_›)
  exact first.trans (foldl_addActionOf_adds b (fun j => srcScales + (j + 1)) (fun j => b + 16 * (j + 1)) (fun _ => 0)
    (fun j => .drainScales gb (asc + 64 * (j + 1)) 64 b) _ _ r)

theorem drainNoted_adds (s : State) (r : Nat) (f : ArraySlot) (ends : List Nat) (c : Nat) : RoomAdds s r [] [] (drainNoted s r f ends c) :=
  modRoom_adds s r (fun q => by rw [modArrs_eq]; rfl) (fun q => by rw [modArrs_eq]; rfl) (fun q => by rw [modArrs_eq]; rfl)

theorem drainIssued_adds {ends : List Nat} {xv : Word} (h : lines ≠ 0 → storeBad s r asc 64 = false) :
    RoomAdds s r (scaleMicro f.gb.toNat asc b lines ++ drainMicro f tag base sd b xv) [] (drainIssued s r f ends tag base sd asc lines b xv) :=
  ((scalesIssued_adds h).still (drainNoted_adds _ r f ends _)).trans (foldl_addActionOf_adds b (fun i => srcDrain + i) (fun i => b + 4 + i) (fun _ => 1)
    (fun i => .drainRead f i (tag % 2) (tag / 2) base sd xv b) _ _ r)

theorem row_mem_drainAccesses {i : Nat} (hi : i ≤ cnt) :
    { src := srcDrain + i, off := base + i * sd, len := sd, beat := b + 6 + i } ∈ drainAccesses base sd cnt asc b lines :=
  List.mem_append_left _ (mem_rowAccesses.mpr ⟨i, Nat.lt_succ_of_le hi, rfl⟩)

theorem line_mem_drainAccesses {j : Nat} (hj : j < lines) :
    { src := srcScales + j, off := asc + 64 * j, len := 64, beat := b + 16 * j } ∈ drainAccesses base sd cnt asc b lines :=
  List.mem_append_right _ (List.mem_map_of_mem (mem_upTo.mpr hj))

theorem exists_drainMicro {xv : Word} {i : Nat} (hi : i ≤ f.cnt.toNat) :
    ∃ m ∈ drainMicro f tag base sd b xv, m.due = b + 4 + i ∧ m.op = .drainRead f i (tag % 2) (tag / 2) base sd xv b :=
  ⟨_, List.mem_map_of_mem (mem_upTo.mpr (Nat.lt_succ_of_le hi)), rfl, rfl⟩

theorem exists_scaleMicro {j : Nat} (h1 : 1 ≤ j) (hj : j < lines) :
    ∃ m ∈ scaleMicro gb asc b lines, m.due = b + 16 * j ∧ m.op = .drainScales gb (asc + 64 * j) 64 b := by
  obtain ⟨i, rfl⟩ := Nat.exists_eq_add_of_le' h1
  exact ⟨_, List.mem_map_of_mem (mem_upTo.mpr (by omega)), rfl, rfl⟩

/-- A drain's actions are no results for registers. -/
theorem microReg_of_mem_drain {xv : Word} {m : Micro} (hm : m ∈ scaleMicro gb asc b lines ++ drainMicro f tag base sd b xv) : microReg m = none := by
  rcases List.mem_append.mp hm with scale | entry
  · obtain ⟨j, -, rfl⟩ := List.mem_map.mp scale
    rfl
  · obtain ⟨i, -, rfl⟩ := List.mem_map.mp entry
    rfl

/-- The lines of token scales have beats of their own, and are claimed after the rows where each could be before and meets no row of its beat. -/
theorem scaleClaims_ok {arr : Nat} (h : ∀ j, j < lines → Claimable s r (asc + 64 * j) 64 (b + 16 * j) ∧
      ∀ i, i ≤ cnt → 6 + i = 16 * j → ∀ x ∈ banksOf (asc + 64 * j) 64, x ∉ banksOf (base + i * sd) sd) :
    (upTo lines).foldl (fun (o : SlotRes) j => o.bind (fun t => claim t r arr (srcScales + j) (asc + 64 * j) 64 (b + 16 * j)))
      (.ok (taken s r (rowAccesses srcDrain base sd sd (b + 6) (cnt + 1)))) = .ok (taken s r (drainAccesses base sd cnt asc b lines)) := by
  have rows := (RoomAdds.refl s r).taken (rowAccesses srcDrain base sd sd (b + 6) (cnt + 1))
  have beats : (scaleAccesses asc b lines).Pairwise (fun x y => x.beat ≠ y.beat) :=
    List.pairwise_map.mpr ((nodup_upTo lines).imp fun hne same => hne (Nat.eq_of_mul_eq_mul_left (Nat.succ_pos 15) (Nat.add_left_cancel same)))
  have claims := foldl_claim_ok (s := taken s r (rowAccesses srcDrain base sd sd (b + 6) (cnt + 1))) (r := r) (arr := arr) beats fun x hx => by
    obtain ⟨j, hj, rfl⟩ := List.mem_map.mp hx
    obtain ⟨free, apart⟩ := h j (mem_upTo.mp hj)
    refine rows.claimable free fun u hu same => ?_
    obtain ⟨y, hy, bank, hbank, rfl⟩ := mem_accessUses.mp hu
    obtain ⟨i, hi, rfl⟩ := mem_rowAccesses.mp hy
    obtain ⟨hbeat, hline⟩ := same
    exact apart i (Nat.le_of_lt_succ hi) (by dsimp only at hbeat; omega) bank hline hbank
  rw [scaleAccesses, List.foldl_map] at claims
  rw [drainAccesses, taken_append]
  exact claims

theorem adrainBody_eq {ends : List Nat} (hgang : GangFree s r f.gb.toNat f.gs.toNat f.gp.toNat g p k)
    (hhalf : (f.e.toNat + f.cnt.toNat) / 256 = f.e.toNat / 256) (hdrain : (getGang (getRoom s r) f.gb.toNat).drain < s.beat + 4)
    (htag : smGet 0 (getGang (getRoom s r) f.gb.toNat).tags f.e.toNat = tag)
    (htags : ∀ i, i ≤ f.cnt.toNat → smGet 0 (getGang (getRoom s r) f.gb.toNat).tags (f.e.toNat + i) = tag)
    (hends : chainEnds f.gb.toNat p k (tag % 2) = ends)
    (hwritten : ∀ a ∈ ends, halfWrite (getArr (getRoom s r) a) (f.e.toNat / 256) < s.beat + 4)
    (hsd : roundUp (8 * ends.length * outBytes f.ofmt.toNat) 64 = sd) (hbase : (aReg (getRoom s r) f.aa.toNat).toNat = base)
    (hrows : ∀ i, i ≤ f.cnt.toNat → Claimable s r (base + i * sd) sd (s.beat + 6 + i))
    (hasc : (aReg (getRoom s r) f.asc.toNat).toNat = asc) (hlines : (if tag / 2 = 1 then ceilDiv (4 * (f.cnt.toNat + 1)) 64 else 0) = lines)
    (hscales : ∀ j, j < lines → Claimable s r (asc + 64 * j) 64 (s.beat + 16 * j) ∧
      ∀ i, i ≤ f.cnt.toNat → 6 + i = 16 * j → ∀ x ∈ banksOf (asc + 64 * j) 64, x ∉ banksOf (base + i * sd) sd) :
    adrainBody s r f (getRoom s r) = .ok (postInc
      (drainIssued (taken (gangUsed s r f.gb.toNat f.gs.toNat) r (drainAccesses base sd f.cnt.toNat asc s.beat lines)) r f ends tag base sd asc lines s.beat
        (xReg (getRoom s r) f.xs.toNat))
      r f.aa.toNat (64 * f.ia.toNat)) := by
  have gang := gangUsed_adds s r f.gb.toNat f.gs.toNat
  have rows := claimRows_ok (s := gangUsed s r f.gb.toNat f.gs.toNat) (arr := f.gb.toNat) (src := srcDrain) (k := f.cnt.toNat + 1)
    fun i hi => gang.claimable (hrows i (Nat.le_of_lt_succ hi)) (by simp)
  have scales := scaleClaims_ok (s := gangUsed s r f.gb.toNat f.gs.toNat) (arr := f.gb.toNat) fun j hj =>
    (hscales j hj).imp_left fun free => gang.claimable free (by simp)
  have inHalf : ¬((f.e.toNat + f.cnt.toNat) / 256 ≠ f.e.toNat / 256 ∨
      (gangUsed s r f.gb.toNat f.gs.toNat).beat + 4 ≤ (getGang (getRoom s r) f.gb.toNat).drain) := by
    rw [gangUsed_beat]
    omega
  have oneTag : ¬((upTo (f.cnt.toNat + 1)).any fun i => decide (smGet 0 (getGang (getRoom s r) f.gb.toNat).tags (f.e.toNat + i) ≠
      smGet 0 (getGang (getRoom s r) f.gb.toNat).tags f.e.toNat)) = true := by
    rw [List.any_eq_true]
    rintro ⟨i, hi, other⟩
    exact of_decide_eq_true other ((htags i (Nat.le_of_lt_succ (mem_upTo.mp hi))).trans htag.symm)
  have written : ¬(ends.any fun a =>
      decide ((gangUsed s r f.gb.toNat f.gs.toNat).beat + 4 ≤ halfWrite (getArr (getRoom s r) a) (f.e.toNat / 256))) = true := by
    rw [gangUsed_beat, List.any_eq_true]
    rintro ⟨a, ha, writing⟩
    exact absurd (hwritten a ha) (Nat.not_lt.mpr (of_decide_eq_true writing))
  rw [← gangUsed_beat s r f.gb.toNat f.gs.toNat] at rows scales ⊢
  subst hlines hsd hends htag hbase hasc
  exact (bind_ok (useGang_ok hgang)).trans ((if_neg inHalf).trans ((if_neg oneTag).trans ((if_neg written).trans ((bind_ok rows).trans (bind_ok scales)))))

end

end Sys2Proof.Proofs
end

section
/-!
The statement on rows and drains of the array slot (03_rooms_and_arrays.md).
-/
namespace Sys2Proof.Proofs
open Sys2Proof.Machine Sys2Proof.Laws

section
variable {s t : State} {r : Nat} {ms : List Micro} {us : List BankUse}

/-- The arrays and the gangs are as they were before a post-increment. -/
theorem posted_arrays (s : State) (r a n : Nat) : (getRoom (posted s r a n) r).arrays = (getRoom s r).arrays := by rw [getRoom_posted]
theorem posted_gangs (s : State) (r a n : Nat) : (getRoom (posted s r a n) r).gangs = (getRoom s r).gangs := by rw [getRoom_posted]

theorem mem_micro_posted {m : Micro} (a n : Nat) (hm : m ∈ (getRoom s r).micro) : m ∈ (getRoom (posted s r a n) r).micro := by
  rw [getRoom_posted]
  exact List.mem_append_left _ hm

/-- Post-increments of one, two and three registers, where nothing else that is newly pending is for a register (R94, R95). -/
theorem RoomAdds.postInc_one (h : RoomAdds s r ms us t) (hms : ∀ m ∈ ms, microReg m = none) {a n : Nat} (ha : PostFree s r a n) :
    postInc t r a n = posted t r a n := h.postInc_eq ha fun _ m hm => by simp [hms m hm]

theorem RoomAdds.postInc_two (h : RoomAdds s r ms us t) (hms : ∀ m ∈ ms, microReg m = none) {a₁ n₁ a₂ n₂ : Nat} (h₁ : PostFree s r a₁ n₁)
    (h₂ : PostFree s r a₂ n₂) (hne : n₁ ≠ 0 → n₂ ≠ 0 → a₁ ≠ a₂) : postInc (postInc t r a₁ n₁) r a₂ n₂ = posted (posted t r a₁ n₁) r a₂ n₂ := by
  rw [h.postInc_one hms h₁]
  exact (h.post a₁ n₁).postInc_eq h₂ fun hn₂ m hm => (List.mem_append.mp hm).elim (fun act => by simp [hms m act])
    (postMicro_other (fun hn₁ => hne hn₁ hn₂) m)

theorem RoomAdds.postInc_three (h : RoomAdds s r ms us t) (hms : ∀ m ∈ ms, microReg m = none) {a₁ n₁ a₂ n₂ a₃ n₃ : Nat} (h₁ : PostFree s r a₁ n₁)
    (h₂ : PostFree s r a₂ n₂) (h₃ : PostFree s r a₃ n₃) (h₁₂ : n₁ ≠ 0 → n₂ ≠ 0 → a₁ ≠ a₂) (h₁₃ : n₁ ≠ 0 → n₃ ≠ 0 → a₁ ≠ a₃)
    (h₂₃ : n₂ ≠ 0 → n₃ ≠ 0 → a₂ ≠ a₃) :
    postInc (postInc (postInc t r a₁ n₁) r a₂ n₂) r a₃ n₃ = posted (posted (posted t r a₁ n₁) r a₂ n₂) r a₃ n₃ := by
  rw [h.postInc_two hms h₁ h₂ h₁₂]
  refine ((h.post a₁ n₁).post a₂ n₂).postInc_eq h₃ fun hn₃ m hm => ?_
  simp only [List.mem_append] at hm
  rcases hm with (act | first) | second
  · simp [hms m act]
  · exact postMicro_other (fun hn₁ => h₁₃ hn₁ hn₃) m first
  · exact postMicro_other (fun hn₂ => h₂₃ hn₂ hn₃) m second

end

/-- Settles O12: each operation claims and reads what it needs, issues its row or its entries, and increments registers that nothing else reaches. -/
theorem arrayRowsComplete : Obligations.ArrayRowsComplete := by
  intro s r f g p k ha q gb tp fmt e h c aa ab asc line postedTo
  refine ⟨fun hgang => ⟨?row, ?drain⟩, fun hgang => ?outer⟩
  case row =>
    intro hlegal d n ends nsc hhazard hvalid hread hscales hpostA hpostSc hne
    have body := arowBody_eq hgang hhazard hvalid rfl hread rfl hscales
    obtain ⟨us, read⟩ := rowRead_adds s r gb f.gs.toNat aa n asc nsc
    obtain ⟨sample, issued, row⟩ := rowIssued_adds (rowRead s r gb f.gs.toNat aa n asc nsc) r f s.beat g d ends
      ((arraysOf gb g).map (fun a => (getArr q a).active)) (operandCodes fmt (storeRead s r aa n)) (if nsc = 0 then [] else scaleBytes s r gb asc nsc)
    have adds := read.pend row
    rw [List.nil_append] at adds
    have posts := adds.postInc_two (by simp [microReg]) hpostA hpostSc fun hia hnsc => BitVec.toNat_ne_iff_ne.mpr (hne (lines_ne_zero.mp hia) hnsc)
    have all := (adds.post f.aa.toNat (64 * f.ia.toNat)).post f.asc.toNat nsc
    have pending {m : Micro} (hm) := mem_micro_posted f.asc.toNat nsc (mem_micro_posted f.aa.toNat (64 * f.ia.toNat) (adds.mem_micro (m := m) hm))
    have hk : 0 < k := by
      obtain ⟨-, -, rfl⟩ := gangShape_some hgang.1
      exact Nat.two_pow_pos _
    refine ⟨_, slot_completes rfl ha hlegal (body.trans (congrArg Except.ok posts)), all.frame.arrayFrame,
      ⟨_, pending (List.mem_singleton_self _), rfl, rfl, sample, rfl⟩, fun a haEnd => ?_, ?_,
      all.exists_post (fun m hm => by simp [hm]), all.exists_post fun m hm => by simp [hm]⟩
    · rw [getArr_congr ((posted_arrays ..).trans (posted_arrays ..)), wr_rowIssued (nodup_chainEnds gb p tp hk) haEnd, getArr_congr rowRead_arrays]
    · rw [getGang_congr ((posted_gangs ..).trans (posted_gangs ..)), tags_rowIssued]
  case drain =>
    intro hlegal gg tag ends sd lines hhalf hdrain htags hwritten hrows hscales hgood hpost
    have body := adrainBody_eq hgang hhalf hdrain rfl htags rfl hwritten rfl rfl hrows rfl rfl hscales
    have took := (gangUsed_adds s r gb f.gs.toNat).taken (drainAccesses aa sd f.cnt.toNat asc s.beat lines)
    have adds := took.pend (drainIssued_adds (f := f) (ends := ends) (tag := tag) (base := aa) (sd := sd) (b := s.beat) (xv := xReg q f.xs.toNat)
      fun hl => (took.frame.storeBad _ _).trans (hgood hl))
    rw [List.nil_append, List.nil_append] at adds
    have post := adds.postInc_one (fun m => microReg_of_mem_drain) hpost
    have all := adds.post f.aa.toNat (64 * f.ia.toNat)
    have pending {m : Micro} (hm) := mem_micro_posted f.aa.toNat (64 * f.ia.toNat) (adds.mem_micro (m := m) hm)
    refine ⟨_, slot_completes rfl ha hlegal (body.trans (congrArg Except.ok post)), all.frame.arrayFrame, fun i hi => ?_,
      fun i hi => all.exists_bank (List.Subset.refl _) (row_mem_drainAccesses hi),
      fun j hj => all.exists_bank (List.Subset.refl _) (line_mem_drainAccesses hj), fun j h1 hj => ?_, all.exists_post fun m hm => by simp [hm]⟩
    · obtain ⟨m, hm, due, op⟩ := exists_drainMicro (f := f) (tag := tag) (base := aa) (sd := sd) (b := s.beat) (xv := xReg q f.xs.toNat) hi
      exact ⟨m, pending (List.mem_append_right _ hm), due, op⟩
    · obtain ⟨m, hm, due, op⟩ := exists_scaleMicro (gb := gb) (asc := asc) (b := s.beat) h1 hj
      exact ⟨m, pending (List.mem_append_left _ hm), due, op⟩
  case outer =>
    intro hlegal nx ny nsc into hdrained hx hy hxy hscales hrows hpostA hpostB hpostSc hAB hASc hBSc
    have body := aorowBody_eq hgang hdrained rfl hx rfl hy hxy rfl hscales rfl hrows
    obtain ⟨us, read, -⟩ := outerRead_adds s r gb f.gs.toNat aa nx ab ny asc nsc
    have row := read.pend (outerIssued_adds _ r f s.beat g (operandCodes fmt (storeRead s r aa nx)) (operandCodes fmt (storeRead s r ab ny))
      (if nsc = 0 then [] else scaleBytes s r gb asc nsc))
    have adds := row.trans (passEnded_adds _ r f g into s.beat)
    rw [List.nil_append] at adds
    have posts := adds.postInc_three (fun m => microReg_of_mem_outer rfl) hpostA hpostB hpostSc
      (fun hia hib => BitVec.toNat_ne_iff_ne.mpr (hAB (lines_ne_zero.mp hia) (lines_ne_zero.mp hib)))
      (fun hia hnsc => BitVec.toNat_ne_iff_ne.mpr (hASc (lines_ne_zero.mp hia) hnsc))
      (fun hib hnsc => BitVec.toNat_ne_iff_ne.mpr (hBSc (lines_ne_zero.mp hib) hnsc))
    have all := ((adds.post f.aa.toNat (64 * f.ia.toNat)).post f.ab.toNat (64 * f.ib.toNat)).post f.asc.toNat nsc
    have pending {m : Micro} (hm) := mem_micro_posted f.asc.toNat nsc (mem_micro_posted f.ab.toNat (64 * f.ib.toNat)
      (mem_micro_posted f.aa.toNat (64 * f.ia.toNat) (adds.mem_micro (m := m) hm)))
    refine ⟨_, slot_completes rfl ha hlegal (body.trans (congrArg Except.ok posts)), all.frame.arrayFrame,
      ⟨_, pending (List.mem_append_left _ (List.mem_singleton_self _)), rfl, rfl⟩, fun hfin => ?_,
      fun hfin hdst i hi => all.exists_bank (List.subset_append_right _ _) (row_mem_passAccesses hfin hdst hi),
      all.exists_post (fun m hm => by simp [hm]), all.exists_post (fun m hm => by simp [hm]), all.exists_post fun m hm => by simp [hm]⟩
    obtain ⟨m, hm, due, op⟩ := exists_passMicro hfin
    exact ⟨m, pending (List.mem_append_right _ hm), due, op⟩

end Sys2Proof.Proofs
end

section
/-!
The statements on the encoding of bundles (04_room_program.md).
-/
namespace Sys2Proof.Proofs
open Sys2Proof.Machine Sys2Proof.Laws

/-! ### A slot's word and its fields (Tables 4.3, 4.5, 4.7, 4.9) -/

section
variable (op : BitVec 8)

@[simp] theorem opcode_arrayWord (f : ArraySlot) : (arrayWord op f).extractLsb' 0 8 = op := BitVec.extractLsb'_append_eq_right
@[simp] theorem opcode_vectorWord (f : VectorSlot) : (vectorWord op f).extractLsb' 0 8 = op := BitVec.extractLsb'_append_eq_right
@[simp] theorem opcode_moveWord (f : MoveSlot) : (moveWord op f).extractLsb' 0 8 = op := BitVec.extractLsb'_append_eq_right
@[simp] theorem opcode_controlWord (f : ControlSlot) : (controlWord op f).extractLsb' 0 8 = op := BitVec.extractLsb'_append_eq_right

/- Each field passes over the fields below it (`extractLsb'_append_eq_of_le`) and over those above it (`extractLsb'_append_eq_of_add_le`). The widths stay sums
until then, since the sums are how the library's lemmas speak of an append. -/

@[simp] theorem arraySlotOf_arrayWord (f : ArraySlot) : arraySlotOf (arrayWord op f) = f := by
  simp (disch := omega) only [arraySlotOf, arrayWord, BitVec.extractLsb'_append_eq_of_add_le, BitVec.extractLsb'_append_eq_of_le, -Nat.reduceAdd]
  simp only [Nat.reduceSub, BitVec.extractLsb'_eq_self]

@[simp] theorem vectorSlotOf_vectorWord (f : VectorSlot) : vectorSlotOf (vectorWord op f) = f := by
  simp (disch := omega) only [vectorSlotOf, vectorWord, BitVec.extractLsb'_append_eq_of_add_le, BitVec.extractLsb'_append_eq_of_le, -Nat.reduceAdd]
  simp only [Nat.reduceSub, BitVec.extractLsb'_eq_self]

@[simp] theorem moveSlotOf_moveWord (f : MoveSlot) : moveSlotOf (moveWord op f) = f := by
  simp (disch := omega) only [moveSlotOf, moveWord, BitVec.extractLsb'_append_eq_of_add_le, BitVec.extractLsb'_append_eq_of_le, -Nat.reduceAdd]
  simp only [Nat.reduceSub, BitVec.extractLsb'_eq_self]

@[simp] theorem controlSlotOf_controlWord (f : ControlSlot) : controlSlotOf (controlWord op f) = f := by
  simp (disch := omega) only [controlSlotOf, controlWord, BitVec.extractLsb'_append_eq_of_add_le, BitVec.extractLsb'_append_eq_of_le, -Nat.reduceAdd]
  simp only [Nat.reduceSub, BitVec.extractLsb'_eq_self]

end

/- The fields of a word, put together, are the word: neighbours join to one field, and the last one is the whole. -/

section
variable {k : Nat}

theorem arrayWord_arraySlotOf {w : BitVec 80} (h : (w.extractLsb' 0 8).toNat = k) : arrayWord (BitVec.ofNat 8 k) (arraySlotOf w) = w := by
  rw [← h, BitVec.ofNat_toNat, BitVec.setWidth_eq]
  simp (disch := omega) only [arraySlotOf, arrayWord, BitVec.extractLsb'_append_extractLsb'_eq_extractLsb', -Nat.reduceAdd]
  exact BitVec.extractLsb'_eq_self

theorem vectorWord_vectorSlotOf {w : BitVec 64} (h : (w.extractLsb' 0 8).toNat = k) : vectorWord (BitVec.ofNat 8 k) (vectorSlotOf w) = w := by
  rw [← h, BitVec.ofNat_toNat, BitVec.setWidth_eq]
  simp (disch := omega) only [vectorSlotOf, vectorWord, BitVec.extractLsb'_append_extractLsb'_eq_extractLsb', -Nat.reduceAdd]
  exact BitVec.extractLsb'_eq_self

theorem moveWord_moveSlotOf {w : BitVec 72} (h : (w.extractLsb' 0 8).toNat = k) : moveWord (BitVec.ofNat 8 k) (moveSlotOf w) = w := by
  rw [← h, BitVec.ofNat_toNat, BitVec.setWidth_eq]
  simp (disch := omega) only [moveSlotOf, moveWord, BitVec.extractLsb'_append_extractLsb'_eq_extractLsb', -Nat.reduceAdd]
  exact BitVec.extractLsb'_eq_self

theorem controlWord_controlSlotOf {w : BitVec 40} (h : (w.extractLsb' 0 8).toNat = k) : controlWord (BitVec.ofNat 8 k) (controlSlotOf w) = w := by
  rw [← h, BitVec.ofNat_toNat, BitVec.setWidth_eq]
  simp (disch := omega) only [controlSlotOf, controlWord, BitVec.extractLsb'_append_extractLsb'_eq_extractLsb', -Nat.reduceAdd]
  exact BitVec.extractLsb'_eq_self

end

/-! ### The bundle's four slots (Table 4.1) -/

section
variable (wa : BitVec 80) (wv : BitVec 64) (wm : BitVec 72) (wc : BitVec 40)

theorem bundleArray_append : bundleArray (wc ++ wm ++ wv ++ wa) = wa := BitVec.extractLsb'_append_eq_right

theorem bundleVector_append : bundleVector (wc ++ wm ++ wv ++ wa) = wv := by
  simp (disch := omega) only [bundleVector, BitVec.extractLsb'_append_eq_of_add_le, BitVec.extractLsb'_append_eq_of_le, -Nat.reduceAdd]
  exact BitVec.extractLsb'_eq_self

theorem bundleMove_append : bundleMove (wc ++ wm ++ wv ++ wa) = wm := by
  simp (disch := omega) only [bundleMove, BitVec.extractLsb'_append_eq_of_add_le, BitVec.extractLsb'_append_eq_of_le, -Nat.reduceAdd]
  exact BitVec.extractLsb'_eq_self

theorem bundleControl_append : bundleControl (wc ++ wm ++ wv ++ wa) = wc := by
  simp (disch := omega) only [bundleControl, BitVec.extractLsb'_append_eq_of_le, -Nat.reduceAdd]
  exact BitVec.extractLsb'_eq_self

theorem append_slots (w : BitVec 256) : bundleControl w ++ bundleMove w ++ bundleVector w ++ bundleArray w = w := by
  simp (disch := omega) only [bundleControl, bundleMove, bundleVector, bundleArray, BitVec.extractLsb'_append_extractLsb'_eq_extractLsb', -Nat.reduceAdd]
  exact BitVec.extractLsb'_eq_self

end

/-! ### One slot: its decoder and its encoder agree -/

/-- The word of a slot that holds a command, or none. -/
def slotWord {n : Nat} (encode : Instr → Option (BitVec n)) (x : Option Instr) : Option (BitVec n) := x.elim (some 0) encode

/-- The command of a slot, if it holds one, is of room `r` and legal. -/
def InRoom (r : Nat) (x : Option Instr) : Prop := ∀ i ∈ x.toList, slotRoom i = some r

/-- A slot's decoder for room `r` reads what its encoder writes for that room's legal commands, and nothing else. -/
structure SlotCodec {n : Nat} (r : Nat) (encode : Instr → Option (BitVec n)) (cmd : BitVec n → Option (List Instr)) : Prop where
  decode : ∀ {x w}, slotWord encode x = some w → InRoom r x → cmd w = some x.toList
  encode : ∀ {w l}, cmd w = some l → ∃ x, l = x.toList ∧ slotWord encode x = some w ∧ InRoom r x

theorem slotForm_of_slotRoom {i : Instr} {r : Nat} (h : slotRoom i = some r) : slotForm i = some (r, true) := by
  unfold slotRoom at h
  split at h
  · next hform => rw [hform, Option.some.inj h]
  · cases h

section
variable {n r : Nat} {encode : Instr → Option (BitVec n)} {cmd : BitVec n → Option (List Instr)}

/-- It is enough to look at the no-operation and at single commands. -/
theorem SlotCodec.of_single (hzero : cmd 0 = some []) (hdecode : ∀ {i w}, encode i = some w → slotForm i = some (r, true) → cmd w = some [i])
    (hencode : ∀ {w l}, cmd w = some l → (w = 0 ∧ l = []) ∨ ∃ i, l = [i] ∧ encode i = some w ∧ slotRoom i = some r) : SlotCodec r encode cmd where
  decode {x w} hw hroom := by
    cases x with
    | none => rw [← Option.some.inj hw]; exact hzero
    | some i => exact hdecode hw (slotForm_of_slotRoom (hroom i (List.mem_singleton_self i)))
  encode {w l} hcmd := by
    rcases hencode hcmd with ⟨rfl, rfl⟩ | ⟨i, rfl, hw, hroom⟩
    · exact ⟨none, rfl, rfl, fun i hi => absurd hi List.not_mem_nil⟩
    · exact ⟨some i, rfl, hw, fun j hj => List.mem_singleton.mp hj ▸ hroom⟩

end

/- What a decoder's case answers, with the legality that it checked; a case without a check has nothing to say of it. -/
theorem ite_single_eq_some {i : Instr} {l : List Instr} {c : Prop} [Decidable c] : (if c then some [i] else none) = some l ↔ c ∧ l = [i] := by
  rw [Option.ite_none_right_eq_some, Option.some.injEq, eq_comm (a := l)]
theorem single_eq_some {i : Instr} {l : List Instr} : some [i] = some l ↔ True ∧ l = [i] := by rw [true_and, Option.some.injEq, eq_comm]

/- For each slot the decoder's cases are the opcodes of its table: the encoder's word of a legal command has its opcode and its fields, and a word that is
read as a command is put together again from its opcode and its fields. -/

theorem arrayCodec (r : Nat) : SlotCodec r encodeArray (arrayCmd r) := by
  refine .of_single rfl (fun {i w} hw hform => ?_) (fun {w l} hcmd => ?_)
  · unfold encodeArray at hw
    split at hw <;> cases hw
    all_goals
      simp only [slotForm, Option.some.injEq, Prod.mk.injEq] at hform
      simp [arrayCmd, hform]
  · unfold arrayCmd at hcmd
    split at hcmd
    case h_1 =>
      rw [Option.ite_none_right_eq_some, Option.some.injEq] at hcmd
      exact .inl ⟨hcmd.1, hcmd.2.symm⟩
    case h_9 => cases hcmd
    all_goals
      next hop =>
      simp only [ite_single_eq_some] at hcmd
      obtain ⟨hlegal, rfl⟩ := hcmd
      exact .inr ⟨_, rfl, congrArg some (arrayWord_arraySlotOf hop), by simp [slotRoom, slotForm, hlegal]⟩

theorem vectorCodec (r : Nat) : SlotCodec r encodeVector (vectorCmd r) := by
  refine .of_single rfl (fun {i w} hw hform => ?_) (fun {w l} hcmd => ?_)
  · unfold encodeVector at hw
    split at hw <;> cases hw
    all_goals
      simp only [slotForm, Option.some.injEq, Prod.mk.injEq] at hform
      simp [vectorCmd, hform]
  · unfold vectorCmd at hcmd
    split at hcmd
    case h_1 =>
      rw [Option.ite_none_right_eq_some, Option.some.injEq] at hcmd
      exact .inl ⟨hcmd.1, hcmd.2.symm⟩
    case h_30 => cases hcmd
    all_goals
      next hop =>
      simp only [ite_single_eq_some, single_eq_some] at hcmd
      obtain ⟨hlegal, rfl⟩ := hcmd
      exact .inr ⟨_, rfl, congrArg some (vectorWord_vectorSlotOf hop), by simp [slotRoom, slotForm, hlegal]⟩

theorem controlCodec (r : Nat) : SlotCodec r encodeControl (controlCmd r) := by
  refine .of_single rfl (fun {i w} hw hform => ?_) (fun {w l} hcmd => ?_)
  · unfold encodeControl at hw
    split at hw <;> cases hw
    all_goals
      simp only [slotForm, Option.some.injEq, Prod.mk.injEq] at hform
      simp [controlCmd, hform]
  · unfold controlCmd at hcmd
    split at hcmd
    case h_1 =>
      rw [Option.ite_none_right_eq_some, Option.some.injEq] at hcmd
      exact .inl ⟨hcmd.1, hcmd.2.symm⟩
    case h_23 => cases hcmd
    all_goals
      next hop =>
      simp only [ite_single_eq_some] at hcmd
      obtain ⟨hlegal, rfl⟩ := hcmd
      exact .inr ⟨_, rfl, congrArg some (controlWord_controlSlotOf hop), by simp [slotRoom, slotForm, hlegal]⟩

theorem moveCodec (r : Nat) : SlotCodec r encodeMove (moveCmd r) := by
  refine .of_single rfl (fun {i w} hw hform => ?_) (fun {w l} hcmd => ?_)
  · unfold encodeMove at hw
    split at hw <;> cases hw
    all_goals
      simp only [slotForm, Option.some.injEq, Prod.mk.injEq] at hform
      simp [moveCmd, hform]
  · unfold moveCmd at hcmd
    dsimp only at hcmd
    split at hcmd
    · rw [Option.ite_none_right_eq_some, Option.some.injEq] at hcmd
      exact .inl ⟨hcmd.1, hcmd.2.symm⟩
    · split at hcmd
      · cases hcmd
      · next hlegal =>
        rw [Bool.not_eq_true, Bool.not_eq_false'] at hlegal
        split at hcmd
        case h_12 => cases hcmd
        all_goals
          next hop =>
          simp only [Option.some.injEq] at hcmd
          subst hcmd
          exact .inr ⟨_, rfl, congrArg some (moveWord_moveSlotOf hop), by simp [slotRoom, slotForm, hlegal]⟩

/-! ### The bundle -/

theorem bundleWord_eq_some {a v m c : Option Instr} {w : BitVec 256} (h : bundleWord a v m c = some w) :
    slotWord encodeArray a = some (bundleArray w) ∧ slotWord encodeVector v = some (bundleVector w) ∧
      slotWord encodeMove m = some (bundleMove w) ∧ slotWord encodeControl c = some (bundleControl w) := by
  unfold bundleWord at h
  dsimp only at h
  split at h
  · next wa wv wm wc ha hv hm hc =>
    cases h
    rw [bundleArray_append, bundleVector_append, bundleMove_append, bundleControl_append]
    exact ⟨ha, hv, hm, hc⟩
  · cases h

theorem bundleWord_of_slots {a v m c : Option Instr} {w : BitVec 256} (ha : slotWord encodeArray a = some (bundleArray w))
    (hv : slotWord encodeVector v = some (bundleVector w)) (hm : slotWord encodeMove m = some (bundleMove w))
    (hc : slotWord encodeControl c = some (bundleControl w)) : bundleWord a v m c = some w := by
  unfold slotWord at ha hv hm hc
  simp only [bundleWord, ha, hv, hm, hc]
  exact congrArg some (append_slots w)

theorem bundleCmds_eq_some {r : Nat} {w : BitVec 256} {cs : List Instr} (h : bundleCmds r w = some cs) :
    ∃ a v m c, arrayCmd r (bundleArray w) = some a ∧ vectorCmd r (bundleVector w) = some v ∧ moveCmd r (bundleMove w) = some m ∧
      controlCmd r (bundleControl w) = some c ∧ cs = a ++ v ++ m ++ c := by
  unfold bundleCmds at h
  split at h
  · next a v m c ha hv hm hc => exact ⟨a, v, m, c, ha, hv, hm, hc, (Option.some.inj h).symm⟩
  · cases h

/-- Settles O50: a bundle's word is its four slots' words side by side, and each slot's decoder and encoder agree. -/
theorem bundlesRoundTrip : Obligations.BundlesRoundTrip := by
  intro r w
  refine ⟨fun a v m c hword hroom => ?_, fun cs hcmds => ?_⟩
  · obtain ⟨ha, hv, hm, hc⟩ := bundleWord_eq_some hword
    simp only [List.forall_mem_append] at hroom
    obtain ⟨⟨⟨hra, hrv⟩, hrm⟩, hrc⟩ := hroom
    rw [bundleCmds, (arrayCodec r).decode ha hra, (vectorCodec r).decode hv hrv, (moveCodec r).decode hm hrm, (controlCodec r).decode hc hrc]
  · obtain ⟨la, lv, lm, lc, ha, hv, hm, hc, rfl⟩ := bundleCmds_eq_some hcmds
    obtain ⟨a, rfl, hwa, hra⟩ := (arrayCodec r).encode ha
    obtain ⟨v, rfl, hwv, hrv⟩ := (vectorCodec r).encode hv
    obtain ⟨m, rfl, hwm, hrm⟩ := (moveCodec r).encode hm
    obtain ⟨c, rfl, hwc, hrc⟩ := (controlCodec r).encode hc
    refine ⟨a, v, m, c, rfl, bundleWord_of_slots hwa hwv hwm hwc, ?_⟩
    simp only [List.forall_mem_append]
    exact ⟨⟨⟨hra, hrv⟩, hrm⟩, hrc⟩

/-- Settles O51: each word is evaluated. -/
theorem bundleWordsSpelled : Obligations.BundleWordsSpelled := by
  intro r
  refine ⟨rfl, rfl, rfl, ?_, ?_, rfl, rfl, rfl, rfl⟩
  · rintro f rfl
    exact ⟨rfl, rfl, rfl, rfl⟩
  · rintro f rfl
    exact ⟨rfl, rfl, rfl⟩

end Sys2Proof.Proofs
end

section
/-!
The statements on the scalar operations and the branches of the control slot, and on sync points and program fills (04_room_program.md).
-/
namespace Sys2Proof.Proofs
open Sys2Proof.Machine Sys2Proof.Laws

/-! ### Scalar and address results (R95) -/

section
variable {s : State} {r : Nat}

theorem scalarOut_free {lat d : Nat} (v : Word) (h : PortFree s r (s.beat + lat) .ctl (1, d)) :
    scalarOut s r lat d v = .ok (resultDue s r (s.beat + lat) .ctl (.x d v)) := by
  rw [scalarOut, addResult_free rfl h]

theorem addressOut_free {d : Nat} (v : Word) (h : PortFree s r (s.beat + 1) .addr (2, d)) :
    addressOut s r d v = .ok (resultDue s r (s.beat + 1) .addr (.a d v)) := by
  rw [addressOut, addResult_free rfl h]

/-- Clearing a status field leaves the pending results (R115). -/
@[simp] theorem clearStatus_micro (q : Room) (sel : Nat) : (clearStatus q sel).micro = q.micro := by
  unfold clearStatus
  split <;> rfl

/-- RSTAT clears the field where CF[0] is 1, and its result is two beats on (R115). -/
theorem rstatBody_free {f : ControlSlot} (q : Room) (h : PortFree s r (s.beat + 2) .ctl (1, d24d f)) :
    rstatBody s r f q = .ok (resultDue (if f.cf = 1 then modRoom s r (fun q => clearStatus q (d24sel f)) else s) r (s.beat + 2) .ctl
      (.x (d24d f) (roomStatus s q (d24sel f)))) := by
  unfold rstatBody
  dsimp only
  split
  · exact scalarOut_free _ (portFree_of_micro h (by rw [getRoom_modRoom, clearStatus_micro]))
  · exact scalarOut_free _ h

end

/-- Settles O8: each of these slots puts its value on a port that is free. -/
theorem scalarOperationsComplete : Obligations.ScalarOperationsComplete := by
  intro s r f ha q d a b x ad
  have scalar {c : Instr} {legal : Bool} {body : Room → SlotRes} {v : Word} (hexec : exec c s = powered s (.next (runSlot s r legal body)))
      (hlegal : legal = true) (hfree : PortFree s r (s.beat + 1) .ctl (1, d)) (hbody : body q = scalarOut s r 1 d v) : exec c s = x v :=
    slot_completes hexec ha hlegal (hbody.trans (scalarOut_free v hfree))
  refine ⟨fun hfree => ⟨fun hlegal => ?immediate, fun hlegal => ?operation, fun hlegal => ?reading⟩, fun hfree hlegal => ?address,
    fun hfree hlegal => slot_completes rfl ha hlegal (rstatBody_free q hfree)⟩
  case immediate => exact ⟨scalar rfl hlegal hfree rfl, scalar rfl hlegal hfree rfl⟩
  case operation =>
    exact ⟨scalar rfl hlegal hfree rfl, scalar rfl hlegal hfree rfl, scalar rfl hlegal hfree rfl, scalar rfl hlegal hfree rfl,
      scalar rfl hlegal hfree rfl, scalar rfl hlegal hfree rfl, scalar rfl hlegal hfree rfl⟩
  case reading => exact ⟨scalar rfl hlegal hfree rfl, scalar rfl hlegal hfree rfl⟩
  case address => exact ⟨slot_completes rfl ha hlegal (addressOut_free _ hfree), slot_completes rfl ha hlegal (addressOut_free _ hfree)⟩

/-! ### Branches (R108) -/

section
variable {s : State} {r : Nat} {q : Room} {f : ControlSlot}

theorem branchTo_inside {target : Nat} (h : target < q.progLen) : branchTo s r q target = .ok (modRoom s r (fun q => { q with addr := target })) :=
  if_neg (Nat.not_le.mpr h)

theorem branchTo_outside {target : Nat} (h : q.progLen ≤ target) : branchTo s r q target = .error { code := codeBounds } := if_pos h

theorem bnzBody_taken (h : xReg q (d24brA f) ≠ 0) : bnzBody s r f q = branchTo s r q (d24target f) := if_pos h

theorem bnzBody_passes (h : xReg q (d24brA f) = 0) : bnzBody s r f q = .ok s := if_neg (not_not_intro h)

theorem loopBody_again (h : xReg q (d24brA f) - 1 ≠ 0) :
    loopBody s r f q = (branchTo s r q (d24target f)).bind (fun s => scalarOut s r 1 (d24brA f) (xReg q (d24brA f) - 1)) := if_pos h

theorem loopBody_ends (h : xReg q (d24brA f) - 1 = 0) : loopBody s r f q = scalarOut s r 1 (d24brA f) (xReg q (d24brA f) - 1) :=
  if_neg (not_not_intro h)

end

/-- Settles O9: each branch is `branchTo` where it is taken, and LOOP's count meets nothing. -/
theorem branchesComplete : Obligations.BranchesComplete := by
  intro s r f ha q taken n
  refine ⟨fun hlegal => ⟨fun hin => slot_completes rfl ha hlegal (branchTo_inside hin), fun hout => slot_stops rfl ha hlegal (branchTo_outside hout)⟩,
    fun hlegal => ⟨fun hx hin => ?_, fun hx hout => ?_, fun hn hout => ?_, fun hx => slot_completes rfl ha hlegal (bnzBody_passes hx),
      fun hfree => ⟨fun hn hin => ?_, fun hn => ?_⟩⟩⟩
  · exact slot_completes rfl ha hlegal ((bnzBody_taken hx).trans (branchTo_inside hin))
  · exact slot_stops rfl ha hlegal ((bnzBody_taken hx).trans (branchTo_outside hout))
  · refine slot_stops (code := codeBounds) rfl ha hlegal ?_
    rw [loopBody_again hn, branchTo_outside hout]
    rfl
  · have free : PortFree taken r (taken.beat + 1) .ctl (1, d24brA f) := portFree_of_micro hfree (by rw [getRoom_modRoom])
    refine slot_completes rfl ha hlegal ?_
    rw [loopBody_again hn, branchTo_inside hin]
    exact scalarOut_free n free
  · exact slot_completes rfl ha hlegal ((loopBody_ends hn).trans (scalarOut_free n hfree))

/-! ### Sync points, program ends and program fills (R108, R111, R112, R126, R127) -/

section
variable {s : State} {r : Nat} {f : ControlSlot}

/-- SYNC once a phase and of the phase's END_SYNC: the room's late counters are reported and start again, and the room arrives. -/
theorem syncBody_arrives {p : PhaseEnt} (hphase : phaseAt s (getRoom s r).phase = some p) (hsynced : (getRoom s r).synced = false)
    (hend : p.endSync = d24sync f) :
    syncBody s r f (getRoom s r) = .ok (arriveRoom (reportLate (modRoom s r (fun q => { q with synced := true })) r) r) := by
  have admitted : ¬((getRoom s r).synced = true ∨ p.endSync ≠ d24sync f) := by simp [hsynced, hend]
  rw [syncBody, hphase]
  exact if_neg admitted

/-- A SYNC that succeeds records nothing in SCH_FAULT (R140). -/
theorem exec_sync {t : State} (ha : Acts s r) (hlegal : controlLegal 16 0 f = true) (hbody : syncBody s r f (getRoom s r) = .ok t) :
    exec (.sync r f) s = .next t := by
  have run : syncRun s r f = t := by
    unfold syncRun
    rw [runSlot_ok ha.2 hlegal hbody, hbody]
    simp
  exact (powered_runs ha.1 _).trans (congrArg Host.Outcome.next run)

theorem pendBody_ends (hidle : ∀ t ∈ (getRoom s r).toks, t.2.st = .idle) (hrun : (getRoom s r).run ≠ .stopped) :
    pendBody s r (getRoom s r) = .ok (endProgram s r .ended (phaseAfter s (getRoom s r).phase)) := by
  have waited : (getRoom s r).toks.any (fun t => t.2.st != .idle) = false := by
    rw [List.any_eq_false]
    exact fun t ht => by simp [hidle t ht]
  rw [pendBody, waited]
  exact if_neg hrun

theorem haltBody_ends (hrun : (getRoom s r).run ≠ .stopped) : haltBody s r = .ok (endProgram s r .halted 0) := if_neg hrun

theorem exec_programFillDone (hp : Powered s) (hfilled : (getRoom s r).filled = false) (hend : (getRoom s r).fillEnd ≤ s.now)
    (hidle : (getRoom s r).run ≠ .running ∧ (getRoom s r).run ≠ .held) :
    exec (.programFillDone r) s = .next (if (getRoom s r).run = .filling then runRoom (loadBundles s r (getRoom s r).fillPhase) r
      else loadBundles s r (getRoom s r).fillPhase) := by
  have due : ¬((getRoom s r).filled = true ∨ s.now < (getRoom s r).fillEnd ∨ (getRoom s r).run = .running ∨ (getRoom s r).run = .held) := by
    simp [hfilled, hend, hidle]
  exact (powered_runs hp _).trans (if_neg due)

theorem exec_waitTimeout {h : Hold} {p : PhaseEnt} (hp : Powered s) (hhold : (getRoom s r).hold = some h) (hphase : phaseAt s (getRoom s r).phase = some p)
    (hwaits : (getRoom s r).run = .held ∨ ((getRoom s r).run = .running ∧ s.beat < (getRoom s r).resumeAt)) (hlimit : h.w + p.waitLimit < s.beat) :
    exec (.waitTimeout r) s = .next (stopRoom s r codeWaitTimeout 0) := by
  have run : execWaitTimeout r s = .next (stopRoom s r codeWaitTimeout 0) := by
    rw [execWaitTimeout, hhold, hphase]
    exact if_pos ⟨hlimit, hwaits⟩
  exact (powered_runs hp _).trans run

end

/-- Settles O16: each command meets the one case of its body that its conditions leave. -/
theorem phaseCommandsComplete : Obligations.PhaseCommandsComplete := by
  intro s r f q
  refine ⟨fun ha => ⟨fun p hlegal hphase hsynced hend => ?sync, fun hlegal hrun hidle => slot_completes rfl ha hlegal (pendBody_ends hidle hrun),
    fun hlegal hrun => slot_completes rfl ha hlegal (haltBody_ends hrun)⟩, fun hp hfilled hend => ?fill,
    fun h p hp hhold hphase hwaits hlimit => exec_waitTimeout hp hhold hphase hwaits hlimit⟩
  case sync =>
    rw [exec_sync ha hlegal (syncBody_arrives hphase hsynced hend), reportLate, getRoom_modRoom]
    rfl
  case fill =>
    refine ⟨fun hrun => ?_, fun hrun => ?_⟩
    · rw [exec_programFillDone hp hfilled hend ⟨hrun.trans_ne nofun, hrun.trans_ne nofun⟩, if_pos hrun]
    · have others : (getRoom s r).run ≠ .running ∧ (getRoom s r).run ≠ .held ∧ (getRoom s r).run ≠ .filling := by
        rcases hrun with h | h | h | h <;> simp [q, h]
      obtain ⟨running, held, filling⟩ := others
      rw [exec_programFillDone hp hfilled hend ⟨running, held⟩, if_neg filling]

end Sys2Proof.Proofs
end

section
/-!
The statements on the move slot and on completions of elastic operations (04_room_program.md).
-/
namespace Sys2Proof.Proofs
open Sys2Proof.Machine Sys2Proof.Laws

/-! ### The move slot (R103, R104) -/

/-- The length and the shape that a move slot's registers name (R488). -/
def moveLen (q : Room) (f : MoveSlot) : Nat := (xReg q f.xl.toNat).toNat
def moveShape (q : Room) (f : MoveSlot) : Word := if f.xq = 0 then 0 else xReg q f.xq.toNat

/-- The room's operations with one more, last in issue order, its registers read as they stand. -/
def withOp (s : State) (r : Nat) (f : MoveSlot) (kind : ElasticKind) : State :=
  let q := getRoom s r
  modRoom s r (fun x => { x with ops := x.ops ++ [{
    kind := kind, f := f, issued := s.now, src := (aReg q f.asrc.toNat).toNat, dst := (aReg q f.adst.toNat).toNat, len := moveLen q f,
    par := xReg q f.xp.toNat, shape := moveShape q f }] })

/-- The token of a move slot that issues in beat `b`, pending from the next beat on. -/
def withToken (t : State) (r : Nat) (f : MoveSlot) (b : Nat) : State :=
  addAction t r (b + 1) 0 (.tok f.tk.toNat { st := .pending, word := 0x10000#64, armed := b, doneAt := 0 })

section
variable {s : State} {r : Nat} {f : MoveSlot} {kind : ElasticKind}

theorem moveBody_busy (h : (token (getRoom s r) f.tk.toNat).st ≠ .idle) : moveBody s r kind f (getRoom s r) = .error { code := codeTokenBusy } := if_pos h

/-- A well formed request queues as what it is. -/
theorem moveBody_queues (h : (token (getRoom s r) f.tk.toNat).st = .idle)
    (hok : requestOk (getRoom s r) kind f (moveLen (getRoom s r) f) (moveShape (getRoom s r) f) = true)
    (hlen : hasLength kind = true → moveLen (getRoom s r) f ≠ 0) : moveBody s r kind f (getRoom s r) = .ok (withToken (withOp s r f kind) r f s.beat) := by
  rw [moveLen, moveShape] at hok
  rw [moveLen] at hlen
  have full : ¬(hasLength kind && decide ((xReg (getRoom s r) f.xl.toNat).toNat = 0)) = true := by simpa using hlen
  rw [moveBody, if_neg (not_not_intro h)]
  simp only [hok, Bool.not_true, Bool.false_eq_true, if_false, if_true, if_neg full]
  rfl

/-- A request of length 0 queues as one that has ended well. -/
theorem moveBody_empty (h : (token (getRoom s r) f.tk.toNat).st = .idle)
    (hok : requestOk (getRoom s r) kind f (moveLen (getRoom s r) f) (moveShape (getRoom s r) f) = true)
    (hkind : hasLength kind = true) (hlen : moveLen (getRoom s r) f = 0) :
    moveBody s r kind f (getRoom s r) = .ok (withToken (withOp s r f (.done 0 0)) r f s.beat) := by
  rw [moveLen, moveShape] at hok
  rw [moveLen] at hlen
  have empty : (hasLength kind && decide ((xReg (getRoom s r) f.xl.toNat).toNat = 0)) = true := by simp [hkind, hlen]
  rw [moveBody, if_neg (not_not_intro h)]
  simp only [hok, Bool.not_true, Bool.false_eq_true, if_false, if_true, if_pos empty]
  rfl

/-- Recording a fault leaves the beat. -/
@[simp] theorem recordFault_beat (s : State) (code unit : Nat) (items : Items) : (recordFault s code unit items).beat = s.beat := by
  obtain ⟨-, -, -, -, beat, -⟩ := (recordFault_one s 0 code unit items).frame
  exact beat

/-- A malformed request queues as one that has ended with every part failed, which is recorded. -/
theorem moveBody_malformed (h : (token (getRoom s r) f.tk.toNat).st = .idle)
    (hbad : requestOk (getRoom s r) kind f (moveLen (getRoom s r) f) (moveShape (getRoom s r) f) = false) :
    moveBody s r kind f (getRoom s r) = .ok (withToken (recordFault (withOp s r f (.done codeMoveShape allParts)) codeMoveShape
      (unitRoom (getRoom s r).floor) (roomItems r (getRoom s r) 0)) r f s.beat) := by
  rw [moveLen, moveShape] at hbad
  rw [moveBody, if_neg (not_not_intro h)]
  simp only [hbad, Bool.not_false, if_true, Bool.false_eq_true, if_false, recordFault_beat]
  rfl

/-- What every operation of the move slot does with an idle token. -/
theorem moveSlot_arms {c : Instr} (hexec : exec c s = powered s (.next (runSlot s r (moveLegal f) (moveBody s r kind f)))) (ha : Acts s r)
    (hlegal : moveLegal f = true) (h : (token (getRoom s r) f.tk.toNat).st = .idle) :
    let q := getRoom s r
    let ok := requestOk q kind f (moveLen q f) (moveShape q f)
    (ok = true → (hasLength kind = true → moveLen q f ≠ 0) → exec c s = .next (withToken (withOp s r f kind) r f s.beat)) ∧
    (ok = true → hasLength kind = true → moveLen q f = 0 → exec c s = .next (withToken (withOp s r f (.done 0 0)) r f s.beat)) ∧
    (ok = false → exec c s = .next (withToken (recordFault (withOp s r f (.done codeMoveShape allParts)) codeMoveShape
      (unitRoom q.floor) (roomItems r q 0)) r f s.beat)) :=
  ⟨fun hok hlen => slot_completes hexec ha hlegal (moveBody_queues h hok hlen),
    fun hok hkind hlen => slot_completes hexec ha hlegal (moveBody_empty h hok hkind hlen),
    fun hbad => slot_completes hexec ha hlegal (moveBody_malformed h hbad)⟩

theorem moveSlot_busy {c : Instr} (hexec : exec c s = powered s (.next (runSlot s r (moveLegal f) (moveBody s r kind f)))) (ha : Acts s r)
    (hlegal : moveLegal f = true) (h : (token (getRoom s r) f.tk.toNat).st ≠ .idle) : exec c s = .next (stopRoom s r codeTokenBusy 0) :=
  slot_stops hexec ha hlegal (moveBody_busy h)

end

/-- Settles O13: the eleven operations share one body, which their token and their request decide. -/
theorem moveSlotArms : Obligations.MoveSlotArms := by
  intro s r f ha hreserved q len shape queued armed each
  have hlegal : moveLegal f = true := by simp [moveLegal, hreserved]
  refine ⟨fun hidle => ?_, fun hbusy => ?_⟩
  · have arms {kind : ElasticKind} {c : Instr} (hexec : exec c s = powered s (.next (runSlot s r (moveLegal f) (moveBody s r kind f)))) :=
      moveSlot_arms hexec ha hlegal hidle
    exact ⟨arms rfl, arms rfl, arms rfl, arms rfl, arms rfl, arms rfl, arms rfl, arms rfl, arms rfl, arms rfl, arms rfl⟩
  · have busy {kind : ElasticKind} {c : Instr} (hexec : exec c s = powered s (.next (runSlot s r (moveLegal f) (moveBody s r kind f)))) :=
      moveSlot_busy hexec ha hlegal hbusy
    exact ⟨busy (kind := .mload) rfl, busy (kind := .mstore) rfl, busy (kind := .mroom) rfl, busy (kind := .matom) rfl, busy (kind := .mgather) rfl,
      busy (kind := .mscatter) rfl, busy (kind := .msend) rfl, busy (kind := .mrecv) rfl, busy (kind := .mreduce) rfl, busy (kind := .mfence) rfl,
      busy (kind := .mpref) rfl⟩

/-! ### Completions (R87, R103, R106, R107) -/

/-- The bank of an operation's last line taken in this cycle, where it writes a line to a room's store (R87). -/
def lineTaken (s : State) (r : Nat) (o : Elastic) : State :=
  match lastLine s r o with
  | none => s
  | some (p, off) => modRoom s p (fun q => { q with ebanks := q.ebanks ++ [(s.now, off / 64 % 16)] })

/-- The operation's last line waiting in the staging buffer (R87). -/
def lineStaged (s : State) (r : Nat) (o : Elastic) : State :=
  modRoom s r (fun q => { q with ops := modifyFirst (fun x => decide (x.f.tk = o.f.tk)) (fun x => { x with staged := true }) q.ops })

/-- The bank of the operation's last line is free, or there is no such line. -/
def LineFree (s : State) (r : Nat) (o : Elastic) : Prop := ∀ p off, lastLine s r o = some (p, off) → bankFree s p off = true

section
variable {s : State} {r tk : Nat} {o : Elastic}

theorem tk_of_startedOp (h : startedOp s r tk = some o) : o.f.tk.toNat = tk := by
  obtain ⟨hfind, -⟩ := Option.filter_eq_some_iff.mp h
  exact of_decide_eq_true (List.find?_some (p := fun o : Elastic => decide (o.f.tk.toNat = tk)) hfind)

/-- Where no line of the room waits in the staging buffer, none is older. -/
theorem no_older_staged (hstaged : ∀ x ∈ (getRoom s r).ops, x.staged = false) (p : Elastic → Bool) (same : Elastic → Bool) :
    ((getRoom s r).ops.takeWhile p).any (fun x => x.staged && same x) = false := by
  rw [List.any_eq_false]
  intro x hx
  simp [hstaged x ((List.takeWhile_sublist p).subset hx)]

theorem completeMove_free (hstaged : ∀ x ∈ (getRoom s r).ops, x.staged = false) (hfree : LineFree s r o) :
    completeMove s r o = completeToken (moveDone (lineTaken s r o) r o).1 r o.f.tk.toNat (moveDone (lineTaken s r o) r o).2.1
      (moveDone (lineTaken s r o) r o).2.2 := by
  cases hline : lastLine s r o with
  | none => simp only [completeMove, lineTaken, hline]
  | some l =>
    obtain ⟨p, off⟩ := l
    simp only [completeMove, lineTaken, hline, no_older_staged hstaged, hfree p off hline]
    rfl

theorem completeMove_taken {p off : Nat} (hline : lastLine s r o = some (p, off))
    (htaken : bankFree s p off = false) : completeMove s r o = lineStaged s r o := by
  simp only [completeMove, hline, htaken]
  simp [lineStaged]

/-- The completion of an operation of its kind that has started and waits on nothing. -/
theorem completeOp_started {kind : ElasticKind} (h : startedOp s r tk = some o) (hwaits : opWaits s o = false) (hatom : atomWaits (getRoom s r) o = false)
    (hkind : o.kind = kind) : completeOp s r tk kind = completeMove s r o := by
  rw [completeOp, h]
  exact if_pos ⟨hkind, by simp [hwaits], by simp [hatom]⟩

theorem completeServed_started {kind : ElasticKind} (h : startedOp s r tk = some o) (haccepted : o.accepted = true) (hleft : o.left = 0)
    (hkind : o.kind = kind) : completeServed s r tk kind = completeToken s r tk o.fault o.parts := by
  simp [completeServed, h, hkind, servedDone, haccepted, hleft]

end

/-- Settles O14: the move engine's operations complete through `completeMove`, the other units' with what they noted. -/
theorem elasticCompletionsComplete : Obligations.ElasticCompletionsComplete := by
  intro s r tk o hp hstart hwaits hatom hstaged u staged free taken moved served
  refine ⟨fun hfree => ?free, fun htaken => ?taken, fun haccepted hleft => ?served⟩
  case free =>
    have done {c : Instr} {kind : ElasticKind} (hexec : exec c s = powered s (.next (completeOp s r tk kind))) (hkind : o.kind = kind) :
        exec c s = moved (moveDone u r o) := by
      rw [hexec, powered_runs hp, completeOp_started hstart hwaits hatom hkind, completeMove_free hstaged hfree, tk_of_startedOp hstart]
      rfl
    exact ⟨fun hk => (done rfl hk).trans (by rw [moveDone, hk]), fun hk => (done rfl hk).trans (by rw [moveDone, hk]),
      fun hk => (done rfl hk).trans (by rw [moveDone, hk]), fun hk => (done rfl hk).trans (by rw [moveDone, hk]),
      fun hk => (done rfl hk).trans (by rw [moveDone, hk]), fun hk => (done rfl hk).trans (by rw [moveDone, hk])⟩
  case taken =>
    obtain ⟨p, off, hline, hbank⟩ := htaken
    have waits {c : Instr} {kind : ElasticKind} (hexec : exec c s = powered s (.next (completeOp s r tk kind))) (hkind : o.kind = kind) :
        exec c s = .next staged := by
      rw [hexec, powered_runs hp, completeOp_started hstart hwaits hatom hkind, completeMove_taken hline hbank]
      rfl
    exact ⟨waits rfl, waits rfl, waits rfl⟩
  case served =>
    have done {c : Instr} {kind : ElasticKind} (hexec : exec c s = powered s (.next (completeServed s r tk kind))) (hkind : o.kind = kind) :
        exec c s = served := by
      rw [hexec, powered_runs hp, completeServed_started hstart haccepted hleft hkind]
    exact ⟨done rfl, done rfl, done rfl, done rfl, done rfl⟩

/-! ### A token's completion (R107, R120, Table 4.11) -/

section
variable (code parts : Nat)

theorem toNat_doneWord : (doneWord code parts).toNat = code % 2 ^ 16 + 2 ^ 17 + (if code = 0 then 0 else 2 ^ 18) + parts % 2 ^ 32 * 2 ^ 32 := by
  rw [doneWord, BitVec.toNat_ofNat]
  split <;> omega

theorem code_doneWord : bits (doneWord code parts) 15 0 = code % 2 ^ 16 := by
  simp only [bits, toNat_doneWord, Nat.shiftRight_eq_div_pow]
  split <;> omega

theorem done_doneWord : bits (doneWord code parts) 17 17 = 1 := by
  simp only [bits, toNat_doneWord, Nat.shiftRight_eq_div_pow]
  split <;> omega

theorem failed_doneWord : bits (doneWord code parts) 18 18 = b2n (decide (code ≠ 0)) := by
  simp only [bits, toNat_doneWord, Nat.shiftRight_eq_div_pow, b2n]
  split <;> simp_all <;> omega

theorem parts_doneWord : bits (doneWord code parts) 63 32 = parts % 2 ^ 32 := by
  simp only [bits, toNat_doneWord, Nat.shiftRight_eq_div_pow]
  split <;> omega

end

/-- The room once its token has completed: the operation is out of the queue, and the token's word is written. -/
def tokenDone (s : State) (tk code parts : Nat) (q : Room) : Room :=
  { q with
    ops := eraseFirst (fun o => decide (o.f.tk.toNat = tk)) q.ops
    toks := smModify {} q.toks tk (fun t => { t with st := .complete, word := doneWord code parts, doneAt := seenBeat s }) }

section
variable (s : State) (r tk code parts : Nat)

@[simp] theorem token_tokenDone_same (q : Room) :
    token (tokenDone s tk code parts q) tk = { token q tk with st := .complete, word := doneWord code parts, doneAt := seenBeat s } := by
  simp [token, tokenDone, smModify]

theorem token_tokenDone_other (q : Room) {j : Nat} (h : j ≠ tk) : token (tokenDone s tk code parts q) j = token q j := by
  simp [token, tokenDone, smModify, smGet_smSet_other, h]

theorem completeToken_of_no_hold (h : (getRoom s r).hold = none) : completeToken s r tk code parts = modRoom s r (tokenDone s tk code parts) := by
  unfold completeToken
  dsimp only
  split
  · next hold => exact absurd (h.symm.trans hold) (by simp)
  · rfl

end

/-- Settles O15: with no WAIT the completion is the room's update alone, and the word's fields are those of Table 4.11. -/
theorem tokenCompletes : Obligations.TokenCompletes := by
  intro s r tk code parts hcode hparts hhold
  rw [completeToken_of_no_hold s r tk code parts hhold]
  dsimp only
  rw [getRoom_modRoom, token_tokenDone_same]
  refine ⟨rfl, ?_, done_doneWord code parts, failed_doneWord code parts, ?_, rfl, fun j hj => token_tokenDone_other s tk code parts _ hj,
    fun r' hr => getRoom_modRoom_other s _ hr, rfl⟩
  · exact (code_doneWord code parts).trans (Nat.mod_eq_of_lt hcode)
  · exact (parts_doneWord code parts).trans (Nat.mod_eq_of_lt hparts)

end Sys2Proof.Proofs
end

section
/-!
The statements on WAIT (04_room_program.md).
-/
namespace Sys2Proof.Proofs
open Sys2Proof.Machine Sys2Proof.Laws

/-! ### Fields of a token's word -/

/-- LATE, bit 19, is set without touching the bits below it (Table 4.11). -/
theorem bits_setBits_late (w : Word) (v : Nat) : bits (setBits w 19 19 v) 18 0 = bits w 18 0 := by
  have hw := w.isLt
  simp only [bits, setBits, BitVec.toNat_ofNat, Nat.shiftRight_eq_div_pow, Nat.shiftLeft_eq]
  omega

theorem bitOf_eq_bits {n : Nat} (w : BitVec n) (i : Nat) : bitOf w i = decide (bits w i i = 1) := by
  rw [bitOf, bits, Nat.testBit_eq_decide_div_mod_eq, Nat.shiftRight_eq_div_pow, Nat.add_sub_cancel_left, Nat.pow_one]

/-! ### A WAIT that ends (R109, R110, R111) -/

/-- The token that a WAIT has ended on: idle, its word but for LATE as it was (R109, R111). -/
def tokenWaited (h : Hold) (t : Token) : Token :=
  { t with st := .idle, word := setBits t.word 19 19 (b2n (decide (0 < t.doneAt - max h.w h.e))) }

/-- The room once the WAIT `h` has ended on a completed token: the token is idle and keeps its status, and its lateness is counted. -/
def waitEnded (h : Hold) (q : Room) : Room :=
  let t := token q h.tk
  let m := max h.w h.e
  let late := t.doneAt - m
  { q with
    toks := smSet {} q.toks h.tk (tokenWaited h t)
    run := if q.run = .stopped then .stopped else .running, hold := some h, resumeAt := max m t.doneAt + 1
    lateCycles := q.lateCycles + late
    lateWaits := q.lateWaits + b2n (decide (0 < late))
    lateMax := max q.lateMax late
    firstLate := if q.firstLate = 0 ∧ 0 < late then
      BitVec.ofNat 64 (h.bundle % 2 ^ 12 + (h.tk % 2 ^ 6) * 2 ^ 12 + (late % 2 ^ 32) * 2 ^ 32) else q.firstLate }

/-- The module once the WAIT `h` has ended on a failed token and the token's own fault is recorded (R110). -/
def tokenFaultNoted (s : State) (r : Nat) (h : Hold) : State :=
  recordFault (modRoom s r (waitEnded h)) (bits (token (getRoom s r) h.tk).word 15 0) (unitRoom (waitEnded h (getRoom s r)).floor)
    (roomItems r (waitEnded h (getRoom s r)) 0)

section
variable {s : State} {r : Nat} {h : Hold}

theorem toks_waitEnded (q : Room) : (waitEnded h q).toks = smSet {} q.toks h.tk (tokenWaited h (token q h.tk)) := by rw [waitEnded]

@[simp] theorem token_waitEnded (q : Room) : token (waitEnded h q) h.tk = tokenWaited h (token q h.tk) := by
  rw [token, toks_waitEnded, smGet_smSet_same]

/-- A WAIT whose failure policy lets the token's status pass only changes its room. -/
theorem waitEnds_passes (hpass : ¬(h.cf = 1 ∧ bitOf (token (getRoom s r) h.tk).word 18 = true)) : waitEnds s r h = modRoom s r (waitEnded h) := if_neg hpass

/-- A WAIT under CF 1 on a failed token stops the room with OPERATION_FAILED, after the token's own fault. -/
theorem waitEnds_fails (hfail : h.cf = 1 ∧ bitOf (token (getRoom s r) h.tk).word 18 = true) :
    waitEnds s r h = stopRoom (tokenFaultNoted s r h) r codeOpFailed 0 := if_pos hfail

end

/-- The WAIT that a control slot describes, issuing in this beat (R109). -/
def waitOf (s : State) (f : ControlSlot) (q : Room) : Hold :=
  { tk := f.tk.toNat, w := s.beat, e := (token q f.tk.toNat).armed + f.d24.toNat, cf := f.cf.toNat, bundle := q.cur }

section
variable {s : State} {r : Nat} {f : ControlSlot} {q : Room}

theorem waitBody_idle (h : (token q f.tk.toNat).st = .idle) : waitBody s r f q = .error { code := codeTokenUnarmed } := by
  rw [waitBody, h]

theorem waitBody_pending_stopped (h : (token q f.tk.toNat).st = .pending) (hrun : q.run = .stopped) : waitBody s r f q = .ok s := by
  rw [waitBody, h]
  exact if_pos hrun

theorem waitBody_pending (h : (token q f.tk.toNat).st = .pending) (hrun : q.run ≠ .stopped) :
    waitBody s r f q = .ok (modRoom s r (fun q' => { q' with run := .held, hold := some (waitOf s f q) })) := by
  rw [waitBody, h]
  exact if_neg hrun

theorem waitBody_complete (h : (token q f.tk.toNat).st = .complete) : waitBody s r f q = .ok (waitEnds s r (waitOf s f q)) := by
  rw [waitBody, h]
  rfl

end

/-- Under CF 0 a WAIT lets every status pass, under CF 1 one that is not failed. -/
theorem passes_of_policy {f : ControlSlot} {w : Word} (h : f.cf = 0 ∨ bitOf w 18 = false) : ¬(f.cf.toNat = 1 ∧ bitOf w 18 = true) := by
  rintro ⟨hcf, hfailed⟩
  rcases h with h | h
  · rw [h] at hcf
    exact absurd hcf (by decide)
  · rw [h] at hfailed
    cases hfailed

/-! ### A completion that a WAIT is held on -/

section
variable {s : State} {r tk code parts : Nat} {h : Hold}

theorem completeToken_of_hold (hhold : (getRoom s r).hold = some h) (hrun : (getRoom s r).run = .held) (htk : h.tk = tk) :
    completeToken s r tk code parts = waitEnds (modRoom s r (tokenDone s tk code parts)) r h := by
  unfold completeToken
  dsimp only
  split
  · next hold =>
    cases hhold.symm.trans hold
    exact if_pos ⟨hrun, htk⟩
  · next hold => exact absurd (hhold.symm.trans hold) (by simp)

/-- A token that completes with a code of 0 is not failed. -/
theorem not_failed_doneWord (hcode : code = 0) : bitOf (doneWord code parts) 18 = false := by
  rw [bitOf_eq_bits, failed_doneWord, hcode]
  rfl

end

/-- Settles O60: a WAIT's body is decided by its token's state, and a completion ends the WAIT that it finds. -/
theorem waitCompletes : Obligations.WaitCompletes := by
  refine ⟨?issue, ?completion⟩
  case issue =>
    intro s r f ha hlegal q t e
    refine ⟨fun hst hrun => slot_completes rfl ha hlegal (waitBody_pending_stopped hst hrun),
      fun hst hrun => slot_completes rfl ha hlegal (waitBody_pending hst hrun), fun hst hrun hpass => ?_,
      fun hst => slot_stops rfl ha hlegal (waitBody_idle hst)⟩
    rw [slot_completes rfl ha hlegal (waitBody_complete hst), waitEnds_passes (passes_of_policy hpass), modRoom, waitEnded, if_neg hrun]
    rfl
  case completion =>
    intro s r tk code parts h hhold hrun htk hpass
    have done : token (getRoom (modRoom s r (tokenDone s tk code parts)) r) h.tk =
        { token (getRoom s r) tk with st := .complete, word := doneWord code parts, doneAt := seenBeat s } := by
      rw [getRoom_modRoom, htk, token_tokenDone_same]
    have passes : ¬(h.cf = 1 ∧ bitOf (doneWord code parts) 18 = true) := by
      rcases hpass with hcf | hcode
      · simp [hcf]
      · simp [not_failed_doneWord hcode]
    dsimp only
    rw [completeToken_of_hold hhold hrun htk, waitEnds_passes (by rwa [done]), getRoom_modRoom]
    unfold waitEnded
    rw [done]
    refine ⟨?_, rfl, ?_⟩
    · simp [getRoom_modRoom, tokenDone, hrun]
    · simp [getRoom_modRoom, tokenDone]

end Sys2Proof.Proofs
end

section
/-!
What the event recorder's queue holds once a fault is recorded, and the statement on failed tokens (04_room_program.md).
-/
namespace Sys2Proof.Proofs
open Sys2Proof.Machine Sys2Proof.Laws

/-! ### The order of a cycle's submissions (R437) -/

theorem recInsert_perm (all : Bool) (e : EvRec) (l : List EvRec) : (recInsert all e l).Perm (e :: l) := by
  induction l with
  | nil => exact .refl _
  | cons x xs ih =>
    unfold recInsert
    split
    · exact (ih.cons x).trans (.swap e x xs)
    · exact .refl _

theorem foldl_recInsert_perm (all : Bool) (es acc : List EvRec) : (es.foldl (fun l e => recInsert all e l) acc).Perm (acc ++ es) := by
  induction es generalizing acc with
  | nil => rw [List.append_nil]; exact .refl _
  | cons e es ih =>
    have placed : (recInsert all e acc ++ es).Perm (e :: acc ++ es) := (recInsert_perm all e acc).append_right es
    exact (ih _).trans (placed.trans List.perm_middle.symm)

/-- Ordering a cycle's submissions neither drops nor adds one. -/
theorem cycleOrder_perm (es : List EvRec) : (cycleOrder es).Perm es := foldl_recInsert_perm (es.any byCode) es []

theorem queue_queueRec (s : State) (e : EvRec) : (queueRec s e).evr.queue.Perm (s.evr.queue ++ [e]) := by
  have ordered := (cycleOrder_perm (s.evr.queue.drop (s.evr.queue.length - s.cyc.subs) ++ [e])).append_left
    (s.evr.queue.take (s.evr.queue.length - s.cyc.subs))
  rwa [← List.append_assoc, List.take_append_drop] at ordered

/-! ### A record and the triggers that it fires (R437, R441) -/

/-- The recorder takes records: EVR_CTRL has it on, and no freeze has come (R437, R448). -/
def RecorderOn (s : State) : Prop := s.mgmt.frozen = none ∧ regBits s rEvrCtrl 0 0 = 1

/-- The queue, the management state and EVR_CTRL of `t` are those of `s`. -/
structure SameRecorder (s t : State) : Prop where
  queue : t.evr.queue = s.evr.queue
  mgmt : t.mgmt = s.mgmt
  ctrl : regGet t rEvrCtrl = regGet s rEvrCtrl

theorem SameRecorder.refl (s : State) : SameRecorder s s := ⟨rfl, rfl, rfl⟩

theorem SameRecorder.trans {s t u : State} (h : SameRecorder s t) (k : SameRecorder t u) : SameRecorder s u :=
  ⟨k.queue.trans h.queue, k.mgmt.trans h.mgmt, k.ctrl.trans h.ctrl⟩

theorem SameRecorder.ite {s t u : State} {c : Prop} [Decidable c] (h : SameRecorder s t) (k : SameRecorder s u) : SameRecorder s (if c then t else u) := by
  split
  · exact h
  · exact k

theorem SameRecorder.on {s t : State} (h : SameRecorder s t) (k : RecorderOn s) : RecorderOn t := by
  rwa [RecorderOn, h.mgmt, regBits, h.ctrl]

theorem regUpdate_sameRecorder (s : State) {a : Nat} (v n : Word) (h : rEvrCtrl ≠ a) : SameRecorder s (regUpdate s a v n) :=
  ⟨rfl, rfl, smGet_smSet_other _ _ _ _ h⟩

theorem rEvrCtrl_ne_rEvrTrg (t : Nat) : rEvrCtrl ≠ rEvrTrg t := by unfold rEvrCtrl rEvrTrg; omega

theorem rEvrCtrl_ne_rEvrStat : rEvrCtrl ≠ rEvrStat := by decide

theorem latchIrq_sameRecorder (s : State) (n : Nat) : SameRecorder s (latchIrq s n) := ⟨rfl, rfl, rfl⟩

theorem regCount_sameRecorder (s : State) {a : Nat} (hi lo n : Nat) (h : rEvrCtrl ≠ a) : SameRecorder s (regCount s a hi lo n) :=
  regUpdate_sameRecorder s _ _ h

theorem regPut_sameRecorder (s : State) {a : Nat} (hi lo v : Nat) (h : rEvrCtrl ≠ a) : SameRecorder s (regPut s a hi lo v) :=
  regUpdate_sameRecorder s _ _ h

theorem setEvr_sameRecorder (s : State) {x : Evr} (h : x.queue = s.evr.queue) : SameRecorder s { s with evr := x } := ⟨h, rfl, rfl⟩

theorem fireTrigger_sameRecorder (s : State) (t : Nat) : SameRecorder s (fireTrigger s t) := by
  have apart := rEvrCtrl_ne_rEvrTrg t
  unfold fireTrigger
  exact (regCount_sameRecorder s 55 48 1 apart).trans ((latchIrq_sameRecorder _ _).trans
    ((SameRecorder.ite (regPut_sameRecorder _ 0 0 0 apart) (.refl _)).trans
      (.ite (regCount_sameRecorder _ 63 48 1 rEvrCtrl_ne_rEvrStat) (setEvr_sameRecorder _ rfl))))

theorem fireCodeTriggers_sameRecorder (code : Nat) (ts : List Nat) (s : State) : SameRecorder s (fireCodeTriggers s code ts) := by
  induction ts generalizing s with
  | nil => exact .refl s
  | cons t ts ih => exact (SameRecorder.ite (fireTrigger_sameRecorder s t) (.refl s)).trans (ih _)

/-- A record submitted to a recorder that is on and has room is queued, and the recorder stays on. -/
theorem submitRec_queues {s : State} (e : EvRec) (hon : RecorderOn s) (hroom : s.evr.queue.length < 64) :
    (submitRec s e).evr.queue.Perm (s.evr.queue ++ [e]) ∧ RecorderOn (submitRec s e) := by
  obtain ⟨hfrozen, hctrl⟩ := hon
  have fired : SameRecorder (queueRec s e) (submitRec s e) := by
    have takes : ¬(regBits s rEvrCtrl 0 0 = 0 ∨ 64 ≤ s.evr.queue.length) := by omega
    rw [submitRec, if_neg (by simp [hfrozen]), if_neg takes]
    exact .ite (fireCodeTriggers_sameRecorder _ _ _) (.refl _)
  refine ⟨?_, fired.on ⟨hfrozen, hctrl⟩⟩
  rw [fired.queue]
  exact queue_queueRec s e

/-- A fault recorded where the recorder is on and has room. -/
theorem recordFault_queues {s : State} (code unit : Nat) (items : Items) (hon : RecorderOn s) (hroom : s.evr.queue.length < 64) :
    (recordFault s code unit items).evr.queue.Perm (s.evr.queue ++ [faultRec s code unit items]) ∧ RecorderOn (recordFault s code unit items) :=
  submitRec_queues _ hon hroom

/-! ### Stopping a room -/

/-- Recording a fault leaves every room. -/
@[simp] theorem getRoom_recordFault (s : State) (r code unit : Nat) (items : Items) : getRoom (recordFault s code unit items) r = getRoom s r :=
  (recordFault_one s (r + 1) code unit items).1 r (Nat.ne_of_lt (Nat.lt_succ_self r))

@[simp] theorem getRoom_sendAbort (s : State) (r code : Nat) : getRoom (sendAbort s code) r = getRoom s r :=
  (sendAbort_one s (r + 1) code).1 r (Nat.ne_of_lt (Nat.lt_succ_self r))

@[simp] theorem getRoom_noteRoomFault (s : State) (r code k arr : Nat) : getRoom (noteRoomFault s code k arr) r = getRoom s r :=
  (noteRoomFault_one s (r + 1) code k arr).1 r (Nat.ne_of_lt (Nat.lt_succ_self r))

@[simp] theorem sendAbort_evr (s : State) (code : Nat) : (sendAbort s code).evr = s.evr := by
  unfold sendAbort
  split <;> rfl

theorem run_stopRoom (s : State) (r code arr : Nat) : (getRoom (stopRoom s r code arr) r).run = .stopped := by
  unfold stopRoom
  dsimp only
  split
  · next h => exact h.1
  · rw [getRoom_sendAbort, getRoom_recordFault]
    change (getRoom (noteRoomFault _ _ _ _) r).run = _
    rw [getRoom_noteRoomFault, getRoom_modRoom]

/-- OPERATION_FAILED retires nothing (Table 16.6). -/
theorem noteRoomFault_opFailed (s : State) (k arr : Nat) : noteRoomFault s codeOpFailed k arr = s := by
  simp [noteRoomFault, codeOpFailed]

/-- What the recorder sees of a room that stops before the fault is recorded is nothing. -/
theorem stopped_sameRecorder (s : State) (r n : Nat) (g : Room → Room) : SameRecorder s (latchIrq (modRoom s r g) n) := ⟨rfl, rfl, rfl⟩

/-- OPERATION_FAILED in a running room is recorded where the recorder is on and has room. -/
theorem stopRoom_queues {s : State} {r : Nat} (hrun : (getRoom s r).run ≠ .stopped) (hon : RecorderOn s) (hroom : s.evr.queue.length < 64) :
    ∃ e : EvRec, e.ty = 1 ∧ e.code = codeOpFailed ∧ (stopRoom s r codeOpFailed 0).evr.queue.Perm (s.evr.queue ++ [e]) := by
  unfold stopRoom
  dsimp only
  rw [if_neg (fun h => hrun h.1), sendAbort_evr, noteRoomFault_opFailed]
  have before := stopped_sameRecorder s r (16 * ((getRoom s r).floor + 3) + 9) (fun q => { q with run := .stopped, stopBeat := s.beat })
  have recorded := (recordFault_queues codeOpFailed (unitRoom (getRoom s r).floor) (roomItems r (getRoom s r) 0) (before.on hon) hroom).1
  exact ⟨_, rfl, rfl, recorded⟩

/-! ### WAIT on a failed token (R110) -/

section
variable {s : State} {r : Nat} {h : Hold}

theorem run_waitEnded {q : Room} (hrun : q.run ≠ .stopped) : (waitEnded h q).run = .running := by
  rw [waitEnded, if_neg hrun]

/-- Under CF 1 a failed token stops the room, with both faults in the recorder's queue. -/
theorem waitEnds_failed (hrun : (getRoom s r).run ≠ .stopped) (hfail : h.cf = 1 ∧ bitOf (token (getRoom s r) h.tk).word 18 = true) :
    (getRoom (waitEnds s r h) r).run = .stopped ∧ (RecorderOn s → s.evr.queue.length < 63 →
      (∃ e ∈ (waitEnds s r h).evr.queue, e.ty = 1 ∧ e.code = bits (token (getRoom s r) h.tk).word 15 0) ∧
        ∃ e ∈ (waitEnds s r h).evr.queue, e.ty = 1 ∧ e.code = codeOpFailed) := by
  rw [waitEnds_fails hfail]
  refine ⟨run_stopRoom .., fun hon hroom => ?_⟩
  have waited : SameRecorder s (modRoom s r (waitEnded h)) := ⟨rfl, rfl, rfl⟩
  obtain ⟨own, on⟩ : (tokenFaultNoted s r h).evr.queue.Perm _ ∧ RecorderOn (tokenFaultNoted s r h) :=
    recordFault_queues _ _ _ (waited.on hon) (Nat.lt_succ_of_lt hroom)
  have room : (tokenFaultNoted s r h).evr.queue.length = s.evr.queue.length + 1 := own.length_eq.trans List.length_append
  have running : (getRoom (tokenFaultNoted s r h) r).run ≠ .stopped := by
    rw [tokenFaultNoted, getRoom_recordFault, getRoom_modRoom, run_waitEnded hrun]
    simp
  obtain ⟨e, hty, hcode, stop⟩ := stopRoom_queues running on (by omega)
  have ownStays := stop.mem_iff.mpr (List.mem_append_left _ (own.mem_iff.mpr (List.mem_append_right _ (List.mem_singleton_self _))))
  exact ⟨⟨_, ownStays, rfl, rfl⟩, e, stop.mem_iff.mpr (List.mem_append_right _ (List.mem_singleton_self _)), hty, hcode⟩

end

theorem waitLegal_of_cf {f : ControlSlot} (h : f.cf = 2 ∨ f.cf = 3) : waitLegal f = false := by
  rcases h with h | h <;> simp [waitLegal, controlLegal, h]

/-- A room that acts is of a module that no freeze has reached. -/
theorem not_frozen_of_acts {s : State} {r : Nat} (ha : Acts s r) : s.mgmt.frozen = none := by
  have issues := ha.2
  simp only [issuing, Bool.and_eq_true, Option.isNone_iff_eq_none] at issues
  exact issues.1.2

/-- Settles O59: the failure policy decides what `waitEnds` does, and CF 2 and 3 are not legal. -/
theorem failedTokens : Obligations.FailedTokens := by
  refine ⟨fun s r f ha => ?issue, fun r f hcf => ?word⟩
  case issue =>
    intro q k
    refine ⟨fun hlegal hrun hst hfailed => ⟨fun hcf => ?_, fun hcf => ?_⟩, fun hcf => ?_⟩
    · have ends := slot_completes (c := .wait r f) rfl ha hlegal (waitBody_complete hst)
      rw [waitEnds_passes (passes_of_policy (.inl hcf))] at ends
      have ended : token (waitEnded (waitOf s f q) q) f.tk.toNat = tokenWaited (waitOf s f q) k := token_waitEnded q
      refine ⟨_, ends, ?_, ?_, ?_, rfl, rfl⟩
      · rw [getRoom_modRoom, run_waitEnded hrun]
      · rw [getRoom_modRoom, ended]
        rfl
      · rw [getRoom_modRoom, ended]
        exact bits_setBits_late ..
    · obtain ⟨stopped, recorded⟩ := waitEnds_failed (h := waitOf s f q) hrun ⟨by simp [waitOf, hcf], hfailed⟩
      exact ⟨_, slot_completes rfl ha hlegal (waitBody_complete hst), stopped, fun hctrl hroom => recorded ⟨not_frozen_of_acts ha, hctrl⟩ hroom⟩
    · have run : runSlot s r (waitLegal f) (waitBody s r f) = stopRoom s r codeIllegal 0 := runSlot_illegal ha.2 (waitLegal_of_cf hcf)
      exact (powered_runs ha.1 _).trans (congrArg Host.Outcome.next run)
  case word => simp [controlCmd, waitLegal_of_cf hcf]

end Sys2Proof.Proofs
end

section
/-!
The statement on what a bundle's command may touch (04_room_program.md).
-/
namespace Sys2Proof.Proofs
open Sys2Proof.Machine Sys2Proof.Laws

/-! ### Bodies that stay within their room -/

/-- Where `x` succeeds, the state that it leaves differs from `s` in room `r` alone, and in what a stop records. -/
def Within {α : Type} (r : Nat) (s : State) (st : α → State) (x : Except SlotFault α) : Prop := ∀ a, x = .ok a → OneRoom r s (st a)

/-- A slot's effect that stays within room `r`. -/
abbrev StaysIn (r : Nat) (s : State) (x : SlotRes) : Prop := Within r s id x

section
variable {α β : Type} {r : Nat} {s : State}

theorem Within.ok {st : α → State} {a : α} (h : OneRoom r s (st a)) : Within r s st (.ok a) := by
  rintro _ ⟨⟩
  exact h

theorem Within.error {st : α → State} {e : SlotFault} : Within r s st (.error e) := nofun

theorem Within.ite {st : α → State} {x y : Except SlotFault α} {c : Prop} [Decidable c] (hx : Within r s st x) (hy : Within r s st y) :
    Within r s st (if c then x else y) := by
  split
  · exact hx
  · exact hy

/-- A check that refuses, or goes on. -/
theorem Within.unless {st : α → State} {x : Except SlotFault α} {e : SlotFault} {c : Prop} [Decidable c] (hx : Within r s st x) :
    Within r s st (if c then .error e else x) := .ite .error hx

theorem Within.bind {sa : α → State} {sb : β → State} {x : Except SlotFault α} {k : α → Except SlotFault β} (hx : Within r s sa x)
    (hk : ∀ a, Within r (sa a) sb (k a)) : Within r s sb (x.bind k) := by
  intro b hb
  cases x with
  | error e => cases hb
  | ok a => exact (hx a rfl).trans (hk a b hb)

/-! ### What the slots share -/

theorem stays_claim {arr src off n beat : Nat} : StaysIn r s (claim s r arr src off n beat) := fun _ => claim_one

theorem stays_claimRows {arr src off stride n beat k : Nat} : StaysIn r s (claimRows s r arr src off stride n beat k) := fun _ => claimRows_one k

theorem within_readNow {arr src off n beat : Nat} : Within r s Prod.fst (readNow s r arr src off n beat) := fun _ => readNow_one

theorem within_rowScales {gb off n : Nat} : Within r s Prod.fst (rowScales s r gb off n) := fun _ => rowScales_one

theorem within_useGang {gb gs gp : Nat} : Within r s Prod.fst (useGang s r gb gs gp) := fun _ => useGang_one

end

/-! ### The array slot -/

theorem storeFetch_one (s : State) (r off n : Nat) : OneRoom r s (storeFetch s r off n).1 := countWeak_one s r _ _

theorem loadRowAct_one (s : State) (r issued gb g plane fmt i off : Nat) : OneRoom r s (loadRowAct s r issued gb g plane fmt i off) := by
  have read := storeFetch_one s r off (roundUp (loadRowBytes g fmt i) 64)
  unfold loadRowAct
  split
  · next h => rw [h] at read; exact read.trans (addActionOf_one _ r _ _ _ _ _)
  · next h => rw [h] at read; exact read.trans (stopRoom_one _ r _ _)

theorem drainScalesAct_one (s : State) (r gb off n b : Nat) : OneRoom r s (drainScalesAct s r gb off n b) := by
  have read := storeFetch_one s r off n
  unfold drainScalesAct
  split
  · next h => rw [h] at read; exact read.trans (modRoom_one _ r _)
  · next h => rw [h] at read; exact read.trans (stopRoom_one _ r _ _)

theorem watchDue_one (s : State) (r : Nat) : OneRoom r s (watchDue s r).1 := by
  unfold watchDue
  dsimp only
  split <;> exact regCount_one s r _ _ _ _

section
variable {s : State} {r : Nat} {f : ArraySlot} {q : Room}

theorem astatBody_stays : StaysIn r s (astatBody s r f) := within_useGang.bind fun _ => .ok (addAction_one _ r _ _ _)

theorem aclrBody_stays : StaysIn r s (aclrBody s r f) := within_useGang.bind fun _ => .ok (addAction_one _ r _ _ _)

theorem aswapBody_stays : StaysIn r s (aswapBody s r f q) := within_useGang.bind fun _ => .unless (.ok (modRoom_one _ r _))

theorem aloadBody_stays : StaysIn r s (aloadBody s r f q) := by
  refine within_useGang.bind fun gang => .unless (stays_claimRows.bind fun t => ?_)
  have ninth {c : Prop} [Decidable c] {arr src off n beat : Nat} : StaysIn r t (if c then claim t r arr src off n beat else .ok t) :=
    .ite stays_claim (.ok (OneRoom.refl r t))
  refine ninth.bind fun u => .unless (.ok ?_)
  exact (modRoom_one u r _).trans ((loadRowAct_one _ r _ _ _ _ _ _ _).trans
    ((foldl_one (fun s _ => addActionOf_one s r _ _ _ _ _) _ _).trans (postInc_one _ r _ _)))

/-- The scale bytes of a row, where it has any. -/
theorem within_scales {c : Prop} [Decidable c] {gb off n : Nat} : Within r s Prod.fst (if c then .ok (s, []) else rowScales s r gb off n) :=
  .ite (.ok (OneRoom.refl r s)) within_rowScales

/-- The numeric watch's sampling of a row that it is due for. -/
theorem sampled_one (s : State) (r : Nat) (c : Prop) [Decidable c] : OneRoom r s (if c then watchDue s r else (s, false)).1 := by
  split
  · exact watchDue_one s r
  · exact OneRoom.refl r s

theorem arowBody_stays : StaysIn r s (arowBody s r f q) := by
  refine within_useGang.bind fun gang => .unless (.unless (within_readNow.bind fun x => within_scales.bind fun y => .ok ?_))
  exact (modRoom_one _ r _).trans ((modRoom_one _ r _).trans ((modRoom_one _ r _).trans ((sampled_one _ r _).trans ((modRoom_one _ r _).trans
    ((addActionOf_one _ r _ _ _ _ _).trans ((postInc_one _ r _ _).trans (postInc_one _ r _ _)))))))

theorem aorowBody_stays : StaysIn r s (aorowBody s r f q) := by
  refine within_useGang.bind fun gang => .unless (within_readNow.bind fun x => within_readNow.bind fun y => within_scales.bind fun z => ?_)
  have issued {u : State} (h : OneRoom r z.1 u) {c d : Prop} [Decidable c] [Decidable d] {due ord arr src off stride n beat k : Nat} {op : MicroOp} :
      StaysIn r z.1 (if c then (if d then claimRows (addAction u r due ord op) r arr src off stride n beat k else .ok (addAction u r due ord op))
        else .ok u) :=
    have drains := h.trans (addAction_one u r due ord op)
    .ite (.ite (fun _ ht => drains.trans (claimRows_one k ht)) (.ok drains)) (.ok h)
  refine (issued ((addActionOf_one _ r _ _ _ _ _).trans (modRoom_one _ r _))).bind fun w => .ok ?_
  exact (postInc_one _ r _ _).trans ((postInc_one _ r _ _).trans (postInc_one _ r _ _))

/-- Claims made one after another. -/
theorem stays_foldl {α : Type} {k : State → α → SlotRes} (hk : ∀ s a, StaysIn r s (k s a)) (l : List α) {o : SlotRes} (ho : StaysIn r s o) :
    StaysIn r s (l.foldl (fun o a => o.bind (fun s => k s a)) o) := by
  induction l generalizing o with
  | nil => exact ho
  | cons a l ih => exact ih (ho.bind fun t => hk t a)

theorem adrainBody_stays : StaysIn r s (adrainBody s r f q) := by
  refine within_useGang.bind fun gang => .unless (.ite (.ok ?_) (.unless (stays_claimRows.bind fun t =>
    (stays_foldl (fun s _ => stays_claim) _ (.ok (OneRoom.refl r t))).bind fun u => .ok ?_)))
  · exact (addAction_one _ r _ _ _).trans (postInc_one _ r _ _)
  · have scales {c : Prop} [Decidable c] {asc n b : Nat} : OneRoom r u (if c then u else drainScalesAct u r f.gb.toNat asc n b) :=
      ite_one (OneRoom.refl r u) (drainScalesAct_one u r _ _ _ _)
    exact scales.trans ((foldl_one (fun s _ => addActionOf_one s r _ _ _ _ _) _ _).trans ((modRoom_one _ r _).trans
      ((foldl_one (fun s _ => addActionOf_one s r _ _ _ _ _) _ _).trans (postInc_one _ r _ _))))

end

/-! ### The vector slot -/

section
variable {s : State} {r : Nat} {f : VectorSlot} {q : Room}

theorem laneBody_stays {lat : Nat} {port : Port} {fn : Lane → Lane → Lane → Lane × NumFlags} : StaysIn r s (laneBody s r f q lat port fn) :=
  .ok ((addResultOf_one s r _ _ _ _).trans (vecNote_one _ r _))

theorem iterBody_stays {fn : Lane → Lane → Lane → Lane × NumFlags} : StaysIn r s (iterBody s r f q fn) :=
  .unless fun t ht => (modRoom_one s r _).trans (laneBody_stays t ht)

theorem sfuBody_stays {fn : Lane → Lane × NumFlags} : StaysIn r s (sfuBody s r f q fn) :=
  .unless fun t ht => (modRoom_one s r _).trans (laneBody_stays t ht)

theorem crossBody_stays {fn : Lane → Lane → Lane × NumFlags} {ident : Lane} : StaysIn r s (crossBody s r f q fn ident) :=
  .ok ((addResultOf_one s r _ _ _ _).trans (vecNote_one _ r _))

theorem vxtrBody_stays : StaysIn r s (vxtrBody s r f q) := .ok (addResultOf_one s r _ _ _ _)

theorem vldBody_stays : StaysIn r s (vldBody s r f q) :=
  within_readNow.bind fun _ => .ok ((addResultOf_one _ r _ _ _ _).trans (postInc_one _ r _ _))

theorem vstBody_stays : StaysIn r s (vstBody s r f q) :=
  stays_claim.bind fun _ => .ok ((addActionOf_one _ r _ _ _ _ _).trans ((vecNote_one _ r _).trans (postInc_one _ r _ _)))

end

/-! ### The move slot and the control slot -/

section
variable {s : State} {r : Nat} {q : Room}

theorem moveBody_stays {kind : ElasticKind} {f : MoveSlot} : StaysIn r s (moveBody s r kind f q) :=
  .unless (.ok ((modRoom_one s r _).trans ((ite_one (OneRoom.refl r _) (recordFault_one _ r _ _ _)).trans (addAction_one _ r _ _ _))))

theorem scalarOut_stays {lat d : Nat} {v : Word} : StaysIn r s (scalarOut s r lat d v) := .ok (addResultOf_one s r _ _ _ _)

theorem addressOut_stays {d : Nat} {v : Word} : StaysIn r s (addressOut s r d v) := .ok (addResultOf_one s r _ _ _ _)

theorem branchTo_stays {target : Nat} : StaysIn r s (branchTo s r q target) := .unless (.ok (modRoom_one s r _))

variable {f : ControlSlot}

theorem loopBody_stays : StaysIn r s (loopBody s r f q) := .ite (branchTo_stays.bind fun _ => scalarOut_stays) scalarOut_stays

theorem bnzBody_stays : StaysIn r s (bnzBody s r f q) := .ite branchTo_stays (.ok (OneRoom.refl r s))

theorem waitBody_stays : StaysIn r s (waitBody s r f q) := by
  unfold waitBody
  dsimp only
  split
  case h_1 => exact .error
  case h_2 => exact .ite (.ok (OneRoom.refl r s)) (.ok (modRoom_one s r _))
  case h_3 => exact .ok (waitEnds_one s r _)

theorem rstatBody_stays : StaysIn r s (rstatBody s r f q) :=
  .ok ((ite_one (modRoom_one s r _) (OneRoom.refl r s)).trans (addResultOf_one _ r _ _ _ _))

theorem pendBody_stays : StaysIn r s (pendBody s r q) := .unless (.ite (.ok (OneRoom.refl r s)) (.ok (endProgram_one s r _ _)))

theorem haltBody_stays : StaysIn r s (haltBody s r) := .ite (.ok (OneRoom.refl r s)) (.ok (endProgram_one s r _ _))

theorem reportLate_one (s : State) (r : Nat) : OneRoom r s (reportLate s r) := (setSeq_one s r _).trans (modRoom_one _ r _)

theorem syncBody_stays : StaysIn r s (syncBody s r f q) := by
  unfold syncBody
  split
  · exact .unless (.ok ((modRoom_one s r _).trans ((reportLate_one _ r).trans (arriveRoom_one _ r))))
  · exact .error

end

/-! ### What a slot's command does, as a whole -/

/-- What a slot's command may have done where it runs: nothing beyond its room and what a stop records, and in an issuing room a slot of an illegal form (R91)
stops the room. -/
def SlotEffect (s : State) (r : Nat) (legal : Bool) (t : State) : Prop :=
  OneRoom r s t ∧ (legal = false → issuing s r = true → t = stopRoom s r codeIllegal 0)

/-- The command is a slot of some room, and where the module is powered its effect is a slot's. -/
def RunsAsSlot (c : Instr) (s : State) : Prop :=
  ∀ r legal, slotForm c = some (r, legal) → ∃ t, exec c s = powered s (.next t) ∧ SlotEffect s r legal t

section
variable {s : State} {r : Nat} {legal : Bool}

theorem runSlot_effect {body : Room → SlotRes} (h : StaysIn r s (body (getRoom s r))) : SlotEffect s r legal (runSlot s r legal body) :=
  ⟨runSlot_one h, fun hl hi => runSlot_illegal hi hl⟩

theorem syncRun_effect {f : ControlSlot} : SlotEffect s r (controlLegal 16 0 f) (syncRun s r f) := by
  refine ⟨ite_one ?_ ?_, fun hl hi => ?_⟩
  · exact (runSlot_one syncBody_stays).trans (latchFault_one _ r _ _ _)
  · exact runSlot_one syncBody_stays
  · simp only [syncRun, hl, Bool.and_false, Bool.false_and, Bool.false_eq_true, if_false, runSlot_illegal hi]

theorem runsAsSlot_of_effect {c : Instr} {t : State} (hform : slotForm c = some (r, legal)) (hexec : exec c s = powered s (.next t))
    (h : SlotEffect s r legal t) : RunsAsSlot c s := by
  intro r' legal' hform'
  obtain ⟨rfl, rfl⟩ : r = r' ∧ legal = legal' := by simpa only [hform, Option.some.injEq, Prod.mk.injEq] using hform'
  exact ⟨t, hexec, h⟩

/-- A slot's command runs its body in its room. -/
theorem runsAsSlot_of_body {c : Instr} {body : Room → SlotRes} (hform : slotForm c = some (r, legal))
    (hexec : exec c s = powered s (.next (runSlot s r legal body))) (h : StaysIn r s (body (getRoom s r))) : RunsAsSlot c s :=
  runsAsSlot_of_effect hform hexec (runSlot_effect h)

end

theorem runsAsSlot (c : Instr) (s : State) : RunsAsSlot c s := by
  cases c with
  | aload r f => exact runsAsSlot_of_body rfl rfl aloadBody_stays
  | aswap r f => exact runsAsSlot_of_body rfl rfl aswapBody_stays
  | arow r f => exact runsAsSlot_of_body rfl rfl arowBody_stays
  | aorow r f => exact runsAsSlot_of_body rfl rfl aorowBody_stays
  | adrain r f => exact runsAsSlot_of_body rfl rfl adrainBody_stays
  | astat r f => exact runsAsSlot_of_body rfl rfl astatBody_stays
  | aclr r f => exact runsAsSlot_of_body rfl rfl aclrBody_stays
  | vadd r f | vsub r f | vmul r f | vfma r f | vmin r f | vmax r f | vceq r f | vclt r f | vcle r f | vsel r f | viadd r f | visub r f | vimul r f
  | vrelu r f | vrelud r f | vcvtf r f | vcvti r f | vbc r f => exact runsAsSlot_of_body rfl rfl laneBody_stays
  | vdiv r f | vsqrt r f => exact runsAsSlot_of_body rfl rfl iterBody_stays
  | vsfu r f | vsfud r f => exact runsAsSlot_of_body rfl rfl sfuBody_stays
  | vrsum r f | vrmin r f | vrmax r f => exact runsAsSlot_of_body rfl rfl crossBody_stays
  | vxtr r f => exact runsAsSlot_of_body rfl rfl vxtrBody_stays
  | vld r f => exact runsAsSlot_of_body rfl rfl vldBody_stays
  | vst r f => exact runsAsSlot_of_body rfl rfl vstBody_stays
  | mload r f | mstore r f | mroom r f | matom r f | mgather r f | mscatter r f | msend r f | mrecv r f | mreduce r f | mfence r f | mpref r f =>
    exact runsAsSlot_of_body rfl rfl moveBody_stays
  | xset r f | xadd r f | xsub r f | xmul r f | xand r f | xor r f | xshl r f | xshr r f | xaddi r f | tstat r f | ftime r f =>
    exact runsAsSlot_of_body rfl rfl scalarOut_stays
  | amov r f | aadd r f => exact runsAsSlot_of_body rfl rfl addressOut_stays
  | jmp r f => exact runsAsSlot_of_body rfl rfl branchTo_stays
  | loop r f => exact runsAsSlot_of_body rfl rfl loopBody_stays
  | bnz r f => exact runsAsSlot_of_body rfl rfl bnzBody_stays
  | wait r f => exact runsAsSlot_of_body rfl rfl waitBody_stays
  | rstat r f => exact runsAsSlot_of_body rfl rfl rstatBody_stays
  | pend r f => exact runsAsSlot_of_body rfl rfl pendBody_stays
  | halt r f => exact runsAsSlot_of_body rfl rfl haltBody_stays
  | sync r f => exact runsAsSlot_of_effect rfl rfl syncRun_effect
  | _ => exact nofun

/-- In every module: where its mains are idle, a slot's command does nothing. -/
theorem exec_slot {c : Instr} {s t : State} {r : Nat} {legal : Bool} (hform : slotForm c = some (r, legal)) (hexec : exec c s = .next t) :
    OneRoom r s t ∧ (legal = false → Acts s r → t = stopRoom s r codeIllegal 0) := by
  obtain ⟨u, hu, hone, hstop⟩ := runsAsSlot c s r legal hform
  rw [hu] at hexec
  unfold powered at hexec
  split at hexec
  case isTrue hidle =>
    obtain rfl := Host.Outcome.next.inj hexec
    exact ⟨OneRoom.refl r s, fun _ hacts => absurd hidle (by simpa using hacts.1)⟩
  case isFalse =>
    obtain rfl := Host.Outcome.next.inj hexec
    exact ⟨hone, fun hl hacts => hstop hl hacts.2⟩

/-- Settles O52: every slot's body writes its own room and what a stop records. -/
theorem slotsTouchOneRoom : Obligations.SlotsTouchOneRoom := by
  intro c s t r legal hform hexec
  obtain ⟨hone, hstop⟩ := exec_slot hform hexec
  obtain ⟨mem, poison, badWords, now, beat, pending, mgmt, cel, ldr, den, col, fab, jrnl, att, por, job, cvu, pol, -⟩ := hone.frame
  exact ⟨hone.1, mem, poison, badWords, now, beat, pending, mgmt, cel, ldr, den, col, fab, jrnl, att, por, job, cvu, pol, hstop⟩

end Sys2Proof.Proofs
end

section
/-!
The statements on the front of the queue and on beats (05_schedule_contract.md).
-/
namespace Sys2Proof.Proofs
open Sys2Proof.Machine Sys2Proof.Laws

/-! ### The queue -/

/-- Settles O2: `step` on a queue that is not empty. -/
theorem stepRunsFrontCommand : Obligations.StepRunsFrontCommand := fun _ _ _ => rfl

/-! ### Beats (R121) -/

/-- Whether the cycle `d` cycles after t0 is a beat under stretch code `k`. -/
abbrev BeatAfter (k d : Nat) : Prop := 16 * d % (16 + k) < 16

section
variable {k : Nat}

/-- The beats among the first `n` cycles from t0 are a quotient, which a cycle raises by one exactly where it is a beat. -/
theorem count_beatAfter (n : Nat) : Nat.count (BeatAfter k) n = (16 * n + k) / (16 + k) := by
  have hpos : 0 < 16 + k := by omega
  induction n with
  | zero => rw [Nat.count_zero, Nat.div_eq_of_lt (by omega)]
  | succ n ih =>
    have hdiv := Nat.div_add_mod (16 * n) (16 + k)
    have hmod := Nat.mod_lt (16 * n) hpos
    have hnext : 16 * (n + 1) + k = 16 * n % (16 + k) + (16 + k) * (16 * n / (16 + k) + 1) := by
      rw [Nat.mul_add (16 + k)]
      omega
    rw [Nat.count_succ, ih, hnext, Nat.add_mul_div_left _ _ hpos, Nat.div_eq_of_lt hmod]
    by_cases hbeat : 16 * n % (16 + k) < 16
    · have hhere : 16 * n + k = (16 * n % (16 + k) + k) + (16 + k) * (16 * n / (16 + k)) := by omega
      rw [if_pos hbeat, hhere, Nat.add_mul_div_left _ _ hpos, Nat.div_eq_of_lt (by omega)]
      omega
    · have hhere : 16 * n + k = (16 * n % (16 + k) - 16) + (16 + k) * (16 * n / (16 + k) + 1) := by
        rw [Nat.mul_add (16 + k)]
        omega
      rw [if_neg hbeat, hhere, Nat.add_mul_div_left _ _ hpos, Nat.div_eq_of_lt (by omega), Nat.add_zero]

theorem count_beatAfter_window (d : Nat) : Nat.count (fun i => BeatAfter k (d + i)) (16 + k) = 16 := by
  have hsum := Nat.count_add (BeatAfter k) d (16 + k)
  have hend : 16 * (d + (16 + k)) + k = 16 * d + k + (16 + k) * 16 := by omega
  rw [count_beatAfter, count_beatAfter, hend, Nat.add_mul_div_left _ _ (by omega)] at hsum
  omega

theorem le_count_beatAfter {p n : Nat} (h : p * (16 + k) ≤ 16 * n) : p ≤ Nat.count (BeatAfter k) n := by
  rw [count_beatAfter, Nat.le_div_iff_mul_le (by omega)]
  omega

end

section
variable (s : State)

theorem isBeat_iff (t : Nat) : isBeat { s with now := t } = true ↔ BeatAfter (regBits s rSchStretch 4 0) (t - s.seq.t0) := decide_eq_true_iff

/-- The beats among `n` cycles from the one `d` cycles after t0. -/
theorem length_filter_isBeat (d n : Nat) : ((List.range n).filter (fun i => isBeat { s with now := s.seq.t0 + d + i })).length =
    Nat.count (fun i => BeatAfter (regBits s rSchStretch 4 0) (d + i)) n := by
  have hsub (i : Nat) : s.seq.t0 + d + i - s.seq.t0 = d + i := by omega
  rw [← List.countP_eq_length_filter, Nat.count]
  exact List.countP_congr fun i _ => by rw [isBeat_iff, hsub, decide_eq_true_iff]

/-- F(P, k) is the least number of cycles of which 16 in every 16 + k make P. -/
theorem beatCycles_bounds (p : Nat) :
    p * (16 + regBits s rSchStretch 4 0) ≤ 16 * beatCycles s p ∧ 16 * beatCycles s p < p * (16 + regBits s rSchStretch 4 0) + 16 := by
  rw [beatCycles, ceilDiv]
  omega

end

/-- Settles O53: the beats of the first cycles are counted by a quotient, which a window of 16 + k cycles raises by 16. -/
theorem beatsOfAStretch : Obligations.BeatsOfAStretch := by
  intro s k t0 beat
  have hbeat (t : Nat) : beat t = true ↔ BeatAfter k (t - t0) := isBeat_iff s t
  refine ⟨fun _ => ⟨fun t _ => hbeat t, fun t ht => ?window, ?origin, fun hk t _ => ?every, fun p => ?first⟩, fun t => rfl⟩
  case window =>
    obtain ⟨d, rfl⟩ := Nat.exists_eq_add_of_le ht
    exact (length_filter_isBeat s d (16 + k)).trans (count_beatAfter_window d)
  case origin =>
    rw [hbeat, Nat.sub_self, BeatAfter, Nat.mul_zero, Nat.zero_mod]
    omega
  case every =>
    rw [hbeat, hk]
    exact Nat.mod_lt _ (by omega)
  case first =>
    obtain ⟨hlo, hhi⟩ := beatCycles_bounds s p
    have hcount := length_filter_isBeat s 0 (beatCycles s p)
    simp only [Nat.add_zero, Nat.zero_add] at hcount
    exact ⟨hhi, hlo, (le_count_beatAfter hlo).trans_eq hcount.symm⟩

end Sys2Proof.Proofs
end

section
/-!
The statements on turns, sync points and barriers (05_schedule_contract.md).
-/
namespace Sys2Proof.Proofs
open Sys2Proof.Machine Sys2Proof.Laws

/-! ### Turns and releases (R128, R130, R138) -/

section
variable {s : State}

theorem exec_turnSwap (h : Powered s) (failed : Bool) : exec (.turnSwap failed) s = execTurnSwap failed s := powered_runs h _

theorem exec_syncRelease (h : Powered s) : exec .syncRelease s = execSyncRelease s := powered_runs h _

end

/-- The state with the rooms of the next turn in their positions, that turn resident. -/
def nextTurn (s : State) : State :=
  let b := turnAt s s.seq.phase (s.seq.turnsDone + 1)
  let t := swapRooms s s.seq.phase b
  { t with seq := { t.seq with turn := b, turnsDone := t.seq.turnsDone + 1 } }

theorem execTurnSwap_over {s : State} {y : SyncEnt} (failed : Bool) (hsync : curSync s = some y) (hrun : schState s = 3) (hgo : s.seq.stopped = false)
    (hphase : s.seq.inPhase = true) (hleft : s.seq.turnsDone + 1 < tau s) (hover : turnOver s y = true) :
    execTurnSwap failed s = if failed then .next (stopFault s rSchFault 16 codeSwapFailed unitSch [])
      else .next (startTurn (nextTurn s) (nextTurn s).seq.phase (syncMembers (nextTurn s) y)) := by
  have due : ¬((!s.seq.inPhase) = true ∨ schState s ≠ 3 ∨ s.seq.stopped = true ∨ tau s ≤ s.seq.turnsDone + 1 ∨ turnOver s y = false) := by
    simp [hphase, hrun, hgo, hover, hleft]
  rw [execTurnSwap, hsync]
  exact if_neg due

/-- Settles O17: a turn that is over swaps or fails, and a module sync whose release is due goes on. -/
theorem turnsAndReleasesComplete : Obligations.TurnsAndReleasesComplete := by
  intro s y hp hsync hrun hgo
  refine ⟨fun hphase hleft hover => ?turn, fun hscope hlock harr => ?release⟩
  case turn =>
    have swap (failed : Bool) := (exec_turnSwap hp failed).trans (execTurnSwap_over failed hsync hrun hgo hphase hleft hover)
    exact ⟨swap false, swap true⟩
  case release =>
    intro rel hdue
    have due : ¬(y.scope = 2 ∨ schState s ≠ 3 ∨ s.seq.stopped = true ∨ s.seq.everLocked = false ∨ roomsArrived s y = false ∨ s.now < rel) := by
      simp [hscope, hrun, hgo, hlock, harr, hdue]
    rw [exec_syncRelease hp, execSyncRelease, hsync]
    exact if_neg due

/-! ### Transfers of barriers (R358, R365) -/

section
variable {s : State}

/-- A fresh transfer whose destination answers STATUS 0 leaves the outcome, acknowledged and remembered (R358). -/
theorem deliver_fresh {x : Transfer} {body : State → State × Option Nat} {t : State} (h : Fresh s x) (hbody : body s = (t, some 0)) :
    deliver s x body = delivered t x := by
  obtain ⟨hrank, hfloor, hheader, hnew⟩ := h
  have here : ¬(x.drank ≠ rank s ∨ 10 ≤ x.dfloor) := by
    rw [not_or, not_not, not_le]
    exact ⟨hrank, hfloor⟩
  have unseen : s.fab.done.find? (fun d => decide (d.srank = x.srank ∧ d.sfloor = x.sfloor ∧ d.xid = x.xid ∧ s.now < d.expiry)) = none := by
    simpa only [List.find?_eq_none, decide_eq_true_eq] using hnew
  rw [deliver, if_neg here, unseen]
  simp only [hheader, if_true, hbody]
  rfl

/-- The first copy of a barrier transfer acts, and is delivered. -/
theorem takeBarrier_fresh {x : Transfer} {sub : Nat} (act : State → State) (h : FreshBarrier s x sub) :
    takeBarrier s x sub act = delivered (act (noteCopy s x)) x := by
  obtain ⟨hfresh, hkind, hsub, hfirst⟩ := h
  have taken : ¬(x.kind ≠ 8 ∨ argNat x 0 1 ≠ sub) := by
    rw [not_or, not_not, not_not]
    exact ⟨hkind, hsub⟩
  rw [takeBarrier, if_neg taken]
  exact deliver_fresh hfresh (if_pos hfirst)

/-! ### The barrier awaited (R129, R131) -/

section
variable {y : SyncEnt}

theorem exec_barrierArrival (h : Powered s) : exec .barrierArrival s = execBarrierArrival s := powered_runs h _

theorem exec_barrierArriveReceive (h : Powered s) (x : Transfer) : exec (.barrierArriveReceive x) s = execBarrierArriveReceive x s := powered_runs h _

theorem exec_rootDeadline (h : Powered s) : exec .rootDeadline s = execRootDeadline s := powered_runs h _

theorem exec_tolerantRelease (h : Powered s) : exec .tolerantRelease s = execTolerantRelease s := powered_runs h _

theorem exec_barrierTimeout (h : Powered s) : exec .barrierTimeout s = execBarrierTimeout s := powered_runs h _

/-- The state in which a module arrives: at a start barrier it has read its journal's records for a replay (R346). -/
def atArrival (s : State) (y : SyncEnt) : State := if y.role = 1 then readReplay s else s

/-- At a commit barrier a module is held by a frame left over, and fails with more turns than the image allows (R137). -/
def MayCommit (s : State) : Prop := (∀ x ∈ s.col.early, x.step ≠ stepNo s) ∧ tauMod s ≤ s.seq.image.turnsMax

theorem strayFrame_eq_none (h : ∀ x ∈ s.col.early, x.step ≠ stepNo s) : strayFrame s = none := by
  simpa only [strayFrame, List.find?_eq_none, decide_eq_true_eq] using h

/-- The module's own arrival taken, and its subtree's forwarded. -/
def arrived (u : State) (y : SyncEnt) : State :=
  let a := ownArrival u y
  passAbort (forwardArrival
    { a.1 with seq := { a.1.seq with barrier := { a.1.seq.barrier with own := some u.now, children := [(rank u, a.2)] } } } y)

theorem execBarrierArrival_free (hbar : curBarrier s = some y) (harr : roomsArrived s y = true) (hrel : s.seq.barrier.released = false)
    (hown : s.seq.barrier.own = none) (hmay : mayArrive (atArrival s y) y = true) (hcommit : y.role = 2 → MayCommit s) :
    execBarrierArrival s = .next (arrived (atArrival s y) y) := by
  have hstray : ¬(y.role = 2 ∧ (strayFrame (atArrival s y)).isSome = true) := by
    rintro ⟨hrole, h⟩
    rw [atArrival, if_neg (by omega), strayFrame_eq_none (hcommit hrole).1] at h
    exact absurd h (by decide)
  have hturns : ¬(y.role = 2 ∧ (atArrival s y).seq.image.turnsMax < tauMod (atArrival s y)) := by
    rintro ⟨hrole, h⟩
    rw [atArrival, if_neg (by omega)] at h
    exact absurd (hcommit hrole).2 (by omega)
  rw [execBarrierArrival, hbar]
  simp only [harr, hrel, hown, Bool.not_true, Bool.false_eq_true, if_false, Option.isSome_none]
  change (if (!(mayArrive (atArrival s y) y)) = true then _ else _) = _
  rw [hmay, if_neg (by decide)]
  change (if y.role = 2 ∧ (strayFrame (atArrival s y)).isSome = true then _ else _) = _
  rw [if_neg hstray]
  exact if_neg hturns

theorem execBarrierArriveReceive_fresh {x : Transfer} (hbar : curBarrier s = some y) (h : FreshBarrier s x 1) :
    execBarrierArriveReceive x s = .next (delivered (passAbort (forwardArrival
      { noteCopy s x with seq := { (noteCopy s x).seq with early := (noteCopy s x).seq.early ++ [x] } } y)) x) := by
  have same : curBarrier { noteCopy s x with seq := { (noteCopy s x).seq with early := (noteCopy s x).seq.early ++ [x] } } = some y := hbar
  rw [execBarrierArriveReceive, takeBarrier_fresh _ h]
  simp only [same]

theorem execRootDeadline_whole {tc : Nat} (hbar : curBarrier s = some y) (hroot : s.seq.barrier.rootAt = some tc) (hnot : s.seq.barrier.notice = none)
    (hab : s.seq.abort = none) (hdue : tPlanNow s ≤ s.now + horizon s y) (hrec : recordedAbsent s y = none) :
    execRootDeadline s =
      .next (takeNotice s y (rootNotice s y (if tc + horizon s y ≤ tPlanNow s then tPlanNow s else tc + horizon s y) [])) := by
  have due : ¬(s.seq.barrier.notice.isSome = true ∨ s.seq.abort.isSome = true ∨ s.now + horizon s y < tPlanNow s) := by
    simp [hnot, hab, hdue]
  simp only [execRootDeadline, hbar, hroot, if_neg due, hrec]

theorem execTolerantRelease_due (hbar : curBarrier s = some y) (hrank : rank s = 0) (hpol : y.policy = 1) (hnot : s.seq.barrier.notice = none)
    (hroot : s.seq.barrier.rootAt = none) (hab : s.seq.abort = none) (hrec : recordedAbsent s y = none) (hdue : tPlanNow s + y.theta ≤ s.now) :
    execTolerantRelease s = .next (takeNotice s y (rootNotice s y (tPlanNow s + y.theta + horizon s y)
      ((upTo s.seq.image.modules).filter (fun r => !(((ownEntry s ++ childArrivals s y).map (fun x => x.2.ranks)).flatten.contains r))))) := by
  have due : ¬(rank s ≠ 0 ∨ y.policy ≠ 1 ∨ s.seq.barrier.notice.isSome = true ∨ s.seq.barrier.rootAt.isSome = true ∨ s.seq.abort.isSome = true ∨
      (recordedAbsent s y).isSome = true ∨ s.now < tPlanNow s + y.theta) := by
    simp [hrank, hpol, hnot, hroot, hab, hrec, hdue]
  rw [execTolerantRelease, hbar]
  exact if_neg due

theorem execBarrierTimeout_due (hbar : curBarrier s = some y) (hrank : rank s = 0) (hpol : y.policy ≠ 1 ∨ (recordedAbsent s y).isSome = true)
    (hnot : s.seq.barrier.notice = none) (hroot : s.seq.barrier.rootAt = none) (hab : s.seq.abort = none)
    (hdue : tPlanNow s + s.seq.image.barrierLimit ≤ s.now) :
    execBarrierTimeout s = .next (passAbort (stopFault s rSchFault 16 codeBarrierTimeout unitSch [(y.id, 2)])) := by
  have waits : ¬(y.policy = 1 ∧ (recordedAbsent s y).isNone = true) := by
    rw [not_and_or, Bool.not_eq_true, Option.isNone_eq_false_iff]
    exact hpol
  have due : ¬(rank s ≠ 0 ∨ (y.policy = 1 ∧ (recordedAbsent s y).isNone = true) ∨ s.seq.barrier.notice.isSome = true ∨
      s.seq.barrier.rootAt.isSome = true ∨ s.seq.abort.isSome = true ∨ s.now < tPlanNow s + s.seq.image.barrierLimit) := by
    simp only [hrank, waits, hnot, hroot, hab, ne_eq, not_true_eq_false, Option.isSome_none, Bool.false_eq_true, false_or]
    omega
  rw [execBarrierTimeout, hbar]
  exact if_neg due

end
end

/-- Settles O18: each command of a barrier meets the one branch that its conditions leave. -/
theorem barrierArrivalsComplete : Obligations.BarrierArrivalsComplete := by
  intro s y hp hbar
  refine ⟨?own, ?child, fun hnot hab => ⟨?whole, fun hroot hrank => ⟨?tolerant, ?timeout⟩⟩⟩
  case own =>
    intro u harr hrel hown hmay hcommit a
    exact (exec_barrierArrival hp).trans (execBarrierArrival_free hbar harr hrel hown hmay hcommit)
  case child => exact fun x hx => (exec_barrierArriveReceive hp x).trans (execBarrierArriveReceive_fresh hbar hx)
  case whole => exact fun tc hroot hdue hrec => (exec_rootDeadline hp).trans (execRootDeadline_whole hbar hroot hnot hab hdue hrec)
  case tolerant =>
    exact fun hpol hrec hdue => (exec_tolerantRelease hp).trans (execTolerantRelease_due hbar hrank hpol hnot hroot hab hrec hdue)
  case timeout => exact fun hpol hdue => (exec_barrierTimeout hp).trans (execBarrierTimeout_due hbar hrank hpol hnot hroot hab hdue)

/-! ### A stop that a commit barrier's release precedes (R132) -/

/-- A job of one module, rank 0, whose own abort stops it in a cycle in which its commit barrier's release is due. The floating moves that the release starts
(R154) name a single entry, and it is none of the 256: its first word would lie at FAB_JOB's address. (The two windows over the lowest granule map it to itself;
they end the search for the backing of the load records' lines.) -/
def strayMove : State :=
  let commit : SyncEnt := { id := 4, scope := 2, policy := 0, role := 2, floor := 0, fanin := 2, theta := 0, members := [] }
  { State.reset with
    regs := [(rSchState, 3), (rCelFloatA 0, 2 ^ 20), (rUpdPwin 0, 2 ^ 40), (rPwrStatus, 2)]
    cel := { moves := [(rFabJob - rCelFloatA 0) / 0x10] }
    seq := {
      image := { modules := 1, syncs := [commit] }, sync := 4, barrier := { notice := some { sync := 4, release := 0 } }
      abort := some { code := 1, origin := 0, stop := some 0 } } }

/-- The start of the move writes into FAB_JOB.RANK, so the stop no longer finds the abort to be the module's own, and leaves STOPPED. -/
theorem schState_stepStop_strayMove : schState (nextOr strayMove (exec .stepStop strayMove)) = 4 := by decide +kernel

/-- Refutes O19: in its last clause the stop's release may change the module's rank, where the accepted moves name an entry that does not exist; then SCH_STATE
holds STOPPED in the module that the abort came from. -/
theorem not_noticesAndAbortsComplete : ¬ Obligations.NoticesAndAbortsComplete := by
  intro h
  obtain ⟨-, -, -, hstop⟩ := h strayMove (by decide +kernel)
  obtain ⟨t, ht, -, -, hstate⟩ := hstop _ 0 rfl rfl (by decide +kernel) (by decide +kernel)
  have own : schState t = 5 := by
    rw [hstate]
    decide +kernel
  have stopped := schState_stepStop_strayMove
  rw [ht, nextOr, own] at stopped
  exact absurd stopped (by decide)

end Sys2Proof.Proofs
end

section
/-!
The statement on fabric time on the links (05_schedule_contract.md).
-/
namespace Sys2Proof.Proofs
open Sys2Proof.Machine Sys2Proof.Laws

/-! ### Time exchanges (R118, R366, R367) -/

section
variable {s : State}

theorem exec_timeExchange (h : Powered s) (ok : Bool) (t1 t2 t3 t4 : Nat) : exec (.timeExchange ok t1 t2 t3 t4) s = execTimeExchange ok t1 t2 t3 t4 s :=
  powered_runs h _

theorem exec_holdoverExpiry (h : Powered s) : exec .holdoverExpiry s = execHoldoverExpiry s := powered_runs h _

theorem exec_timeUnlocked (h : Powered s) : exec .timeUnlocked s = execTimeUnlocked s := powered_runs h _

theorem exec_ppsEdge (h : Powered s) : exec .ppsEdge s = execPpsEdge s := powered_runs h _

theorem exec_gmChange (h : Powered s) (standby : Bool) (sb : Nat) : exec (.gmChange standby sb) s = execGmChange standby sb s := powered_runs h _

theorem exec_refOkChange (h : Powered s) (ok gm standby : Bool) (gmRank sbRank : Nat) :
    exec (.refOkChange ok gm standby gmRank sbRank) s = execRefOkChange ok gm standby gmRank sbRank s := powered_runs h _

/-- The state with the exchange noted. -/
def exchanged (s : State) : State := { s with fab := { s.fab with time := { s.fab.time with lastExchange := s.now } } }

/-- The round trip that the stamps of a valid exchange give, in 1/256 cycle. -/
def roundTrip (t1 t2 t3 t4 : Nat) : Int := (Int.ofNat t4 - Int.ofNat t1) - (Int.ofNat t3 - Int.ofNat t2)

/-- The offset that they give, before its division by 6,656: the difference of the two ways less the configured delay. -/
def offsetNum (s : State) (t1 t2 t3 t4 : Nat) : Int :=
  ((Int.ofNat t2 - Int.ofNat t1) - (Int.ofNat t4 - Int.ofNat t3)) * 10000 - toSigned 32 (regBits s (rLnkTime (timeLink s)) 31 0) * 3328

/-- The round trip written. -/
def tripNoted (s : State) (t1 t2 t3 t4 : Nat) : State :=
  withField (exchanged s) (rLnkTime (timeLink s)) 63 32 (ofSigned 32 ((roundTrip t1 t2 t3 t4 * 10000).tdiv 6656))

/-- A module that sets its count from the grandmaster's stamp. -/
def counted (v : State) (n : Nat) : State :=
  { v with now := n, fab := { v.fab with time := { lastExchange := n, lastGood := n, fails := 0, counted := true } } }

/-- The offset written, and the lock moved by it. -/
def offsetNoted (v : State) (num : Int) : State :=
  noteOffset
    (withField { v with fab := { v.fab with time := { v.fab.time with lastGood := v.now, fails := 0 } } } rSchOffset 31 0 (ofSigned 32 (num.tdiv 6656)))
    (decide (-(1500 * 6656) ≤ num) && decide (num ≤ 1500 * 6656))

/-- What an exchange that is due does: it fails, or the module sets its count or notes its offset. -/
theorem execTimeExchange_due (ok : Bool) (t1 t2 t3 t4 : Nat) (hdue : s.fab.time.lastExchange = 0 ∨ s.fab.time.lastExchange + 2 ^ 16 ≤ s.now) :
    execTimeExchange ok t1 t2 t3 t4 s =
      if ok = false ∨ linkState s (timeLink s) ≠ 2 then .next (exchangeFails (exchanged s))
      else if s.seq.everLocked = false ∧ s.fab.time.counted = false ∧ isGm (tripNoted s t1 t2 t3 t4) = false then
        .next (counted (tripNoted s t1 t2 t3 t4) ((t3 + (roundTrip t1 t2 t3 t4 / 2).toNat) / 256))
      else .next (offsetNoted (tripNoted s t1 t2 t3 t4) (offsetNum s t1 t2 t3 t4)) := by
  have due : ¬(s.fab.time.lastExchange ≠ 0 ∧ s.now < s.fab.time.lastExchange + 2 ^ 16) := by omega
  exact if_neg due

theorem regBits_withField_other (s : State) {a b : Nat} (hi lo v h l : Nat) (hne : b ≠ a) : regBits (withField s a hi lo v) b h l = regBits s b h l :=
  congrArg (fun w => bits w h l) (regGet_regPut_other s hi lo v hne)

/-- The link's time register is none of the roles'. -/
theorem isGm_tripNoted (t1 t2 t3 t4 : Nat) : isGm (tripNoted s t1 t2 t3 t4) = isGm s := by
  have other : rFabTimeStat ≠ rLnkTime (timeLink s) := by
    unfold rFabTimeStat rLnkTime rLnkCtrl
    omega
  exact congrArg (fun n => decide (n = 1)) (regBits_withField_other (exchanged s) 63 32 _ 1 1 other)

theorem execHoldoverExpiry_due (hlock : s.seq.everLocked = true) (hgm : isGm s = false) (hdue : s.fab.time.lastGood + 650000 ≤ s.now) :
    execHoldoverExpiry s = .next (noteOffset s false) := by
  have due : ¬(s.seq.everLocked = false ∨ isGm s = true ∨ s.now < s.fab.time.lastGood + 650000) := by simp [hlock, hgm, hdue]
  exact if_neg due

theorem execTimeUnlocked_due {c : Nat} (hout : s.seq.outSince = some c) (hdue : c + 1300000 ≤ s.now) :
    execTimeUnlocked s = .next (stopFault { s with seq := { s.seq with outSince := none } } rSchFault 16 codeTimeUnlocked unitSch []) := by
  rw [execTimeUnlocked, hout]
  exact if_neg (Nat.not_lt.mpr hdue)

theorem execPpsEdge_gm (hgm : isGm s = true) : execPpsEdge s = .next (latchIrq (regSet s rFabPps (BitVec.ofNat 64 s.now)) 39) :=
  congrArg Host.Outcome.next (if_pos hgm)

/-! ### The reference and the roles it gives (R368, R480) -/

/-- REF_OK as a change of the reference shows it. -/
def refShown (s : State) (ok : Bool) : State :=
  withField { s with fab := { s.fab with time := { s.fab.time with refIn := ok } } } rFabTimeStat 0 0 (b2n (ok && decide (regBits s rFabTimeCfg 7 0 ≠ 255)))

theorem candidate_refShown (ok : Bool) : candidate (refShown s ok) = decide (regBits s rFabTimeCfg 7 0 ≠ 255) :=
  congrArg (fun n => decide (n ≠ 255)) (regBits_withField_other _ 0 0 _ 7 0 (by decide))

theorem execRefOkChange_eq (ok gm standby : Bool) (gmRank sbRank : Nat) : execRefOkChange ok gm standby gmRank sbRank s =
    if candidate (refShown s ok) = false then .next (refShown s ok)
    else .next (if regBits (refShown s ok) rFabTimeStat 31 16 = gmRank % 65536 then setRoles (refShown s ok) gm standby gmRank sbRank
      else fabFault (setRoles (refShown s ok) gm standby gmRank sbRank) codeGmChange (timeLink (setRoles (refShown s ok) gm standby gmRank sbRank))
        [(gmRank % 65536, 2)]) := rfl

end

/-- Settles O21: an exchange that is due fails, sets the count or notes the offset, and each of the other commands meets its one branch. -/
theorem fabricTimeCompletes : Obligations.FabricTimeCompletes := by
  intro s hp t l u
  refine ⟨fun hdue => ⟨?fails, ?offset, ?first⟩, ?holdover, ?unlocked, ?pps, ?gm, ?ref⟩
  case fails =>
    intro t1 t2 t3 t4
    rw [exec_timeExchange hp, execTimeExchange_due _ _ _ _ _ hdue, if_pos (.inl rfl)]
    rfl
  case offset =>
    intro t1 t2 t3 t4 hup hlock z rtt num v w
    have valid : ¬(true = false ∨ linkState s (timeLink s) ≠ 2) := by simpa using hup
    rw [exec_timeExchange hp, execTimeExchange_due _ _ _ _ _ hdue, if_neg valid, if_neg (by simp [hlock])]
    rfl
  case first =>
    intro t1 t2 t3 t4 hup hlock hcount hgm rtt v n
    have valid : ¬(true = false ∨ linkState s (timeLink s) ≠ 2) := by simpa using hup
    rw [exec_timeExchange hp, execTimeExchange_due _ _ _ _ _ hdue, if_neg valid, if_pos ⟨hlock, hcount, (isGm_tripNoted t1 t2 t3 t4).trans hgm⟩]
    rfl
  case holdover => exact fun hlock hgm hdue => (exec_holdoverExpiry hp).trans (execHoldoverExpiry_due hlock hgm hdue)
  case unlocked => exact fun c hout hdue => (exec_timeUnlocked hp).trans (execTimeUnlocked_due hout hdue)
  case pps => exact fun hgm => (exec_ppsEdge hp).trans (execPpsEdge_gm hgm)
  case gm => exact fun standby sb => exec_gmChange hp standby sb
  case ref =>
    intro ok gm standby gmRank sbRank v
    rw [exec_refOkChange hp, execRefOkChange_eq, candidate_refShown]
    refine ⟨fun hpri => if_pos (by simp [hpri]), fun hpri hsame => ?_⟩
    rw [if_neg (by simp [hpri])]
    exact congrArg Host.Outcome.next (if_pos hsame)

end Sys2Proof.Proofs
end

section
/-!
The statement on Travar's job commands (05_schedule_contract.md).
-/
namespace Sys2Proof.Proofs
open Sys2Proof.Machine Sys2Proof.Laws

/-! ### Travar's job commands (R399, R400, R418) -/

section
variable {s : State} {q : Nat} {b : List Byte}

theorem exec_jobLoad (h : Clocked s) (modules : Nat) : exec (.jobLoad q modules) s = execJobLoad q modules s := clocked_runs h _

theorem exec_jobStart (h : Clocked s) : exec (.jobStart q) s = execJobStart q s := clocked_runs h _

theorem exec_jobStop (h : Clocked s) : exec (.jobStop q) s = execJobStop q s := clocked_runs h _

theorem exec_jobUnload (h : Clocked s) : exec (.jobUnload q) s = execJobUnload q s := clocked_runs h _

theorem exec_restore (h : Clocked s) (written : Bool) : exec (.restore q written) s = execRestore q written s := clocked_runs h _

theorem exec_journalSafe (h : Clocked s) : exec (.journalSafe q) s = execJournalSafe q s := clocked_runs h _

/-- The job's image measured and checked. -/
def jobImage (s : State) (b : List Byte) (modules : Nat) : State × Nat :=
  tryImage (mrSet (withField { s with seq := { s.seq with jobModules := modules } } rSchImage 63 6 (fld b 0 8 / 64)) 2 (zeros 64))

/-- What JOB_LOAD does with a job whose image verifies: its allocations are read, placed and checked in turn. -/
def placeJob (s u : State) (q table n : Nat) : State :=
  match allocTable u table n with
  | none => formatCmd s q
  | some es =>
    match placement u es table n with
    | none => failCmd s q codePlacement
    | some p =>
      match denseLoadBad (takePlaced u p table) 0 with
      | some x => failCmd (denseRefused s x) q codeUpdateFormat
      | none => finish (takeJob u p table) q 0 0 0

theorem execJobLoad_idle {modules : Nat} (h : Executes s q 0x0030 [1] b) (haligned : fld b 0 8 % 64 = 0) (hnone : s.job.loaded = false)
    (hidle : schState s ≠ 3) : execJobLoad q modules s =
      .next (if (jobImage s b modules).2 ≠ 0 then failCmd (jobImage s b modules).1 q (jobImage s b modules).2
        else placeJob s (jobImage s b modules).1 q (fld b 8 8) (fld b 16 4)) := by
  have free : ¬(s.job.loaded = true ∨ schState s = 3) := by simp [hnone, hidle]
  rw [execJobLoad, travar_executes h, if_neg (not_not_intro haligned), if_neg free]
  rfl

/-- What JOB_START leaves of the registers of a replay (R344). -/
def replaySet (s : State) (b : List Byte) : State := regSet (withField s rReplay 0 0 (fld b 0 1)) rReplayUntil (BitVec.ofNat 64 (fld b 8 8))

@[simp] theorem replaySet_seq : (replaySet s b).seq = s.seq := rfl
@[simp] theorem replaySet_jrnl : (replaySet s b).jrnl = s.jrnl := rfl

@[simp] theorem phaseAt_replaySet (i : Nat) : phaseAt (replaySet s b) i = phaseAt s i := by rw [phaseAt, replaySet_seq, ← phaseAt]

theorem regBits_replaySet_other {a : Nat} (hi lo : Nat) (h1 : a ≠ rReplay) (h2 : a ≠ rReplayUntil) : regBits (replaySet s b) a hi lo = regBits s a hi lo :=
  (congrArg (fun w => bits w hi lo) (regGet_regSet_other _ _ h2)).trans (regBits_withField_other s 0 0 _ hi lo h1)

theorem regBits_replaySet_enable (hoff : fld b 0 1 = 0) : regBits (replaySet s b) rReplay 0 0 = 0 := by
  have kept : regBits (replaySet s b) rReplay 0 0 = regBits (withField s rReplay 0 0 (fld b 0 1)) rReplay 0 0 :=
    congrArg (fun w => bits w 0 0) (regGet_regSet_other _ _ (by decide))
  rw [kept, regBits_withField_same _ _ _ (by omega) (by omega), hoff, Nat.zero_mod]

theorem schState_atStartBarrier (p : PhaseEnt) : schState (atStartBarrier s p) = 3 := by
  have regs : (atStartBarrier s p).regs = (withField (withField s rSchState 2 0 3) rReplay 1 1 0).regs := rfl
  rw [schState, regBits, regGet, regs, ← regGet, ← regBits, regBits_withField_other _ _ _ _ _ _ (by decide),
    regBits_withField_same _ _ _ (by omega) (by omega)]
  rfl

theorem execJobStart_started (h : Executes s q 0x0031 [1] b) (hen : fld b 0 1 ≤ 1) (hload : s.job.loaded = true) (hstate : schState s = 2)
    (hstage : stagingWhole s = true) (hrun : schState (startJob (replaySet s b)) = 3) :
    execJobStart q s = .next (finish (startJob (replaySet s b)) q 0 (stepNo (startJob (replaySet s b))) 0) := by
  have ready : ¬(s.job.loaded = false ∨ schState s ≠ 2 ∨ stagingWhole s = false) := by simp [hload, hstate, hstage]
  rw [execJobStart, travar_executes h, if_neg (Nat.not_lt.mpr hen), if_neg ready]
  exact congrArg Host.Outcome.next (if_pos hrun)

theorem execJobStop_eq (h : Executes s q 0x0032 [1] b) :
    execJobStop q s = .next (if schState s ≠ 3 then refuseCmd s q else finish (stopStep s) q 0 (stepNo s) 0) :=
  travar_executes h _

theorem execJobUnload_idle (h : Executes s q 0x0033 [1] b) (hload : s.job.loaded = true) (hidle : schState s ≠ 3) :
    execJobUnload q s = .next (finish (unloadJob s) q 0 0 0) := by
  have idle : ¬(s.job.loaded = false ∨ schState s = 3) := by simp [hload, hidle]
  exact (travar_executes h _).trans (congrArg Host.Outcome.next (if_neg idle))

/-- The rank's epoch of a number, where the attic holds it. -/
def heldEpoch (s : State) (n : Nat) : Option Epoch := s.att.epochs.find? (fun e => decide (e.num = n ∧ e.rank = rank s))

theorem execRestore_eq {written : Bool} (h : Executes s q 0x0034 [1] b) (hload : s.job.loaded = true)
    (hstate : schState s = 2 ∨ schState s = 4 ∨ schState s = 5) :
    execRestore q written s = .next (match heldEpoch s (fld b 0 8) with
      | none => refuseCmd s q
      | some e => if restoreWaits s then s else restoreEpoch s q e written) := by
  have hmem : schState s ∈ [2, 4, 5] := by simpa using hstate
  have may : ¬(s.job.loaded = false ∨ schState s ∉ [2, 4, 5]) := not_or.mpr ⟨by simp [hload], not_not_intro hmem⟩
  exact (travar_executes h _).trans (congrArg Host.Outcome.next (if_neg may))

theorem execJournalSafe_eq (h : Executes s q 0x0035 [1] b) :
    execJournalSafe q s = .next (finish (regSet s rJrnlSafe (BitVec.ofNat 64 (max (regGet s rJrnlSafe).toNat (fld b 0 8)))) q 0
      (max (regGet s rJrnlSafe).toNat (fld b 0 8)) 0) :=
  travar_executes h _

end

/-- Settles O39: each command's conditions leave one branch; a start without a replay is that of SCH_CTRL with the replay's registers set. -/
theorem jobCommandsComplete : Obligations.JobCommandsComplete := by
  intro s q b hc
  refine ⟨?load, ?start, ?stop, ?unload, ?restore, ?safe⟩
  case load =>
    intro modules h haligned hnone hidle r
    rw [exec_jobLoad hc, execJobLoad_idle h haligned hnone hidle]
    rfl
  case start =>
    intro h hload hstate hstage
    have started (hen : fld b 0 1 ≤ 1) := fun hrun => (exec_jobStart hc).trans (execJobStart_started h hen hload hstate hstage hrun)
    constructor
    · intro p hoff hring hphase hread u v t
      have hset : replaySet s b = u := by rw [replaySet, hoff]
      have hloaded : schState (replaySet s b) = 2 := (regBits_replaySet_other 2 0 (by decide) (by decide)).trans hstate
      have hroom : regBits (replaySet s b) rJrnlCtl 23 0 ≠ 0 := by rwa [regBits_replaySet_other 23 0 (by decide) (by decide)]
      have hstart : startJob (replaySet s b) = atStartBarrier u p := by
        rw [startJob_recording (p := p) hloaded hroom (by rwa [phaseAt_replaySet]) (regBits_replaySet_enable hoff) (by rwa [replaySet_jrnl]), hset]
      rw [started (by omega) (by rw [hstart, schState_atStartBarrier]), hstart]
      rfl
    · exact fun hen hrun => started (by omega) hrun
  case stop =>
    intro h
    rw [exec_jobStop hc, execJobStop_eq h]
    exact ⟨fun hrun => congrArg _ (if_neg (not_not_intro hrun)), fun hidle => congrArg _ (if_pos hidle)⟩
  case unload => exact fun h hload hidle => (exec_jobUnload hc).trans (execJobUnload_idle h hload hidle)
  case restore =>
    intro written h hload hstate
    rw [exec_restore hc, execRestore_eq h hload hstate]
    refine ⟨fun e held hcool => ?_, fun unheld => ?_⟩
    · simp only [heldEpoch, held, hcool, Bool.false_eq_true, if_false]
    · simp only [heldEpoch, unheld]
  case safe => exact fun h => (exec_journalSafe hc).trans (execJournalSafe_eq h)

end Sys2Proof.Proofs
end

section
/-!
The statements on the tiers of the memory (06_memory_tiers.md).
-/
namespace Sys2Proof.Proofs
open Sys2Proof.Machine Sys2Proof.Laws

/-! ### Readings of a cellar's temperature (R178, Table 7.3) -/

/-- A flag with hysteresis in bit `i` of register `a`: set where `on` holds, cleared where only `off` does, and otherwise kept. -/
def withFlag (s : State) (a i : Nat) (on off : Prop) [Decidable on] [Decidable off] : State :=
  if on then withField s a i i 1 else if off then withField s a i i 0 else s

/-- A reading taken: CEL_TEMP of the cellar with its value, die, peak and two flags, and the conditions of R459 noted. -/
def readingTaken (s : State) (cellar temp die : Nat) : State :=
  let t := toSigned 12 temp
  let a := rCelTemp cellar
  let v := regPeakSigned (withField (withField s a 11 0 temp) a 15 12 die) a 43 32 temp
  noteHeat (withFlag (withFlag v a 16 (16 * 85 < t) (t ≤ 16 * 82)) a 17 (16 * 95 ≤ t) (t < 16 * 92))

section
variable {s : State} {cellar : Nat} (temp die : Nat)

@[simp] theorem clocksStopped_withField (a hi lo v : Nat) : clocksStopped (withField s a hi lo v) = clocksStopped s := rfl

@[simp] theorem clocksStopped_regPeakSigned (a hi lo v : Nat) : clocksStopped (regPeakSigned s a hi lo v) = clocksStopped s := rfl

@[simp] theorem clocksStopped_noteHeat : clocksStopped (noteHeat s) = clocksStopped s := rfl

@[simp] theorem clocksStopped_withFlag (a i : Nat) (on off : Prop) [Decidable on] [Decidable off] :
    clocksStopped (withFlag s a i on off) = clocksStopped s := by
  unfold withFlag
  split
  · rfl
  · split <;> rfl

@[simp] theorem clocksStopped_readingTaken : clocksStopped (readingTaken s cellar temp die) = clocksStopped s := by
  simp only [readingTaken, clocksStopped_noteHeat, clocksStopped_withFlag, clocksStopped_regPeakSigned, clocksStopped_withField]

/-- What R178 makes of a reading that has been taken: a trip at 125 °C, above 105 °C a quiesce where none stands and the clocks run, and else nothing more. -/
theorem exec_cellarTempReading (hcellar : cellar < 20) :
    let h := readingTaken s cellar temp die
    exec (.cellarTempReading cellar temp die) s =
      if 16 * 125 ≤ toSigned 12 temp then .next (thermalTrip h (cellar / 2))
      else .next (if 16 * 105 < toSigned 12 temp ∧ quiesced h cellar = false ∧ clocksStopped h = false then quiesce h cellar else h) :=
  if_neg (Nat.not_le.mpr hcellar)

theorem exec_cellarTempReading_trip (hcellar : cellar < 20) (ht : 16 * 125 ≤ toSigned 12 temp) :
    exec (.cellarTempReading cellar temp die) s = .next (thermalTrip (readingTaken s cellar temp die) (cellar / 2)) := by
  rw [exec_cellarTempReading temp die hcellar, if_pos ht]

theorem exec_cellarTempReading_quiesce (hcellar : cellar < 20) (hot : 16 * 105 < toSigned 12 temp) (ht : toSigned 12 temp < 16 * 125)
    (hq : quiesced (readingTaken s cellar temp die) cellar = false) (h : Powered s) :
    exec (.cellarTempReading cellar temp die) s = .next (quiesce (readingTaken s cellar temp die) cellar) := by
  have runs : clocksStopped (readingTaken s cellar temp die) = false := (clocksStopped_readingTaken temp die).trans (clocked_of_powered h)
  rw [exec_cellarTempReading temp die hcellar, if_neg (Int.not_le.mpr ht), if_pos ⟨hot, hq, runs⟩]

theorem exec_cellarTempReading_cool (hcellar : cellar < 20) (ht : toSigned 12 temp ≤ 16 * 105) :
    exec (.cellarTempReading cellar temp die) s = .next (readingTaken s cellar temp die) := by
  have untripped : ¬16 * 125 ≤ toSigned 12 temp := by omega
  have cool : ¬16 * 105 < toSigned 12 temp := Int.not_lt.mpr ht
  rw [exec_cellarTempReading temp die hcellar, if_neg untripped, if_neg fun hot => cool hot.1]

end

/-! ### Floating moves and packed blocks (R154, R162) -/

/-- The requested backing of a floating entry becomes its current one, with every granule DONE and neither a move nor a request left. -/
def backingTaken (u : State) (entry : Nat) : State :=
  let a := rCelFloatA entry
  let b := rCelFloatB entry
  let v := withField (withField (withField u a 38 36 (regBits u b 42 40)) a 43 39 (regBits u b 47 43)) b 19 0 (regBits u b 39 20)
  withField (withField (withField v a 60 45 (floatUnits v entry)) a 44 44 0) b 48 48 0

/-- The move in progress leaves the list, and the time of the next one's first granule counts from now. -/
def moveEnded (v : State) : State := { v with cel := { v.cel with moves := v.cel.moves.drop 1, moveAt := v.now } }

section
variable {s : State}

theorem exec_floatMoveComplete (h : Powered s) {entry : Nat} (hhead : s.cel.moves.head? = some entry)
    (hmoving : regBits s (rCelFloatA entry) 44 44 = 1) (hfree : moveWaits s entry (regBits s (rCelFloatA entry) 60 45) = false) :
    let k := regBits s (rCelFloatA entry) 60 45
    exec (.floatMoveComplete entry) s = .next (moveEnded (backingTaken (copyGranules s entry k (floatUnits s entry - k)) entry)) :=
  (powered_runs h (execFloatMoveComplete entry s)).trans (if_pos ⟨hhead, hmoving, hfree⟩)

theorem exec_packedBlockWriteback (h : Powered s) {slot : Nat} {p : PackBlk} (hheld : smGet none s.cel.packs slot = some p)
    (hfree : ∀ q ∈ blockRanges s p.desc p.j, accessWaits s q.1 q.2 = false) : exec (.packedBlockWriteback slot) s = .next (packWriteback s p) := by
  have free : ((blockRanges s p.desc p.j).any fun q => accessWaits s q.1 q.2) = false :=
    List.any_eq_false.mpr fun q hq => Bool.eq_false_iff.mp (hfree q hq)
  have run : exec (.packedBlockWriteback slot) s = execPackedBlockWriteback slot s := powered_runs h _
  rw [run, execPackedBlockWriteback, hheld]
  simp only [free, Bool.false_eq_true, if_false]

end

/-- Settles O23: a reading is taken and then meets one of R178's thresholds, and a move or a write-back that nothing holds is its one branch. -/
theorem cellarConditionsComplete : Obligations.CellarConditionsComplete := by
  intro s
  refine ⟨fun cellar temp die hcellar => ?reading, fun h => ⟨fun entry hhead hmoving hfree => ?move, fun slot p hheld hfree => ?pack⟩⟩
  case reading =>
    exact ⟨exec_cellarTempReading_trip temp die hcellar, exec_cellarTempReading_quiesce temp die hcellar, exec_cellarTempReading_cool temp die hcellar⟩
  case move => exact exec_floatMoveComplete h hhead hmoving hfree
  case pack => exact exec_packedBlockWriteback h hheld hfree

end Sys2Proof.Proofs
end

section
/-!
The statements on the cellars' channels and on Travar's system commands (07_cellar_stacks.md).
-/
namespace Sys2Proof.Proofs
open Sys2Proof.Machine Sys2Proof.Laws

/-! ### Scrub, retrains and map-out (R176, R179, R181, R182, R184, R185) -/

section
variable {s : State} {cellar ch : Nat}

theorem exec_scrubRead (h : Powered s) : exec (.scrubRead cellar ch) s = execScrubRead cellar ch s := powered_runs h _

theorem exec_periodicRetrainStart (h : Powered s) : exec .periodicRetrainStart s = execPeriodicRetrainStart s := powered_runs h _

theorem exec_driftRetrainStart (h : Powered s) : exec (.driftRetrainStart cellar ch) s = execDriftRetrainStart cellar ch s := powered_runs h _

theorem exec_firmwareRetrain (h : Powered s) : exec (.firmwareRetrain cellar ch) s = execFirmwareRetrain cellar ch s := powered_runs h _

theorem exec_retrainComplete (h : Powered s) (rdT wrT rdV wrV : Nat) :
    exec (.retrainComplete cellar ch rdT wrT rdV wrV) s = execRetrainComplete cellar ch rdT wrT rdV wrV s := powered_runs h _

theorem exec_channelMapout (h : Powered s) : exec (.channelMapout cellar ch) s = execChannelMapout cellar ch s := powered_runs h _

theorem commandable_not_quiesced (h : Commandable s cellar ch) : (!quiesced s cellar) = true := by
  obtain ⟨-, -, -, -, hcool⟩ := h
  rw [hcool, Bool.not_false]

theorem execScrubRead_due (h : Commandable s cellar ch) (hen : regBits s (rMemCtrl cellar) 6 6 = 1)
    (hdue : (getChan s (cellar * 32 + ch)).lastScrub = 0 ∨ (getChan s (cellar * 32 + ch)).lastScrub + 2048 ≤ s.now) :
    let id := cellar * 32 + ch
    let line := regBits s (rMemChState cellar ch) 63 32
    execScrubRead cellar ch s = .next (scrubLine (withField (setChan s id { getChan s id with lastScrub := s.now }) (rMemChState cellar ch) 63 32
      ((line + 1) % chanLines)) id line) := by
  obtain ⟨hcellar, hch, hlive, hstate, -⟩ := id h
  exact if_pos ⟨hcellar, hch, hlive, hstate, hen, commandable_not_quiesced h, hdue⟩

theorem execDriftRetrainStart_commandable (h : Commandable s cellar ch) :
    execDriftRetrainStart cellar ch s = .next (startRetrain s (cellar * 32 + ch) 1) := by
  obtain ⟨hcellar, hch, hlive, hstate, -⟩ := id h
  exact if_pos ⟨hcellar, hch, hlive, hstate, commandable_not_quiesced h⟩

theorem execFirmwareRetrain_commandable (h : Commandable s cellar ch) :
    execFirmwareRetrain cellar ch s = .next (startRetrain s (cellar * 32 + ch) 2) := by
  obtain ⟨hcellar, hch, hlive, hstate, -⟩ := id h
  exact if_pos ⟨hcellar, hch, hlive, hstate, commandable_not_quiesced h⟩

theorem execChannelMapout_live (h : Commandable s cellar ch) (hstate : chState s (cellar * 32 + ch) = 0) :
    execChannelMapout cellar ch s = .next (channelSums (setChState s (cellar * 32 + ch) 2) cellar) := by
  obtain ⟨hcellar, hch, hlive, -, -⟩ := h
  have inRange : ¬(20 ≤ cellar ∨ 32 ≤ ch ∨ cellar * 32 + ch ∉ s.cel.live) := by
    simp only [hlive, not_true_eq_false, or_false]
    omega
  rw [execChannelMapout, if_neg inRange, if_pos hstate]

theorem execPeriodicRetrainStart_due {i : Nat} (hnone : periodicRuns s = false)
    (hfirst : (s.cel.live.filter (fun id => retrainDue s id && periodicMay s id)).min? = some i) :
    execPeriodicRetrainStart s = .next (startRetrain { s with cel := { s.cel with periodicUsed := true } } i 0) := by
  simp only [execPeriodicRetrainStart, hnone, Bool.false_eq_true, if_false, hfirst]

theorem marginsMeet_iff {rdT wrT rdV wrV : Nat} : marginsMeet rdT wrT rdV wrV = true ↔ 20 ≤ rdT ∧ 20 ≤ wrT ∧ 24 ≤ rdV ∧ 24 ≤ wrV := by
  simp only [marginsMeet, Bool.and_eq_true, decide_eq_true_eq, and_assoc]

@[simp] theorem recordMargins_now (id rdT wrT rdV wrV : Nat) : (recordMargins s id rdT wrT rdV wrV).now = s.now := by
  simp only [recordMargins, regPut_now]

theorem regPut_eq_withField (a hi lo v : Nat) : regPut s a hi lo v = withField s a hi lo v := rfl

/-- An attempt whose margins meet R185 ends the retrain: the channel returns to its state, or is PENDING_OUT where a map-out waited (R184). -/
theorem execRetrainComplete_met {r : Retrain} {rdT wrT rdV wrV : Nat} (hr : (getChan s (cellar * 32 + ch)).retrain = some r)
    (hmet : 20 ≤ rdT ∧ 20 ≤ wrT ∧ 24 ≤ rdV ∧ 24 ≤ wrV) :
    let id := cellar * 32 + ch
    let st := rMemChState cellar ch
    let u := recordMargins s id rdT wrT rdV wrV
    let v := recordRetrain (setChan u id { getChan s id with lastTrain := s.now, retrain := none }) id (s.now - r.start)
    execRetrainComplete cellar ch rdT wrT rdV wrV s =
      .next (channelSums (withField (setChState v id (if regBits v st 4 4 = 1 then 2 else r.prior)) st 4 4 0) cellar) := by
  simp only [execRetrainComplete, hr, if_pos (marginsMeet_iff.mpr hmet), recordMargins_now, regPut_eq_withField]

/-- An attempt that fails is counted, and the third fails the channel (R181). -/
theorem execRetrainComplete_missed {r : Retrain} {rdT wrT rdV wrV : Nat} (hr : (getChan s (cellar * 32 + ch)).retrain = some r)
    (hmissed : ¬(20 ≤ rdT ∧ 20 ≤ wrT ∧ 24 ≤ rdV ∧ 24 ≤ wrV)) :
    let id := cellar * 32 + ch
    let v := regCount (recordMargins s id rdT wrT rdV wrV) (rMemChRetrain cellar ch) 49 48 1
    execRetrainComplete cellar ch rdT wrT rdV wrV s =
      if regBits v (rMemChRetrain cellar ch) 49 48 < 3 then .next v else .next (failChannel (recordRetrain v id (s.now - r.start)) id 0) := by
  simp only [execRetrainComplete, hr, if_neg (mt marginsMeet_iff.mp hmissed), regCount_now, recordMargins_now]

end

/-- Settles O22: a channel that may be commanded passes each command's test, and an attempt's margins decide between the retrain's end and one more failure. -/
theorem channelCareCompletes : Obligations.ChannelCareCompletes := by
  intro s cellar ch hp
  refine ⟨fun h => ⟨?scrub, ?drift, ?firmware, ?mapout⟩, ?periodic, ?complete⟩
  case scrub => exact fun hen hdue => (exec_scrubRead hp).trans (execScrubRead_due h hen hdue)
  case drift => exact (exec_driftRetrainStart hp).trans (execDriftRetrainStart_commandable h)
  case firmware => exact (exec_firmwareRetrain hp).trans (execFirmwareRetrain_commandable h)
  case mapout => exact fun hstate => (exec_channelMapout hp).trans (execChannelMapout_live h hstate)
  case periodic => exact fun i hnone hfirst => (exec_periodicRetrainStart hp).trans (execPeriodicRetrainStart_due hnone hfirst)
  case complete =>
    intro r rdT wrT rdV wrV hr u
    rw [exec_retrainComplete hp]
    refine ⟨execRetrainComplete_met hr, fun hmissed => ?_⟩
    have counted := execRetrainComplete_missed hr hmissed
    exact ⟨fun hfew => counted.trans (if_pos hfew), fun hthird => counted.trans (if_neg (Nat.not_lt.mpr hthird))⟩

/-! ### Travar's system commands: VERSION and MAPOUT (R182, R227) -/

section
variable {s : State} {q : Nat} {b : List Byte}

theorem exec_version (h : Clocked s) : exec (.version q) s = execVersion q s := clocked_runs h _

theorem exec_mapout (h : Clocked s) : exec (.mapout q) s = execMapout q s := clocked_runs h _

theorem exec_attest (h : Clocked s) : exec (.attest q) s = execAttest q s := clocked_runs h _

theorem exec_wrapCak (h : Clocked s) : exec (.wrapCak q) s = execWrapCak q s := clocked_runs h _

theorem exec_mgmtRequest (h : Clocked s) (d : List Byte) : exec (.mgmtRequest d) s = execMgmtRequest d s := clocked_runs h _

/-- What a version command does to a table that is valid, none where it is refused. -/
def verResult (s : State) (c : VerCmd) : Option State :=
  let d := tableDesc s c.table
  let m := rowMapOf s d
  if d.ok = true ∧ m.ok = true then verEffect s d m c else none

/-- A version command whose version record can be read leaves nothing behind where it is refused. -/
theorem verTry_readable (c : VerCmd) (hread : (fetchBytes s (tableDesc s c.table).versions 320 (unitLdr 0)).2.2 = 0) :
    verTry s c = ((verResult s c).elim s verSums, (verResult s c).isSome) := by
  have result : (if (tableDesc s c.table).ok = true ∧ (rowMapOf s (tableDesc s c.table)).ok = true
      then verEffect s (tableDesc s c.table) (rowMapOf s (tableDesc s c.table)) c else none) = verResult s c := rfl
  simp only [verTry, hread, and_true, ne_eq, not_true_eq_false, and_false, if_false, result]
  cases verResult s c <;> rfl

/-- The version command in a command's ARGS. -/
def verCmdOf (b : List Byte) : VerCmd :=
  { op := fld b 0 1, table := fld b 2 2, version := fld b 8 8, shard := fld b 0x10 8, overlay := fld b 0x18 8, census := fld b 0x20 8 }

theorem execVersion_formed (h : Executes s q 0x0040 [1] b) (hlow : 1 ≤ fld b 0 1) (hhigh : fld b 0 1 ≤ 6) :
    execVersion q s = .next (finish (verTry s (verCmdOf b)).1 q 0 (if (verTry s (verCmdOf b)).2 then 1 else 2) 0) := by
  have formed : ¬(fld b 0 1 = 0 ∨ 6 < fld b 0 1) := by omega
  rw [execVersion, travar_executes h, if_neg formed]
  rfl

theorem execMapout_inRange (h : Executes s q 0x0041 [1] b) (hcellar : fld b 0 1 < 20) (hch : fld b 1 1 < 32) {t : State}
    (hmap : execChannelMapout (fld b 0 1) (fld b 1 1) s = .next t) : execMapout q s = .next (finish t q 0 0 0) := by
  have inRange : ¬(20 ≤ fld b 0 1 ∨ 32 ≤ fld b 1 1) := by omega
  rw [execMapout, travar_executes h, if_neg inRange, hmap]
  rfl

/-! ### ATTEST and WRAP_CAK (R462, R470) -/

/-- The nonce of ATTEST: in the request itself where its address is 0, and otherwise fetched, with the state that the fetch leaves and its fault. -/
def attestNonce (s : State) (b : List Byte) : State × List Byte × Nat :=
  if fld b 0 8 = 0 then (s, (b.drop 16).take 64, 0) else fetchBytes s (fld b 0 8) 64 (unitId 16 0)

/-- The delivery of a quote `z`: into the reply of the management channel, and from another queue to QUOTE_ADDR. -/
def giveQuote (t : State) (q : Nat) (b z : List Byte) : State :=
  if q = 16 then finish t q 0 z.length 0 z
  else if (sendBytes t (fld b 8 8) z (unitId 16 0)).2 = 0 then finish (sendBytes t (fld b 8 8) z (unitId 16 0)).1 q 0 z.length 0
  else formatCmd t q

theorem execAttest_ready (h : Executes s q 0x0050 [1, 2] b) {key : List Byte} (hkey : idSeed s = some key) (hready : regBits s rSecStatus 1 1 = 1)
    (hnonce : (attestNonce s b).2.2 = 0) :
    let n := attestNonce s b
    execAttest q s = .next (giveQuote { n.1 with freeCount := n.1.freeCount + 1 } q b (quote s key n.2.1)) := by
  have ready : ¬regBits s rSecStatus 1 1 = 0 := by omega
  have read : ¬(attestNonce s b).2.2 ≠ 0 := not_not_intro hnonce
  intro n
  rw [execAttest, travar_executes h, hkey]
  dsimp only
  rw [if_neg ready]
  refine congrArg Host.Outcome.next ((if_neg read).trans ?_)
  rw [giveQuote]
  congr 1
  exact ite_not _ _ _

theorem execWrapCak_otherQueue (h : Executes s q 0x0051 [1] b) (hq : q ≠ 16) : execWrapCak q s = .next (refuseCmd s q) :=
  (travar_executes h _).trans (congrArg _ (if_pos hq))

theorem execWrapCak_mgmt (h : Executes s q 0x0051 [1] b) (hq : q = 16) (hentry : fld b 0 1 < 8) {key : List Byte} (hkey : wrapKey s = some key) :
    execWrapCak q s =
      .next (finish s q 0 0 0 (wrapCakEntry key (confBytes s 0x18 8) ((b.drop 8).take 8) (fld b 0 1) ((b.drop 16).take 16) ((b.drop 32).take 32))) := by
  rw [execWrapCak, travar_executes h, if_neg (not_not_intro hq), if_neg (Nat.not_le.mpr hentry), hkey]

/-! ### The management channel (R471) -/

/-- A request where the channel is open (R471): it asks for the challenge, fails its checks, waits for the command in progress, or is taken. -/
theorem execMgmtRequest_open (d : List Byte) (hstage : 4 ≤ s.mgmt.stage) (hservice : s.mgmt.service = false) (hen : regBits s rLbxCtrl 1 1 = 1) :
    execMgmtRequest d s = .next (if d.take 2 = ascii "MC" ∧ fld d 2 1 = 0xFF then mgmtAnswer s []
      else if mgmtAccepts s d = false then mgmtFails s d
      else if (getQueue s 16).cmd.isSome then s else mgmtTakes s d) := by
  have isOpen : ¬(s.mgmt.stage < 4 ∨ s.mgmt.service = true ∨ regBits s rLbxCtrl 1 1 = 0) := by
    simp only [hservice, hen, Bool.false_eq_true, false_or]
    omega
  rw [execMgmtRequest, if_neg isOpen, apply_ite Host.Outcome.next, apply_ite Host.Outcome.next, apply_ite Host.Outcome.next]

theorem execMgmtRequest_keyed (d : List Byte) (hstage : 4 ≤ s.mgmt.stage) (hservice : s.mgmt.service = false) (hen : regBits s rLbxCtrl 1 1 = 1)
    (hkey : fld d 2 1 ≠ 0xFF) :
    execMgmtRequest d s = .next (if mgmtAccepts s d = false then mgmtFails s d else if (getQueue s 16).cmd.isSome then s else mgmtTakes s d) := by
  rw [execMgmtRequest_open d hstage hservice hen, if_neg fun asks => hkey asks.2]

end

/-- Settles O40: each command's conditions leave one branch of what Travar does with its ARGS, and an open management channel's that of its request. -/
theorem systemCommandsComplete : Obligations.SystemCommandsComplete := by
  intro s q b hc
  refine ⟨?version, ?mapout, ?attest, ?wrap, ?mgmt⟩
  case version =>
    intro h hlow hhigh c d m hread
    rw [exec_version hc, execVersion_formed h hlow hhigh, verTry_readable (verCmdOf b) hread]
    have result : (if d.ok = true ∧ m.ok = true then verEffect s d m c else none) = verResult s (verCmdOf b) := rfl
    rw [result]
    cases verResult s (verCmdOf b) <;> rfl
  case mapout =>
    intro hp h hcellar hch
    obtain ⟨t, ht⟩ := exec_completes (.channelMapout (fld b 0 1) (fld b 1 1)) s
    exact ⟨t, ht, (exec_mapout hc).trans (execMapout_inRange h hcellar hch ((exec_channelMapout hp).symm.trans ht))⟩
  case attest =>
    intro h key hkey hready n z t hnonce
    rw [exec_attest hc, execAttest_ready h hkey hready hnonce]
    exact ⟨fun hq => congrArg _ (if_pos hq), fun hq => congrArg _ (if_neg hq)⟩
  case wrap =>
    intro h
    rw [exec_wrapCak hc]
    exact ⟨execWrapCak_otherQueue h, fun hq hentry key hkey => execWrapCak_mgmt h hq hentry hkey⟩
  case mgmt =>
    intro d hstage hservice hen
    rw [exec_mgmtRequest hc]
    refine ⟨fun hmagic hkey => ?_, fun hkey => ?_⟩
    · rw [execMgmtRequest_open d hstage hservice hen, if_pos ⟨hmagic, hkey⟩]
    · rw [execMgmtRequest_keyed d hstage hservice hen hkey]
      refine ⟨fun hfree => ?_, fun hfail => congrArg _ (if_pos hfail)⟩
      rw [hfree]
      cases mgmtAccepts s d <;> rfl

end Sys2Proof.Proofs
end

section
/-!
The statements on the Larders' preparations, prefetches and row reads (08_larder_gather_scatter.md).
-/
namespace Sys2Proof.Proofs
open Sys2Proof.Machine Sys2Proof.Laws

/-! ### Preparation (R192, R193) -/

section
variable {s : State} {floor addr : Nat}

theorem exec_ldrPrepSubmit (h : Powered s) : exec (.ldrPrepSubmit floor addr) s = execLdrPrepSubmit floor addr s := powered_runs h _

theorem exec_prepComplete (h : Powered s) : exec (.prepComplete floor) s = execPrepComplete floor s := powered_runs h _

theorem exec_prefetchSubmit (h : Powered s) : exec (.prefetchSubmit floor addr) s = execPrefetchSubmit floor addr s := powered_runs h _

theorem execLdrPrepSubmit_queued (hfloor : floor < 10) (hroom : (getLarder s floor).preps.length < 16) :
    let l := getLarder s floor
    let out := regBits s (rLdrPrepOut floor) 63 6 * 64
    let u := (sendBytes s (out + 2) (zeros 1) (unitLdr floor)).1
    execLdrPrepSubmit floor addr s =
      .next (larderRegs (setLarder u floor { l with preps := l.preps ++ [(addr / 64 * 64, out, u.now)] }) floor) := by
  rw [execLdrPrepSubmit, if_neg (Nat.not_le.mpr hfloor)]
  exact if_neg (Nat.not_le.mpr hroom)

theorem execLdrPrepSubmit_overrun (hfloor : floor < 10) (hfull : 16 ≤ (getLarder s floor).preps.length) :
    let list := addr / 64 * 64
    execLdrPrepSubmit floor addr s =
      .next (ldrFault (withField (noteFetch s list 64 (unitLdr floor)) (rLdrPrepStatus floor) 5 5 1) floor codePrepOverrun (memNat s list 2)) := by
  rw [execLdrPrepSubmit, if_neg (Nat.not_le.mpr hfloor)]
  exact if_pos hfull

/-- The preparations left when one ends: the next begins then. -/
def prepsLeft (rest : List (Nat × Nat × Nat)) (now : Nat) : List (Nat × Nat × Nat) :=
  match rest with
  | (a, o, _) :: r => (a, o, now) :: r
  | [] => []

theorem execPrepComplete_due {a o t : Nat} {rest : List (Nat × Nat × Nat)} (hpreps : (getLarder s floor).preps = (a, o, t) :: rest)
    (hdue : t + prepCycles (memNat s (a + 4) 4) ≤ s.now) :
    execPrepComplete floor s =
      .next (latchIrq (larderRegs (prepare (modLarder s floor (fun l => { l with preps := prepsLeft rest s.now })) floor a o) floor)
        (16 * (floor + 3) + 1)) := by
  rw [execPrepComplete, hpreps]
  exact if_neg (Nat.not_lt.mpr hdue)

/-! ### Submission of a prefetch (R218, R241) -/

/-- What R241 asks of a list that is submitted for prefetch: a place among the 16, a prepared list of the coming step, and a sound descriptor and row map. -/
def MayPrefetch (s : State) (floor list : Nat) : Prop :=
  let u := noteFetch s list 64 (unitLdr floor)
  let d := tableDesc s (memNat s list 2)
  regBits u (rLdrPfStatus floor) 4 0 < 16 ∧ memNat u (list + 2) 1 = 1 ∧ memNat u (list + 8) 8 = stepNo u + 1 ∧ d.ok = true ∧ (rowMapOf s d).ok = true

theorem not_mayPrefetch_iff {list : Nat} :
    let u := noteFetch s list 64 (unitLdr floor)
    let d := tableDesc s (memNat s list 2)
    ¬MayPrefetch s floor list ↔ 16 ≤ regBits u (rLdrPfStatus floor) 4 0 ∨ memNat u (list + 2) 1 ≠ 1 ∨ memNat u (list + 8) 8 ≠ stepNo u + 1 ∨
      (!d.ok) = true ∨ (!(rowMapOf s d).ok) = true := by
  simp only [MayPrefetch, not_and_or, Nat.not_lt, Bool.not_eq_true, Bool.not_eq_true', ne_eq]

/-- A list taken for prefetch: its entries read, their resolutions counted, and the list queued with its home rows. -/
def prefetchTaken (s : State) (floor list : Nat) : State :=
  let table := memNat s list 2
  let n := memNat s (list + 4) 4
  let d := tableDesc s table
  let m := rowMapOf s d
  let u := noteFetch s list 64 (unitLdr floor)
  let rows := listRows u list 0 n
  let home := (rows.zipIdx.filter (fun x => decide ((resolve u d m (curSlot u d) x.1).home = rank u))).map (fun x => x.2)
  let v := rows.foldl (fun s x => countProbe s floor d m (curSlot u d) x) (noteFetch u (list + 0x40) (16 * n) (unitLdr floor))
  larderRegs (modLarder v floor (fun l => { l with prefetches := l.prefetches ++
    [{ list := list, buf := regBits u (rLdrPfBuf floor) 63 6 * 64, table := table, step := stepNo u + 1, homeTodo := home }] })) floor

/-- A list refused for prefetch; a malformed row map stops the step as well (R218, log 154). -/
def prefetchRefused (s : State) (floor list : Nat) : State :=
  let table := memNat s list 2
  let d := tableDesc s table
  let v := ldrFault (withField (noteFetch s list 64 (unitLdr floor)) (rLdrPfStatus floor) 5 5 1) floor codePrefetch table
  if d.ok = true ∧ (rowMapOf s d).ok = false then ldrStop v floor codeTableInvalid table else v

theorem execPrefetchSubmit_taken (hfloor : floor < 10) (h : MayPrefetch s floor (addr / 64 * 64)) :
    execPrefetchSubmit floor addr s = .next (prefetchTaken s floor (addr / 64 * 64)) := by
  rw [execPrefetchSubmit, if_neg (Nat.not_le.mpr hfloor)]
  exact if_neg (mt not_mayPrefetch_iff.mpr (not_not_intro h))

theorem execPrefetchSubmit_refused (hfloor : floor < 10) (h : ¬MayPrefetch s floor (addr / 64 * 64)) :
    execPrefetchSubmit floor addr s = .next (prefetchRefused s floor (addr / 64 * 64)) := by
  rw [execPrefetchSubmit, if_neg (Nat.not_le.mpr hfloor)]
  refine (if_pos (not_mayPrefetch_iff.mp h)).trans ?_
  simp only [prefetchRefused, Bool.not_eq_true']
  rfl

end

/-- Settles O24: a list is queued or dropped by the number queued, one that is due is prepared, and a prefetch is taken or refused by R241's conditions. -/
theorem preparationsComplete : Obligations.PreparationsComplete := by
  intro s floor addr hp hfloor l list out d m
  refine ⟨fun hroom => ?queued, fun hfull => ?overrun, fun a o t rest hpreps hdue => ?due, fun hmay => ?taken, fun hmay => ?refused⟩
  case queued => exact (exec_ldrPrepSubmit hp).trans (execLdrPrepSubmit_queued hfloor hroom)
  case overrun => exact (exec_ldrPrepSubmit hp).trans (execLdrPrepSubmit_overrun hfloor hfull)
  case due => exact (exec_prepComplete hp).trans (execPrepComplete_due hpreps hdue)
  case taken => exact (exec_prefetchSubmit hp).trans (execPrefetchSubmit_taken hfloor hmay)
  case refused => exact (exec_prefetchSubmit hp).trans (execPrefetchSubmit_refused hfloor hmay)

/-! ### Row reads of gathers (R197, R242 to R244) -/

section
variable {s : State} {room tk i : Nat} {g : Gather} {r : RowJob}

theorem exec_gatherRowReadDone (h : Powered s) : exec (.gatherRowReadDone room tk i) s = execGatherRowReadDone room tk i s := powered_runs h _

/-- Row `r`, the i-th of gather `g` of a room's token, whose read the room's Larder has issued. -/
structure Issued (s : State) (room tk i : Nat) (g : Gather) (r : RowJob) : Prop where
  gather : (getLarder s (getRoom s room).floor).gathers.find? (fun g => decide (g.room = room ∧ g.tk = tk)) = some g
  row : g.rows.find? (fun r => decide (r.i = i) && r.issued) = some r

theorem execGatherRowReadDone_home {a : Nat} (h : Issued s room tk i g r) (hvia : r.via = .home a) (hrow : rowHeld s g.table a = false)
    (hfree : accessWaits s a (tableWire (tableDesc s g.table)) = false) :
    let f := (getRoom s room).floor
    let d := tableDesc s g.table
    let x := readRow s f d a (tableWire d) r.row
    execGatherRowReadDone room tk i s = .next (finishRow x.1 f g r false (if x.2.2 then some x.2.1 else none)) := by
  simp only [execGatherRowReadDone, h.gather, h.row, hvia, hrow, hfree, Bool.false_eq_true, or_self, if_false]

/-- The read of a prefetched copy that no access waits for is decided by its entry's tag: 3 failed, 2 arrived, and any other is left (R243). -/
theorem execGatherRowReadDone_copy {p : Prefetch} (h : Issued s room tk i g r) (hvia : r.via = .copy)
    (hcopy : prefetchOf (getLarder s (getRoom s room).floor) g.prep = some p) :
    let f := (getRoom s room).floor
    let d := tableDesc s g.table
    let a := pfAddr p d (g.first + i)
    let e := fetchBytes s a 8 (unitLdr f)
    let x := fetchBytes s a (8 + tableWire d) (unitLdr f)
    accessWaits s a (pfEntry d) = false →
      execGatherRowReadDone room tk i s =
        if e.2.2 ≠ 0 ∨ nbits (leNat e.2.1) 57 56 = 3 then .next (finishRow e.1 f g r true none)
        else if nbits (leNat e.2.1) 57 56 = 2 then .next (finishRow x.1 f g r true (if x.2.2 = 0 then some (x.2.1.drop 8) else none))
        else .next s := by
  intro f d a e x hfree
  rw [execGatherRowReadDone, h.gather]
  simp only [h.row, hvia, hcopy]
  exact if_neg (Bool.eq_false_iff.mp hfree)

end

/-! ### Row reads of blocks being served (R203) -/

section
variable {s : State} {floor k e a : Nat} {b : Serve} {r : ServeRow}

theorem exec_serveRowReadDone (h : Powered s) : exec (.serveRowReadDone floor k e) s = execServeRowReadDone floor k e s := powered_runs h _

/-- Row `r`, the e-th of the k-th block being served, whose read at `a` is issued and not done. -/
structure Serving (s : State) (floor k e : Nat) (b : Serve) (r : ServeRow) (a : Nat) : Prop where
  block : (getLarder s floor).serves[k]? = some b
  row : b.rows[e]? = some r
  addr : r.addr = some a
  issued : r.issued = true
  unread : r.read = none

/-- The block with its e-th row read. -/
def rowServed (s : State) (floor e a : Nat) (b : Serve) (r : ServeRow) : Serve :=
  let x := readRow s floor (tableDesc s b.table) a (tableWire (tableDesc s b.table)) r.row
  { b with rows := listSet b.rows e { r with read := some (x.2.2, if x.2.2 then x.2.1 else []) } }

/-- The state after the read: the row is counted as served. -/
def servedCounted (s : State) (floor a : Nat) (b : Serve) (r : ServeRow) : State :=
  let x := readRow s floor (tableDesc s b.table) a (tableWire (tableDesc s b.table)) r.row
  countLoad (regCount x.1 (rLdrStatServed floor) 47 0 1) floor 2 b.table r.row

theorem execServeRowReadDone_free (h : Serving s floor k e b r a) (hrow : rowHeld s b.table a = false)
    (hfree : accessWaits s a (tableWire (tableDesc s b.table)) = false) :
    let t := servedCounted s floor a b r
    let b' := rowServed s floor e a b r
    execServeRowReadDone floor k e s =
      if b'.rows.all (fun r => r.read.isSome) = true then
        .next (larderRegs (sendReplies (modLarder t floor (fun l => { l with serves := l.serves.eraseIdx k })) floor b') floor)
      else .next (larderRegs (modLarder t floor (fun l => { l with serves := listSet l.serves k b' })) floor) := by
  obtain ⟨hblock, hread, haddr, hissued, hunread⟩ := h
  have runs : ¬((!r.issued) = true ∨ r.read.isSome = true ∨ rowHeld s b.table a = true ∨
      accessWaits s a (tableWire (tableDesc s b.table)) = true) := by
    simp [hissued, hunread, hrow, hfree]
  cases r
  cases haddr
  rw [execServeRowReadDone, hblock]
  simp only [hread]
  exact if_neg runs

end

/-- Settles O25: a gather's row is read at home or judged by its copy's tag, and a served row that is not held ends its block's reads or leaves more. -/
theorem rowReadsComplete : Obligations.RowReadsComplete := by
  intro s hp
  refine ⟨?gather, ?serve⟩
  case gather =>
    intro room tk i g r f d hgather hrow
    have issued : Issued s room tk i g r := ⟨hgather, hrow⟩
    refine ⟨fun a hvia hheld hfree => (exec_gatherRowReadDone hp).trans (execGatherRowReadDone_home issued hvia hheld hfree), ?copy⟩
    intro p hvia hcopy a e x hfree
    rw [exec_gatherRowReadDone hp, execGatherRowReadDone_copy issued hvia hcopy hfree]
    refine ⟨fun hfailed => if_pos hfailed, fun hread harrived => ?arrived⟩
    have sound : ¬(e.2.2 ≠ 0 ∨ nbits (leNat e.2.1) 57 56 = 3) := by omega
    exact (if_neg sound).trans (if_pos harrived)
  case serve =>
    intro floor k e a b r d hblock hrow haddr hissued hunread hheld hfree x t b'
    rw [exec_serveRowReadDone hp, execServeRowReadDone_free ⟨hblock, hrow, haddr, hissued, hunread⟩ hheld hfree]
    exact ⟨fun hlast => if_pos hlast, fun hmore => if_neg (Bool.eq_false_iff.mp hmore)⟩

end Sys2Proof.Proofs
end

section
/-!
The statements on transfers of rows, updates and collective transfers (08_larder_gather_scatter.md).
-/
namespace Sys2Proof.Proofs
open Sys2Proof.Machine Sys2Proof.Laws

/-! ### Transfers of rows (R203, R204, R207, R238, R358) -/

section
variable {s : State} {x : Transfer}

theorem exec_indexReceive (h : Powered s) : exec (.indexReceive x) s = execIndexReceive x s := powered_runs h _

theorem exec_replyReceive (h : Powered s) : exec (.replyReceive x) s = execReplyReceive x s := powered_runs h _

theorem exec_scatterReceive (h : Powered s) : exec (.scatterReceive x) s = execScatterReceive x s := powered_runs h _

theorem exec_migrateReceive (h : Powered s) : exec (.migrateReceive x) s = execMigrateReceive x s := powered_runs h _

theorem exec_collectiveReceive (h : Powered s) : exec (.collectiveReceive x) s = execCollectiveReceive x s := powered_runs h _

/-- A fresh transfer leaves what its body answers, remembered with the STATUS answered (R358). -/
theorem deliver_remembered {body : State → State × Option Nat} (h : Fresh s x) : deliver s x body = remembered (body s) x := by
  obtain ⟨hrank, hfloor, hheader, hnew⟩ := h
  have here : ¬(x.drank ≠ rank s ∨ 10 ≤ x.dfloor) := by
    rw [not_or, not_not, not_le]
    exact ⟨hrank, hfloor⟩
  have unseen : s.fab.done.find? (fun d => decide (d.srank = x.srank ∧ d.sfloor = x.sfloor ∧ d.xid = x.xid ∧ s.now < d.expiry)) = none := by
    simpa only [List.find?_eq_none, decide_eq_true_eq] using hnew
  rw [deliver, if_neg here, unseen]
  simp only [hheader, if_true]
  rfl

/-- So does one that waits for no memory (R180). -/
theorem deliverUnless_remembered {waits : Bool} {body : State → State × Option Nat} (hfree : waits = false) (h : Fresh s x) :
    deliverUnless waits s x body = remembered (body s) x := by
  rw [hfree, ← deliver_remembered h]
  rfl

theorem execIndexReceive_fresh (h : Fresh s x) (hkind : x.kind = 3) :
    execIndexReceive x s = .next (larderRegs (remembered (acceptIndex s x) x) x.dfloor) := by
  rw [execIndexReceive, if_neg (not_not_intro hkind), deliver_remembered h]

theorem execReplyReceive_fresh (h : Fresh s x) (hkind : x.kind = 4) :
    execReplyReceive x s = .next (larderRegs (delivered (replyRows s x.dfloor (tableWire (tableDesc s (leNat (x.data.take 2))))
      (leNat ((x.data.drop 2).take 2)) (x.data.drop 32)) x) x.dfloor) := by
  rw [execReplyReceive, if_neg (not_not_intro hkind), deliver_fresh h rfl]

theorem execScatterReceive_fresh (h : Fresh s x) (hkind : x.kind = 5) (hfree : queuesWait s x.data.length = false) :
    execScatterReceive x s = .next (remembered (queueAll x.dfloor (splitRecords s (x.data.length + 1) x.data) s) x) := by
  rw [execScatterReceive, if_neg (not_not_intro hkind), deliverUnless_remembered hfree h]

/-- What a MIGRATE transfer's records leave, and its STATUS: a malformed record has the transfer refused. -/
def migrated (s : State) (x : Transfer) : State × Option Nat :=
  match migrateRecords x.dfloor (x.data.length + 1) x.data s with
  | some t => (t, some 0)
  | none => (s, some stFormat)

theorem execMigrateReceive_fresh (h : Fresh s x) (hkind : x.kind = 6) (hfree : landingWaits s = false) :
    execMigrateReceive x s = .next (remembered (migrated s x) x) := by
  rw [execMigrateReceive, if_neg (not_not_intro hkind), deliverUnless_remembered hfree h]
  rfl

end

/-- Settles O26: each command accepts its own kind, and a fresh transfer that waits for nothing leaves its body's outcome. -/
theorem rowTransfersComplete : Obligations.RowTransfersComplete := by
  intro s x hp h
  refine ⟨fun hkind => ?index, fun hkind => ?reply, fun hkind hfree => ?scatter, fun hkind hfree => ?migrate⟩
  case index => exact (exec_indexReceive hp).trans (execIndexReceive_fresh h hkind)
  case reply => exact (exec_replyReceive hp).trans (execReplyReceive_fresh h hkind)
  case scatter => exact (exec_scatterReceive hp).trans (execScatterReceive_fresh h hkind hfree)
  case migrate => exact (exec_migrateReceive hp).trans (execMigrateReceive_fresh h hkind hfree)

/-! ### Engines, slices and blocks (R212, R238, R281, R282) -/

section
variable {s : State}

theorem exec_cellarUpdateComplete (h : Powered s) (cellar : Nat) : exec (.cellarUpdateComplete cellar) s = execCellarUpdateComplete cellar s :=
  powered_runs h _

theorem exec_sliceDeliver (h : Powered s) (k : Nat) : exec (.sliceDeliver k) s = execSliceDeliver k s := powered_runs h _

theorem exec_blockProcessComplete (h : Powered s) (floor : Nat) : exec (.blockProcessComplete floor) s = execBlockProcessComplete floor s :=
  powered_runs h _

theorem execCellarUpdateComplete_due {cellar t : Nat} (hcellar : cellar < 20) (hclosed : s.ldr.closed = some t)
    (hfirst : cellar ∉ s.ldr.cellarsDone) (hdue : t + tCue s (takenRecords s cellar) ≤ s.now) (hfree : engineWaits s cellar = false) :
    let u := runEngine s cellar
    execCellarUpdateComplete cellar s = .next (sendCopies u (fun r => decide (rowCellar u r.from_ = cellar))) := by
  have due : ¬(20 ≤ cellar ∨ cellar ∈ s.ldr.cellarsDone ∨ s.now < t + tCue s (takenRecords s cellar) ∨ engineWaits s cellar = true) := by
    simp [hcellar, hfirst, hdue, hfree]
  rw [execCellarUpdateComplete, hclosed]
  exact if_neg due

/-- How long a slice has waited for block buffers. -/
def bufferWait (s : State) (q : Delivery) : Nat :=
  match q.waitFrom with
  | some c => s.now - c
  | none => 0

/-- The k-th slice has met its engine, which left `t`: it is off the queue and its wait is counted. -/
def sliceMet (s t : State) (k : Nat) (q : Delivery) : State :=
  dropDelivery (setDen t q.floor { getDen t q.floor with bufWait := (getDen t q.floor).bufWait + bufferWait s q }) k

theorem execSliceDeliver_due {k : Nat} {q : Delivery} {t : State} (hq : s.den.queue[k]? = some q) (hdue : q.at_ ≤ s.now)
    (hgo : s.seq.stopped = false) (hfirst : ∀ p ∈ s.den.queue.take k, p.cid ≠ q.cid)
    (htake : (if q.vals.isEmpty then some s else takeSlice s q) = some t) :
    execSliceDeliver k s = .next (if q.last then collDone (sliceMet s t k q) q.floor q.tensor else sliceMet s t k q) := by
  have alone : ((s.den.queue.take k).any fun p => decide (p.cid = q.cid)) = false := by
    simpa only [List.any_eq_false, decide_eq_true_eq] using hfirst
  have due : ¬(s.now < q.at_ ∨ s.seq.stopped = true ∨ ((s.den.queue.take k).any fun p => decide (p.cid = q.cid)) = true) := by
    rw [alone, hgo]
    simpa using hdue
  rw [execSliceDeliver, hq]
  refine (if_neg due).trans ?_
  rw [htake]
  rfl

theorem execBlockProcessComplete_due {floor : Nat} {r : ReadyBlock} {rest : List ReadyBlock} {d : DenseDesc}
    (hready : (getDen s floor).ready = r :: rest) (hdesc : denseDesc s floor r.tensor = some d)
    (hdue : max (getDen s floor).blkFree r.since + blockCost s d ≤ s.now) (hgo : s.seq.stopped = false) :
    execBlockProcessComplete floor s = .next (processBlock s floor d r.blk) := by
  have due : ¬(s.now < max (getDen s floor).blkFree r.since + blockCost s d ∨ s.seq.stopped = true) := by
    rw [hgo]
    simpa using hdue
  rw [execBlockProcessComplete, hready]
  simp only [hdesc, if_neg due]

end

/-! ### Collective transfers (R314, R316 to R320, R323, R325) -/

section
variable {s : State} {x : Transfer}

/-- A frame of an all-gather of another step (R314). -/
abbrev StaleShare (s : State) (x : Transfer) : Prop := argNat x 0 1 = 1 ∧ x.step ≠ stepNo s

/-- Some reducing collective of the transfer's floor, tensor and group disagrees with it (R320). -/
def disagrees (s : State) (x : Transfer) : Bool :=
  s.col.live.any (fun c => decide (c.floor = x.dfloor ∧ c.tensor = argNat x 2 2 ∧ c.group = argNat x 4 2) && reducing c.kind && !(frameAgrees c x))

/-- A direct partial kept for its owner. -/
def partialKept (s : State) (x : Transfer) : State :=
  { s with col := { s.col with partials := s.col.partials ++ [{
    floor := x.dfloor, tensor := argNat x 2 2, group := argNat x 4 2, pos := argNat x 12 2, rank := x.srank, origin := x.step,
    counts := argNat x 6 2, nslices := argNat x 8 4, wire := x.wire, exp := toSigned 8 x.exp, data := x.data }] } }

/-- A direct partial stops the step, is dropped, or is kept. -/
def directIn (s : State) (x : Transfer) : State :=
  if disagrees s x = true then collStop s x.dfloor codeCollMismatch (argNat x 2 2) x.srank
  else if partialDropped s x.dfloor (argNat x 2 2) (argNat x 4 2) x.srank x.step = true then dropPartial s x.dfloor (argNat x 2 2) x.srank
  else partialKept s x

/-- A frame enters the live collective that it is for, and is kept for one that is not bound yet (log 93). -/
def frameTaken (s : State) (x : Transfer) : State :=
  match s.col.live.find? (fun c => frameFor c x) with
  | some c => frameIn s c x
  | none => { s with col := { s.col with early := s.col.early ++ [x] } }

/-- A collective transfer by its kind. -/
def collectiveIn (s : State) (x : Transfer) : State :=
  if StaleShare s x then collStop s x.dfloor codeShardVersion (argNat x 2 2) x.srank
  else if argNat x 0 1 = 3 then directIn s x
  else frameTaken s x

theorem collectiveIn_stale (hstale : StaleShare s x) : collectiveIn s x = collStop s x.dfloor codeShardVersion (argNat x 2 2) x.srank :=
  if_pos hstale

theorem collectiveIn_direct (hdirect : argNat x 0 1 = 3) : collectiveIn s x = directIn s x := by
  have fresh : ¬StaleShare s x := by
    rintro ⟨hgather, -⟩
    omega
  exact (if_neg fresh).trans (if_pos hdirect)

theorem collectiveIn_frame (hfresh : ¬StaleShare s x) (hframe : argNat x 0 1 ≠ 3) : collectiveIn s x = frameTaken s x :=
  (if_neg hfresh).trans (if_neg hframe)

/-- Each kind's outcome is answered with STATUS 0 (R358). -/
theorem execCollectiveReceive_fresh (h : Fresh s x) (hkind : x.kind = 7) : execCollectiveReceive x s = .next (delivered (collectiveIn s x) x) := by
  rw [execCollectiveReceive, if_neg (not_not_intro hkind)]
  refine congrArg Host.Outcome.next (deliver_fresh h ?answers)
  by_cases hstale : StaleShare s x
  · rw [collectiveIn_stale hstale]
    exact if_pos hstale
  refine (if_neg hstale).trans ?_
  by_cases hdirect : argNat x 0 1 = 3
  · rw [collectiveIn_direct hdirect, directIn, apply_ite (fun t : State => (t, some 0)), apply_ite (fun t : State => (t, some 0))]
    exact if_pos hdirect
  · rw [collectiveIn_frame hstale hdirect, frameTaken]
    refine (if_neg hdirect).trans ?_
    cases s.col.live.find? (fun c => frameFor c x) <;> rfl

theorem directIn_disagrees (hbad : disagrees s x = true) : directIn s x = collStop s x.dfloor codeCollMismatch (argNat x 2 2) x.srank := if_pos hbad

theorem directIn_agrees (hgood : disagrees s x = false) :
    directIn s x = if partialDropped s x.dfloor (argNat x 2 2) (argNat x 4 2) x.srank x.step = true then dropPartial s x.dfloor (argNat x 2 2) x.srank
      else partialKept s x :=
  if_neg (Bool.eq_false_iff.mp hgood)

theorem frameTaken_live {c : Coll} (hlive : s.col.live.find? (fun c => frameFor c x) = some c) : frameTaken s x = frameIn s c x := by
  rw [frameTaken, hlive]

theorem frameTaken_early (hnone : s.col.live.find? (fun c => frameFor c x) = none) :
    frameTaken s x = { s with col := { s.col with early := s.col.early ++ [x] } } := by
  rw [frameTaken, hnone]

end

/-- Settles O28: an engine, a slice or a block that is due meets its one branch, and a fresh collective transfer is taken by its kind. -/
theorem updatesComplete : Obligations.UpdatesComplete := by
  refine ⟨fun s hp => ⟨?engine, ?slice, ?block⟩, ?collective⟩
  case engine =>
    exact fun cellar t hcellar hclosed hfirst hdue hfree =>
      (exec_cellarUpdateComplete hp cellar).trans (execCellarUpdateComplete_due hcellar hclosed hfirst hdue hfree)
  case slice =>
    exact fun k q t hq hdue hgo hfirst htake => (exec_sliceDeliver hp k).trans (execSliceDeliver_due hq hdue hgo hfirst htake)
  case block =>
    exact fun floor r rest d hready hdesc hdue hgo =>
      (exec_blockProcessComplete hp floor).trans (execBlockProcessComplete_due hready hdesc hdue hgo)
  case collective =>
    intro s x hp h hkind stale bad gone
    have leaves {t : State} (ht : collectiveIn s x = t) : exec (.collectiveReceive x) s = .next (delivered t x) := by
      rw [exec_collectiveReceive hp, execCollectiveReceive_fresh h hkind, ht]
    refine ⟨fun hstale => ?stale, fun hdirect hbad => ?mismatch, fun hdirect hgood hgone => ?dropped, fun hdirect hgood hkept => ?kept,
      fun hfresh hframe => ⟨fun c hlive => ?live, fun hnone => ?early⟩⟩
    case stale => exact leaves (collectiveIn_stale hstale)
    case mismatch => exact leaves ((collectiveIn_direct hdirect).trans (directIn_disagrees hbad))
    case dropped => exact leaves (((collectiveIn_direct hdirect).trans (directIn_agrees hgood)).trans (if_pos hgone))
    case kept => exact leaves (((collectiveIn_direct hdirect).trans (directIn_agrees hgood)).trans (if_neg (Bool.eq_false_iff.mp hkept)))
    case live => exact leaves ((collectiveIn_frame hfresh hframe).trans (frameTaken_live hlive))
    case early => exact leaves ((collectiveIn_frame hfresh hframe).trans (frameTaken_early hnone))

end Sys2Proof.Proofs
end

section
/-!
The statement on version commands (09_row_placement_and_versions.md).
-/
namespace Sys2Proof.Proofs
open Sys2Proof.Machine Sys2Proof.Laws

/-! ### What each version command does (R227 to R230, Table 9.5) -/

section
variable {s : State} {d : TableDesc} {m : RowMap} {c : VerCmd} {v : Nat}

theorem verEffect_load (hop : c.op = 1) (hfree : (upTo 4).find? (fun v => decide (verState s d v = 0) && !(justFreed s d v)) = some v)
    (hfits : loadFits s d m c = true) : verEffect s d m c = some (loadVersion s d m c v) := by
  simp only [verEffect, hop, hfree, hfits, if_true]

theorem verEffect_ready (hop : c.op = 2) (hslot : slotOf s d c.version [1] = some v) : verEffect s d m c = some (setVerState s d v 2) := by
  simp only [verEffect, hop, hslot, Option.map_some]

theorem verEffect_switch (hop : c.op = 3) (hslot : slotOf s d c.version [2] = some v) :
    verEffect s d m c = some { s with ldr := { s.ldr with switch := some (c.table, c.version) } } := by
  simp only [verEffect, hop, hslot, Option.map_some]

theorem verEffect_bind (hop : c.op = 4) (hslot : slotOf s d c.version [2, 3] = some v) :
    verEffect s d m c = some (setVerRefs s d v (verRefs s d v + 1)) := by
  simp only [verEffect, hop, hslot, Option.map_some]

theorem verEffect_unbind (hop : c.op = 5)
    (hslot : (upTo 4).find? (fun v => decide (verNumber s d v = c.version) && decide (verState s d v ≠ 0) && decide (0 < verRefs s d v)) = some v) :
    verEffect s d m c = some (setVerRefs s d v (verRefs s d v - 1)) := by
  simp only [verEffect, hop, hslot, Option.map_some]

theorem verEffect_discard (hop : c.op = 6) (hslot : slotOf s d c.version [1, 2] = some v) (hunread : verRefs s d v = 0)
    (hstands : s.ldr.switch ≠ some (c.table, c.version)) : verEffect s d m c = some (setVerState s d v 0) := by
  simp only [verEffect, hop, hslot, if_pos (And.intro hunread hstands)]

end

/-! ### A command block (R227) -/

section
variable {s : State} {addr op : Nat}

theorem exec_versionLoad (h : Powered s) : exec (.versionLoad addr) s = .next (verCommand s addr [1]).1 := powered_runs h _

theorem exec_versionReady (h : Powered s) : exec (.versionReady addr) s = .next (verCommand s addr [2]).1 := powered_runs h _

theorem exec_versionSwitchRequest (h : Powered s) : exec (.versionSwitchRequest addr) s = .next (verCommand s addr [3]).1 := powered_runs h _

theorem exec_versionBind (h : Powered s) : exec (.versionBind addr) s = .next (verCommand s addr [4]).1 := powered_runs h _

theorem exec_versionUnbind (h : Powered s) : exec (.versionUnbind addr) s = .next (verCommand s addr [5]).1 := powered_runs h _

theorem exec_versionDiscard (h : Powered s) : exec (.versionDiscard addr) s = .next (verCommand s addr [6]).1 := powered_runs h _

/-- A block of the command's own OP is tried, and its STATUS written last. -/
theorem verCommand_ownOp (hop : (verCmdAt s addr).op = op) :
    (verCommand s addr [op]).1 = writeNat (verTry s (verCmdAt s addr)).1 (addr + 0x3F) 1 (if (verTry s (verCmdAt s addr)).2 then 1 else 2) := by
  have own : ¬(verCmdAt s addr).op ∉ [op] := not_not_intro (List.mem_singleton.mpr hop)
  rw [verCommand, if_neg own]

/-- A block whose table and version record are sound is done where the command has an effect, and refused with nothing else changed where it has none. -/
theorem verCommand_sound (hop : (verCmdAt s addr).op = op) (hd : (tableDesc s (verCmdAt s addr).table).ok = true)
    (hm : (rowMapOf s (tableDesc s (verCmdAt s addr).table)).ok = true)
    (hread : (fetchBytes s (tableDesc s (verCmdAt s addr).table).versions 320 (unitLdr 0)).2.2 = 0) :
    (verCommand s addr [op]).1 =
      (verEffect s (tableDesc s (verCmdAt s addr).table) (rowMapOf s (tableDesc s (verCmdAt s addr).table)) (verCmdAt s addr)).elim
        (writeNat s (addr + 0x3F) 1 2) (fun t => writeNat (verSums t) (addr + 0x3F) 1 1) := by
  rw [verCommand_ownOp hop, verTry_readable _ hread, verResult, if_pos ⟨hd, hm⟩]
  cases verEffect s (tableDesc s (verCmdAt s addr).table) (rowMapOf s (tableDesc s (verCmdAt s addr).table)) (verCmdAt s addr) <;> rfl

end

/-- Settles O27: the effect that a command has, or lacks, on a sound table decides the state its block leaves. -/
theorem versionCommandsComplete : Obligations.VersionCommandsComplete := by
  intro s addr hp c d m done hd hm hread
  have completes {o : Host.Outcome State Fault Refusal} {op : Nat} {t : State} (hexec : o = .next (verCommand s addr [op]).1)
      (hop : c.op = op) (ht : verEffect s d m c = some t) : o = done t := by
    rw [hexec, verCommand_sound hop hd hm hread, ht, Option.elim_some]
  refine ⟨fun v hop hfree hfits => ?load, fun v hop hslot => ?ready, fun v hop hslot => ?switch, fun v hop hslot => ?bind,
    fun v hop hslot => ?unbind, fun v hop hslot hunread hstands => ?discard, fun hnone => ?refused⟩
  case load => exact completes (exec_versionLoad hp) hop (verEffect_load hop hfree hfits)
  case ready => exact completes (exec_versionReady hp) hop (verEffect_ready hop hslot)
  case switch => exact completes (exec_versionSwitchRequest hp) hop (verEffect_switch hop hslot)
  case bind => exact completes (exec_versionBind hp) hop (verEffect_bind hop hslot)
  case unbind => exact completes (exec_versionUnbind hp) hop (verEffect_unbind hop hslot)
  case discard => exact completes (exec_versionDiscard hp) hop (verEffect_discard hop hslot hunread hstands)
  case refused =>
    have refuses {o : Host.Outcome State Fault Refusal} {op : Nat} (hexec : o = .next (verCommand s addr [op]).1) (hop : c.op = op) :
        o = .next (writeNat s (addr + 0x3F) 1 2) := by
      rw [hexec, verCommand_sound hop hd hm hread, hnone, Option.elim_none]
    exact ⟨refuses (exec_versionLoad hp), refuses (exec_versionReady hp), refuses (exec_versionSwitchRequest hp),
      refuses (exec_versionBind hp), refuses (exec_versionUnbind hp), refuses (exec_versionDiscard hp)⟩

end Sys2Proof.Proofs
end

section
/-!
The statement on cuts of a quantity over a group (12_job_mapping.md).
-/
namespace Sys2Proof.Proofs
open Sys2Proof.Machine Sys2Proof.Laws

/-! ### Counts and offsets of a cut (R303) -/

section
variable {Q P p p' : Nat}

theorem shareCount_of_lt_remainder (h : p < Q % P) : shareCount Q P p = Q / P + 1 := by rw [shareCount, if_pos h]

theorem shareCount_of_remainder_le (h : Q % P ≤ p) : shareCount Q P p = Q / P := by rw [shareCount, if_neg h.not_gt, Nat.add_zero]

theorem shareOff_zero : shareOff Q P 0 = 0 := by rw [shareOff, Nat.zero_mul, Nat.zero_min]

/-- A position adds its quotient share to the first part of the offset, and a unit of the remainder to the second while there is one left. -/
theorem shareOff_succ : shareOff Q P (p + 1) = shareOff Q P p + shareCount Q P p := by
  obtain h | h := lt_or_ge p (Q % P)
  · rw [shareCount_of_lt_remainder h, shareOff, shareOff, Nat.min_eq_left h, Nat.min_eq_left h.le, Nat.succ_mul]
    omega
  · rw [shareCount_of_remainder_le h, shareOff, shareOff, Nat.min_eq_right (h.trans p.le_succ), Nat.min_eq_right h, Nat.succ_mul]
    omega

/-- The offset past the last position is P × q + e, the division of Q by P. -/
theorem shareOff_size (hP : 0 < P) : shareOff Q P P = Q := by
  rw [shareOff, Nat.min_eq_right (Nat.mod_lt Q hP).le, Nat.div_add_mod]

theorem shareCount_antitone (h : p ≤ p') : shareCount Q P p' ≤ shareCount Q P p := by
  obtain hp | hp := lt_or_ge p (Q % P)
  · rw [shareCount_of_lt_remainder hp, shareCount]
    split <;> omega
  · rw [shareCount_of_remainder_le hp, shareCount_of_remainder_le (hp.trans h)]

/-- With fewer units than positions all of them are remainder, which ends before the last position. -/
theorem shareCount_last_of_few (h : Q < P) : shareCount Q P (P - 1) = 0 := by
  have remainder : Q % P ≤ P - 1 := by rw [Nat.mod_eq_of_lt h]; omega
  rw [shareCount_of_remainder_le remainder, Nat.div_eq_of_lt h]

end

/-- Settles O57: the offsets are the running sums of the counts, and the remainder lies below e. -/
theorem cutCoversItsUnits : Obligations.CutCoversItsUnits := by
  intro Q P hP
  have countAndOffset (p : Nat) : shareCount Q P p = (if p < Q % P then Q / P + 1 else Q / P) ∧
      shareOff Q P p = p * (Q / P) + min p (Q % P) := by
    refine ⟨?_, rfl⟩
    split
    case isTrue h => exact shareCount_of_lt_remainder h
    case isFalse h => exact shareCount_of_remainder_le (not_lt.mp h)
  exact ⟨fun p _ => countAndOffset p, shareOff_zero, fun _ _ => shareOff_succ, shareOff_size hP,
    fun _ _ hle _ => shareCount_antitone hle, shareCount_last_of_few⟩

end Sys2Proof.Proofs
end

section
/-!
The statements on power, heat and frozen modules (17_control_and_observation.md, 18_power_security_startup.md).
-/
namespace Sys2Proof.Proofs
open Sys2Proof.Machine Sys2Proof.Laws

/-! ### Samples of the input stage (R454) -/

/-- An alarm of PWR_ALARM follows its condition's run of samples: cleared when it is over, set once it has held for 1 ms. -/
def alarmAfter (s : State) (b run : Nat) : State := if run = 0 then alarm s b false else if 10 ≤ run then alarm s b true else s

/-- A sample taken: the registers that show it, the runs of its conditions, and the alarms of V54. -/
def sampleTaken (s : State) (volts watts avg : Nat) (floors : List Nat) (cellars : List (Nat × Nat)) : State :=
  let h := noteHeat (noteRails (notePower s volts watts avg) floors cellars)
  let l := alarmAfter h 1 h.mgmt.low
  alarmAfter l 2 l.mgmt.high

/-- A fault of the power block that aborts the step. -/
def pwrAbort (s : State) (code inst : Nat) (items : Items) : State := sendAbort (pwrFault s code inst items) code

/-- What conditions that have just held for 1 ms cause. -/
def runsChecked (v : State) (volts watts : Nat) : State :=
  let a := if v.mgmt.low = 10 ∨ v.mgmt.high = 10 then pwrAbort v codePowerInput 0 [(volts, 2)] else v
  if a.mgmt.above = 10 then pwrAbort a codePowerOverload 0 [(watts, 2)] else a

section
variable {s : State} (volts watts avg : Nat) (floors : List Nat) (cellars : List (Nat × Nat))

theorem exec_powerSample : exec (.powerSample volts watts avg floors cellars) s =
    if volts < 4000 then .next (powerLoss s)
    else if volts < 4400 ∧ (sampleTaken s volts watts avg floors cellars).mgmt.lockout = 0 then
      .next (mainsOff (pwrAbort (sampleTaken s volts watts avg floors cellars) codePowerInput 0 [(volts, 2)]))
    else .next (runsChecked (sampleTaken s volts watts avg floors cellars) volts watts) := rfl

theorem exec_powerSample_held (h : 4400 ≤ volts) : exec (.powerSample volts watts avg floors cellars) s =
    .next (runsChecked (sampleTaken s volts watts avg floors cellars) volts watts) := by
  have on : ¬volts < 4000 := by omega
  have kept : ¬(volts < 4400 ∧ (sampleTaken s volts watts avg floors cellars).mgmt.lockout = 0) := fun low => by omega
  rw [exec_powerSample, if_neg on, if_neg kept]

end

/-! ### Samples of a floor's sensors (R458, Table 18.2) -/

/-- A sample taken: the floor's registers, its three flags, and the conditions of R459 noted. -/
def floorTaken (s : State) (floor temp sensor speed : Nat) : State :=
  let t := toSigned 12 temp
  let a := rThmFloor floor
  let n := noteFloor s floor temp sensor speed
  let u := level2 n a 17 t (throttle n) (throttle n - 48)
  let v := level2 u a 18 t (16 * 105) (16 * 100)
  noteHeat (level2 v a 19 t (16 * 115 + 1) (throttle v))

/-- A floor that has just passed 115 °C aborts the step. -/
def overChecked (s w : State) (floor : Nat) : State :=
  if floorOver w floor ∧ floorOver s floor = false then sendAbort (thmFault w codeFloorOvertemp floor) codeFloorOvertemp else w

section
variable {s : State} {floor : Nat} (temp sensor speed : Nat)

theorem exec_floorTempSample (hfloor : floor < 10) : exec (.floorTempSample floor temp sensor speed) s =
    if 16 * 125 ≤ toSigned 12 temp then .next (thermalTrip (floorTaken s floor temp sensor speed) floor)
    else .next (overChecked s (floorTaken s floor temp sensor speed) floor) := by
  have run : exec (.floorTempSample floor temp sensor speed) s =
      if 16 * 125 ≤ toSigned 12 temp then .next (thermalTrip (floorTaken s floor temp sensor speed) floor)
      else .next (if floorOver (floorTaken s floor temp sensor speed) floor && !floorOver s floor
        then sendAbort (thmFault (floorTaken s floor temp sensor speed) codeFloorOvertemp floor) codeFloorOvertemp
        else floorTaken s floor temp sensor speed) := if_neg (Nat.not_le.mpr hfloor)
  simp only [run, overChecked, Bool.and_eq_true, Bool.not_eq_true']

theorem exec_floorTempSample_none (hfloor : 10 ≤ floor) : exec (.floorTempSample floor temp sensor speed) s = .next s := if_pos hfloor

theorem exec_railOverload (h : Powered s) (kind inst : Nat) :
    exec (.railOverload kind inst) s = .next (pwrAbort s codePowerOverload inst [(kind, 2), (inst, 2)]) := powered_runs h _

theorem exec_droop (h : Powered s) (hfloor : floor < 10) (below : Bool) :
    let u := regCount (withField s rPwrAlarm 3 3 1) rPwrAlarm 31 16 1
    exec (.droop floor below) s = .next (if below then pwrAbort u codeUndervolt floor [(floor, 2)] else u) :=
  (powered_runs h _).trans (if_neg (Nat.not_le.mpr hfloor))

end

/-- Settles O47: a sample of the input is taken and then meets R454's thresholds, one of a floor those of Table 18.2. -/
theorem powerAndHeatComplete : Obligations.PowerAndHeatComplete := by
  intro s
  refine ⟨fun volts watts avg floors cellars => ⟨?loss, ?input⟩, fun h kind inst => exec_railOverload h kind inst, ?droop, ?floor, rfl, rfl, rfl⟩
  case loss => exact fun hlow => if_pos hlow
  case input =>
    intro hon h l v a
    refine ⟨fun hlow hready => ?_, exec_powerSample_held volts watts avg floors cellars⟩
    rw [exec_powerSample, if_neg (Nat.not_lt.mpr hon)]
    exact if_pos ⟨hlow, hready⟩
  case droop =>
    intro h floor hfloor u
    exact ⟨exec_droop h hfloor false, exec_droop h hfloor true⟩
  case floor =>
    intro floor temp sensor speed hfloor t a n u v w
    rw [exec_floorTempSample temp sensor speed hfloor]
    exact ⟨fun htrip => if_pos htrip, fun hcool => if_neg (Int.not_le.mpr hcool)⟩

/-! ### Units without a clock (R448) -/

/-- A unit of a main domain does nothing without the module's clocks. -/
theorem powered_frozen {s : State} (h : Frozen s) (o : Host.Outcome State Fault Refusal) : powered s o = .next s := by
  have still : clocksStopped s = true := h
  simp only [powered, mainsIdle, still, Bool.true_or, if_true]

/-- A command of a unit that needs the module's clocks: all but those of the sensors, the input stage, the standby domain and the scan port. -/
def NeedsClock (c : Sys2Proof.Instr) : Prop :=
  match c with
  | .scanSelect _ => False
  | .scanRead => False
  | .powerSample _ _ _ _ _ => False
  | .carrierRegulatorSensorTrip => False
  | .floorTempSample _ _ _ _ => False
  | .cellarTempReading _ _ _ => False
  | .presentNAssert => False
  | .presentNDeassert => False
  | .standbyStage _ => False
  | _ => True

/-- Such a command's meaning is guarded by `clocked`, or, in a main domain, by `powered`. -/
theorem exec_frozen {s : State} {c : Sys2Proof.Instr} (h : Frozen s) (hc : NeedsClock c) : exec c s = .next s := by
  cases c with
  | scanSelect | scanRead | powerSample | carrierRegulatorSensorTrip | floorTempSample | cellarTempReading | presentNAssert | presentNDeassert
  | standbyStage => exact hc.elim
  | nop | query | regRead | regWrite | openSession | closeSession | registerRegion | winMove | setStaging | batch | jobLoad | jobStart | jobStop
  | jobUnload | restore | journalSafe | version | mapout | attest | wrapCak | mgmtRequest | mpWatchdog | mpSramUncorrectable | watchdogKick
  | irqLevelChange | irqHoldoffExpiry | irqClaim | irqEoi | irqSwset | irqSwclr | evrRecordWrite | evrData | evrCursor | evrFire | evrSoft
  | evrTimeTrigger | evrSnapshotComplete | cvuGo | cvuComplete | freezeN | mpFreezeNow | timedFreeze | secMr3Ext | bootRomStage | travarStage
  | configurationStage | floorBringupStage | cellarTrainingStage | linkStage | fabricTimeStage | attestationStage | letterboxStage
  | serviceImageWrite | serviceConfigWrite | serviceReset | registerWrite | managementPortLinkChange | registerReadClear | coreReset =>
    exact clocked_frozen h _
  | _ => exact powered_frozen h _

/-- Settles O5: every command but the exceptions is guarded by the module's clocks. -/
theorem frozenUnitsDoNothing : Obligations.FrozenUnitsDoNothing := fun _ _ h hc => exec_frozen h hc

/-! ### What still acts in a frozen module (R448) -/

/-- The state with what the samples, the sensors and the scan port of a frozen module write set aside: the registers and the notes of their cycle, the
runs of samples, the stretch policy's conditions, and what a scan reads. -/
def jobPart (s : State) : State :=
  { s with regs := [], cyc := {}, mgmt := { frozen := s.mgmt.frozen, stage := s.mgmt.stage }, pol := {}, freeCount := 0, lastRead := 0 }

/-- Nothing but what `jobPart` sets aside differs. -/
def JobStands (s t : State) : Prop := jobPart t = jobPart s

theorem JobStands.refl (s : State) : JobStands s s := rfl

theorem JobStands.trans {s t u : State} (h : JobStands s t) (k : JobStands t u) : JobStands s u := Eq.trans k h

theorem JobStands.ite {s t u : State} {c : Prop} [Decidable c] (h : JobStands s t) (k : JobStands s u) : JobStands s (if c then t else u) := by
  split
  · exact h
  · exact k

theorem JobStands.foldl {α : Type} {f : State → α → State} (h : ∀ s x, JobStands s (f s x)) (l : List α) : ∀ s, JobStands s (l.foldl f s) := by
  induction l with
  | nil => exact JobStands.refl
  | cons x l ih => exact fun s => (h s x).trans (ih _)

theorem JobStands.fields {s t : State} (h : JobStands s t) : t.mgmt.frozen = s.mgmt.frozen ∧ t.mgmt.stage = s.mgmt.stage ∧ t.now = s.now ∧
    t.beat = s.beat ∧ t.pending = s.pending ∧ t.rooms = s.rooms ∧ t.mem = s.mem ∧ t.poison = s.poison ∧ t.seq = s.seq ∧ t.cel = s.cel ∧
    t.ldr = s.ldr ∧ t.den = s.den ∧ t.col = s.col ∧ t.fab = s.fab ∧ t.jrnl = s.jrnl ∧ t.att = s.att ∧ t.por = s.por ∧ t.job = s.job ∧
    t.sec = s.sec ∧ t.evr = s.evr ∧ t.irq = s.irq ∧ t.cvu = s.cvu := by
  simp only [JobStands, jobPart, State.mk.injEq, Mgmt.mk.injEq] at h
  simp only [h, and_self]

theorem JobStands.frozen {s t : State} (h : JobStands s t) (hs : Frozen s) : Frozen t := by
  obtain ⟨hfrozen, -, hnow, -⟩ := h.fields
  have stopped : clocksStopped t = clocksStopped s := by rw [clocksStopped, clocksStopped, hfrozen, hnow]
  exact stopped.trans hs

section
variable {s : State}

/-- The clocks stand still from 16 cycles after the freeze on (Table 17.5). -/
theorem frozen_iff : Frozen s ↔ ∃ c, s.mgmt.frozen = some c ∧ c + 16 ≤ s.now := by
  rw [Frozen, clocksStopped]
  cases s.mgmt.frozen <;> simp

theorem isSome_frozen (h : Frozen s) : s.mgmt.frozen.isSome = true := by
  obtain ⟨c, hc, -⟩ := frozen_iff.mp h
  rw [hc]
  rfl

theorem frozen_tick (h : Frozen s) : Frozen (tick s) := by
  obtain ⟨c, hc, hnow⟩ := frozen_iff.mp h
  rw [tick_frozen h]
  exact frozen_iff.mpr ⟨c, hc, hnow.trans (Nat.le_succ _)⟩

/-! ### What each update leaves -/

theorem regPut_stands (s : State) (a hi lo v : Nat) : JobStands s (regPut s a hi lo v) := rfl

theorem regPeak_stands (s : State) (a hi lo v : Nat) : JobStands s (regPeak s a hi lo v) := rfl

theorem regPeakSigned_stands (s : State) (a hi lo v : Nat) : JobStands s (regPeakSigned s a hi lo v) := rfl

theorem alarm_stands (s : State) (b : Nat) (on : Bool) : JobStands s (alarm s b on) := rfl

theorem policy_stands (s : State) (p : Policy) : JobStands s { s with pol := p } := rfl

theorem noteHeat_stands (s : State) : JobStands s (noteHeat s) := rfl

theorem runs_stands (s : State) (low high above : Nat) : JobStands s { s with mgmt := { s.mgmt with low := low, high := high, above := above } } := rfl

theorem notePower_stands (s : State) (volts watts avg : Nat) : JobStands s (notePower s volts watts avg) :=
  (regPut_stands s _ 15 0 volts).trans <| (regPut_stands _ _ 31 16 watts).trans <| (regPut_stands _ _ 47 32 avg).trans <|
    (regPeak_stands _ _ 63 48 watts).trans <| (alarm_stands _ 0 _).trans (runs_stands _ _ _ _)

theorem noteRails_stands (s : State) (floors : List Nat) (cellars : List (Nat × Nat)) : JobStands s (noteRails s floors cellars) :=
  (JobStands.foldl (fun s _ => regPut_stands s _ _ _ _) _ s).trans
    (JobStands.foldl (fun s _ => (regPut_stands s _ _ _ _).trans (regPut_stands _ _ _ _ _)) _ _)

theorem alarmAfter_stands (s : State) (b run : Nat) : JobStands s (alarmAfter s b run) :=
  .ite (alarm_stands s b false) (.ite (alarm_stands s b true) (.refl s))

theorem level2_stands (s : State) (a b : Nat) (t hi lo : Int) : JobStands s (level2 s a b t hi lo) := .ite rfl (.ite rfl (.refl s))

theorem withFlag_stands (s : State) (a i : Nat) (on off : Prop) [Decidable on] [Decidable off] : JobStands s (withFlag s a i on off) :=
  .ite rfl (.ite rfl (.refl s))

theorem requestVoltage_stands (s : State) (f mv : Nat) : JobStands s (requestVoltage s f mv) :=
  (regPut_stands s (rPwrFloor f) 25 16 mv).trans (policy_stands _ _)

theorem noteFloor_stands (s : State) (f temp sensor speed : Nat) : JobStands s (noteFloor s f temp sensor speed) :=
  (regPut_stands s _ 11 0 temp).trans <| (regPut_stands _ _ 16 12 sensor).trans <| (regPeakSigned_stands _ _ 43 32 temp).trans <|
    (regPut_stands _ _ 15 0 speed).trans (.ite (requestVoltage_stands _ f _) (.refl _))

/-- The recorder of a frozen module takes no record. -/
theorem recordFault_frozen (h : Frozen s) (code unit : Nat) (items : Items) : recordFault s code unit items = s := if_pos (isSome_frozen h)

/-- A frozen module sends no abort. -/
theorem sendAbort_frozen (h : Frozen s) (code : Nat) : sendAbort s code = s := by
  have still : clocksStopped s = true := h
  rw [sendAbort, if_neg (by simp [still])]

theorem latchFault_stands (s : State) (a vb code : Nat) : JobStands s (latchFault s a vb code) :=
  .ite ((regPut_stands s _ _ _ _).trans (regPut_stands _ _ _ _ _)) (.refl s)

/-- So a fault is held in its block's register alone. -/
theorem recordFault_stands {t : State} (h : Frozen s) (k : JobStands s t) (code unit : Nat) (items : Items) :
    JobStands s (recordFault t code unit items) := by
  rwa [recordFault_frozen (k.frozen h)]

theorem sendAbort_stands {t : State} (h : Frozen s) (k : JobStands s t) (code : Nat) : JobStands s (sendAbort t code) := by
  rwa [sendAbort_frozen (k.frozen h)]

theorem pwrAbort_stands (h : Frozen s) (code inst : Nat) (items : Items) : JobStands s (pwrAbort s code inst items) :=
  sendAbort_stands h (recordFault_stands h (latchFault_stands s _ _ _) _ _ _) code

theorem thmAbort_stands (h : Frozen s) (code f : Nat) : JobStands s (sendAbort (thmFault s code f) code) :=
  sendAbort_stands h (recordFault_stands h (.ite latched (.refl s)) _ _ _) code
where
  latched : JobStands s (regPut (regPut (regPut s rThmFault 15 0 code) rThmFault 19 16 f) rThmFault 20 20 1) :=
    (regPut_stands s _ _ _ _).trans <| (regPut_stands _ _ _ _ _).trans (regPut_stands _ _ _ _ _)

/-! ### What each sample leaves -/

theorem sampleTaken_stands (s : State) (volts watts avg : Nat) (floors : List Nat) (cellars : List (Nat × Nat)) :
    JobStands s (sampleTaken s volts watts avg floors cellars) :=
  (notePower_stands s volts watts avg).trans <| (noteRails_stands _ floors cellars).trans <| (noteHeat_stands _).trans <|
    (alarmAfter_stands _ 1 _).trans (alarmAfter_stands _ 2 _)

theorem runsChecked_stands (h : Frozen s) (volts watts : Nat) : JobStands s (runsChecked s volts watts) := by
  have input : JobStands s (if s.mgmt.low = 10 ∨ s.mgmt.high = 10 then pwrAbort s codePowerInput 0 [(volts, 2)] else s) :=
    .ite (pwrAbort_stands h _ _ _) (.refl s)
  exact .ite (input.trans (pwrAbort_stands (input.frozen h) _ _ _)) input

theorem floorTaken_stands (s : State) (floor temp sensor speed : Nat) : JobStands s (floorTaken s floor temp sensor speed) :=
  (noteFloor_stands s floor temp sensor speed).trans <| (level2_stands _ _ 17 _ _ _).trans <| (level2_stands _ _ 18 _ _ _).trans <|
    (level2_stands _ _ 19 _ _ _).trans (noteHeat_stands _)

theorem readingTaken_stands (s : State) (cellar temp die : Nat) : JobStands s (readingTaken s cellar temp die) :=
  (regPut_stands s _ 11 0 temp).trans <| (regPut_stands _ _ 15 12 die).trans <| (regPeakSigned_stands _ _ 43 32 temp).trans <|
    (withFlag_stands _ _ 16 _ _).trans <| (withFlag_stands _ _ 17 _ _).trans (noteHeat_stands _)

end

/-! ### What each command leaves -/

/-- A command that takes no domain's power away (R454, R458, R478): the input is above 44 V, no sensor is at 125 °C, and PRESENT_N does not rise. -/
def KeepsPower (c : Sys2Proof.Instr) : Prop :=
  match c with
  | .powerSample v _ _ _ _ => 4400 ≤ v
  | .floorTempSample _ temp _ _ => toSigned 12 temp < 16 * 125
  | .cellarTempReading _ temp _ => toSigned 12 temp < 16 * 125
  | .carrierRegulatorSensorTrip => False
  | .presentNDeassert => False
  | _ => True

section
variable {s : State}

theorem powerSample_stands (h : Frozen s) {volts : Nat} (hv : 4400 ≤ volts) (watts avg : Nat) (floors : List Nat) (cellars : List (Nat × Nat)) :
    ∃ t, exec (.powerSample volts watts avg floors cellars) s = .next t ∧ JobStands s t := by
  have taken := sampleTaken_stands s volts watts avg floors cellars
  exact ⟨_, exec_powerSample_held volts watts avg floors cellars hv, taken.trans (runsChecked_stands (taken.frozen h) volts watts)⟩

theorem floorTempSample_stands (h : Frozen s) {temp : Nat} (ht : toSigned 12 temp < 16 * 125) (floor sensor speed : Nat) :
    ∃ t, exec (.floorTempSample floor temp sensor speed) s = .next t ∧ JobStands s t := by
  obtain hfloor | hfloor := lt_or_ge floor 10
  · have taken := floorTaken_stands s floor temp sensor speed
    refine ⟨overChecked s (floorTaken s floor temp sensor speed) floor, ?_, .ite (taken.trans (thmAbort_stands (taken.frozen h) _ _)) taken⟩
    rw [exec_floorTempSample temp sensor speed hfloor, if_neg (Int.not_le.mpr ht)]
  · exact ⟨s, exec_floorTempSample_none temp sensor speed hfloor, .refl s⟩

theorem cellarTempReading_stands (h : Frozen s) {temp : Nat} (ht : toSigned 12 temp < 16 * 125) (cellar die : Nat) :
    ∃ t, exec (.cellarTempReading cellar temp die) s = .next t ∧ JobStands s t := by
  obtain hcellar | hcellar := lt_or_ge cellar 20
  · have taken := readingTaken_stands s cellar temp die
    have still : clocksStopped (readingTaken s cellar temp die) = true := taken.frozen h
    refine ⟨_, ?_, taken⟩
    rw [exec_cellarTempReading temp die hcellar, if_neg (Int.not_le.mpr ht), if_neg fun hot => Bool.noConfusion (still.symm.trans hot.2.2)]
  · exact ⟨s, if_pos hcellar, .refl s⟩

theorem scanSelect_stands (chain : Nat) : ∃ t, exec (.scanSelect chain) s = .next t ∧ JobStands s t := by
  cases hf : s.mgmt.frozen.isNone with
  | true => exact ⟨s, if_pos hf, .refl s⟩
  | false => exact ⟨_, if_neg (Bool.eq_false_iff.mp hf), rfl⟩

theorem scanRead_stands : ∃ t, exec .scanRead s = .next t ∧ JobStands s t := by
  change ∃ t, execScanRead s = .next t ∧ JobStands s t
  unfold execScanRead
  split
  · exact ⟨_, rfl, rfl⟩
  · exact ⟨s, rfl, .refl s⟩

/-- Start-up's first stage has ended, so the standby stage does nothing. -/
theorem exec_standbyStage_later (hstage : s.mgmt.stage ≠ 0) (low : Bool) : exec (.standbyStage low) s = .next s := by
  have past : ¬atStage s 0 = true := by simp [atStage, hstage]
  exact if_neg past

/-- Whatever command comes to a frozen module that keeps its power, the job stands. -/
theorem exec_stands {c : Sys2Proof.Instr} (h : Frozen s) (hstage : s.mgmt.stage ≠ 0) (hc : KeepsPower c) : ∃ t, exec c s = .next t ∧ JobStands s t := by
  cases c with
  | scanSelect chain => exact scanSelect_stands chain
  | scanRead => exact scanRead_stands
  | powerSample volts watts avg floors cellars => exact powerSample_stands h hc watts avg floors cellars
  | floorTempSample floor temp sensor speed => exact floorTempSample_stands h hc floor sensor speed
  | cellarTempReading cellar temp die => exact cellarTempReading_stands h hc cellar die
  | presentNAssert => exact ⟨_, rfl, rfl⟩
  | standbyStage low => exact ⟨s, exec_standbyStage_later hstage low, .refl s⟩
  | carrierRegulatorSensorTrip | presentNDeassert => exact hc.elim
  | _ => exact ⟨s, exec_frozen h trivial, .refl s⟩

end

/-- Settles O54: on an empty queue only time passes, and a command that keeps the power leaves the job as it stands. -/
theorem frozenModulesStayFrozen : Obligations.FrozenModulesStayFrozen := by
  intro s t h hstage hstep hc
  cases hp : s.pending with
  | nil =>
    have ht : t = tick s := by
      rw [step_of_pending_nil hp] at hstep
      exact (Host.Outcome.next.inj hstep).symm
    have still : Frozen t := ht ▸ frozen_tick h
    rw [tick_frozen h] at ht
    subst ht
    exact ⟨still, hstage, Nat.le_succ _, rfl, by rw [hp]; rfl, rfl, rfl, rfl, rfl, rfl, rfl, rfl, rfl, rfl, rfl, rfl, rfl, rfl, rfl, rfl, rfl, rfl⟩
  | cons c rest =>
    have keeps : KeepsPower c := hc c (by rw [hp]; rfl)
    obtain ⟨u, hexec, stands⟩ := exec_stands (s := { s with pending := rest }) h hstage keeps
    have ht : t = u := by
      rw [step, hp] at hstep
      exact Host.Outcome.next.inj (hstep.symm.trans hexec)
    rw [ht]
    obtain ⟨-, hkept, hnow, hbeat, hpending, rest⟩ := stands.fields
    exact ⟨stands.frozen h, hkept.trans_ne hstage, hnow.ge, hbeat, hpending, rest⟩

end Sys2Proof.Proofs
end

section
/-!
The statements on links, flits and transfers (14_nimfeol_and_porch.md).
-/
namespace Sys2Proof.Proofs
open Sys2Proof.Machine Sys2Proof.Laws

/-! ### Lanes, retraining and training (R350, R351, R353) -/

theorem satTo_eq_min (m x : Nat) : satTo m x = min m x := by
  unfold satTo
  split <;> omega

/-- The spare takes over `lane` of a link, which pauses while it does (R351). -/
def laneSpared (s : State) (link lane pause : Nat) : State :=
  let u := fabFault (withField s (rLnkState link) 5 3 lane) codeLaneSpared link [(link, 2), (lane, 1)]
  setLink u link { getLink u link with pause := u.now + pause }

section
variable {s : State} {link : Nat}

/-- A lane of an active link whose spare is unused is replaced. -/
theorem spareLane_first {lane : Nat} (pause : Nat) (hup : linkState s link = 2) (hspare : regBits s (rLnkState link) 5 3 = 7) (hlane : lane < 4) :
    spareLane s link lane pause = laneSpared s link lane pause := by
  have active : ¬(linkState s link ≠ 2 ∨ 5 ≤ lane ∨ lane = 7 ∨ (lane = 4 ∧ True)) := by omega
  simp only [spareLane, hspare, if_true, if_neg active]
  rfl

/-- A second one takes the link down. -/
theorem spareLane_second {lane : Nat} (pause : Nat) (hup : linkState s link = 2) (hspare : regBits s (rLnkState link) 5 3 ≠ 7)
    (hother : lane ≠ regBits s (rLnkState link) 5 3) (hlane : lane < 5) : spareLane s link lane pause = linkFails s link := by
  have active : ¬(linkState s link ≠ 2 ∨ 5 ≤ lane ∨ lane = regBits s (rLnkState link) 5 3 ∨ (lane = 4 ∧ regBits s (rLnkState link) 5 3 = 7)) := by omega
  rw [spareLane, if_neg active, if_neg hspare]

theorem exec_laneSpare (h : Powered s) (hlink : link < 50) (lane : Nat) : exec (.laneSpare link lane) s = .next (spareLane s link lane 180) :=
  (powered_runs h _).trans (congrArg _ (if_pos hlink))

theorem exec_laneLossOfLock (h : Powered s) (hlink : link < 50) (lane : Nat) :
    exec (.laneLossOfLock link lane) s = .next (spareLane s link lane 2600) :=
  (powered_runs h _).trans (congrArg _ (if_pos hlink))

theorem exec_spareNow (h : Powered s) (hlink : link < 50) : exec (.spareNow link) s = .next (spareNow s link) :=
  (powered_runs h _).trans (congrArg _ (if_pos hlink))

theorem exec_linkRetrain (h : Powered s) (hlink : link < 50) : exec (.linkRetrain link) s = .next (retrainLink s link) :=
  (powered_runs h _).trans (congrArg _ (if_pos hlink))

theorem exec_linkAckTimeout (h : Powered s) : exec (.linkAckTimeout link) s = execLinkAckTimeout link s := powered_runs h _

theorem exec_linkTrainComplete (h : Powered s) (ok : Bool) (c0 c1 c2 : Nat) :
    exec (.linkTrainComplete link ok c0 c1 c2) s = execLinkTrainComplete link ok c0 c1 c2 s := powered_runs h _

theorem execLinkAckTimeout_due (hlink : link < 50) (hup : linkState s link = 2) (hsent : (getLink s link).acked < (getLink s link).sent)
    (hdue : (getLink s link).lastAck + 2 ^ 20 ≤ s.now) : execLinkAckTimeout link s = .next (linkDown s link 1) :=
  if_neg (by omega)

/-- A training that succeeds brings the link up, with lane 4 as its spare and the credits of its partner. -/
theorem execLinkTrainComplete_up (hlink : link < 50) (htrain : linkState s link = 1) (c0 c1 c2 : Nat) :
    let st := rLnkState link
    let up := withField (withField (setLinkState s link 2) st 15 8 0) st 5 3 7
    execLinkTrainComplete link true c0 c1 c2 s =
      .next (pumpLink (reroute (setLink up link { cr0 := c0, cr1 := c1, cr2 := c2, lastAck := up.now }) 50) link) :=
  if_neg (by omega)

/-- One that fails is counted, and the third in succession fails the link. -/
theorem execLinkTrainComplete_missed (hlink : link < 50) (htrain : linkState s link = 1) {n : Nat} (hn : n = regBits s (rLnkState link) 15 8 + 1)
    (c0 c1 c2 : Nat) :
    let counted := withField s (rLnkState link) 15 8 (min 255 n)
    execLinkTrainComplete link false c0 c1 c2 s = .next (if 3 ≤ n then linkFails counted link else counted) := by
  have run : execLinkTrainComplete link false c0 c1 c2 s = .next (if 3 ≤ regBits s (rLnkState link) 15 8 + 1
      then linkFails (withField s (rLnkState link) 15 8 (satTo 255 (regBits s (rLnkState link) 15 8 + 1))) link
      else withField s (rLnkState link) 15 8 (satTo 255 (regBits s (rLnkState link) 15 8 + 1))) := if_neg (by omega)
  rw [run, satTo_eq_min, ← hn]

end

/-- Settles O29: a lane that goes bad meets the spare or its lack, and a link's other events each their one branch. -/
theorem linksComplete : Obligations.LinksComplete := by
  intro s link h hlink k st ctl spared
  refine ⟨fun hup => ⟨?first, ?second⟩, ?now, ?enabled, ?disabled, ?ack, ?train⟩
  case first =>
    intro lane hspare hlane
    exact ⟨(exec_laneSpare h hlink lane).trans (congrArg _ (spareLane_first 180 hup hspare hlane)),
      (exec_laneLossOfLock h hlink lane).trans (congrArg _ (spareLane_first 2600 hup hspare hlane))⟩
  case second =>
    intro lane hspare hother hlane
    exact ⟨(exec_laneSpare h hlink lane).trans (congrArg _ (spareLane_second 180 hup hspare hother hlane)),
      (exec_laneLossOfLock h hlink lane).trans (congrArg _ (spareLane_second 2600 hup hspare hother hlane))⟩
  case now => exact fun hlane hspare => (exec_spareNow h hlink).trans (congrArg _ (if_pos ⟨hlane, hspare⟩))
  case enabled => exact fun hen => (exec_linkRetrain h hlink).trans (congrArg _ (if_pos hen))
  case disabled =>
    intro hoff
    have off : ¬regBits s ctl 0 0 = 1 := by
      rw [hoff]
      decide
    exact (exec_linkRetrain h hlink).trans (congrArg _ (if_neg off))
  case ack => exact fun hup hsent hdue => (exec_linkAckTimeout h).trans (execLinkAckTimeout_due hlink hup hsent hdue)
  case train =>
    intro c0 c1 c2 htrain up n
    have missed := (exec_linkTrainComplete h false c0 c1 c2).trans (execLinkTrainComplete_missed hlink htrain (n := n) rfl c0 c1 c2)
    refine ⟨(exec_linkTrainComplete h true c0 c1 c2).trans (execLinkTrainComplete_up hlink htrain c0 c1 c2), fun hfew => ?_,
      fun hmany => missed.trans (congrArg _ (if_pos hmany))⟩
    have few : min 255 n = n := Nat.min_eq_right (by omega)
    rw [missed, if_neg (Nat.not_le.mpr hfew), few]

/-! ### Flits and NAKs (R352 to R356, R364) -/

section
variable {s : State} {link : Nat}

theorem exec_flitReceive (h : Powered s) (f : Sys2Proof.FlitIn) : exec (.flitReceive link f) s = execFlitReceive link f s := powered_runs h _

theorem exec_nakReceive (h : Powered s) (seq : Nat) : exec (.nakReceive link seq) s = execNakReceive link seq s := powered_runs h _

/-- A link that takes flits: active, of the module's fifty. -/
theorem not_inactive (hlink : link < 50) (hup : linkState s link = 2) : ¬(50 ≤ link ∨ linkState s link ≠ 2) := by omega

theorem execFlitReceive_bad (hlink : link < 50) (hup : linkState s link = 2) (fec : Bool) :
    execFlitReceive link (.bad fec) s = .next (refuseFlit s link fec) := if_neg (not_inactive hlink hup)

theorem noteSymbols_five (e0 e1 e2 e3 e4 : Nat) : noteSymbols s link [e0, e1, e2, e3, e4] =
    [(0, e0), (1, e1), (2, e2), (3, e3), (4, e4)].foldl (fun t e => regCount t (rLnkLane link) (8 * e.1 + 7) (8 * e.1) e.2)
      (regCount s (rLnkFec link) 39 0 (e0 + e1 + e2 + e3 + e4)) := by
  have total : ([e0, e1, e2, e3, e4].take 5).sum = e0 + e1 + e2 + e3 + e4 := by
    simp only [List.take_succ_cons, List.take_zero, List.sum_cons, List.sum_nil]
    omega
  rw [noteSymbols, total]
  rfl

theorem execFlitReceive_symbols (hlink : link < 50) (hup : linkState s link = 2) (errs : List Nat) :
    execFlitReceive link (.symbols errs) s = .next (noteSymbols s link errs) := if_neg (not_inactive hlink hup)

theorem execFlitReceive_control (hlink : link < 50) (hup : linkState s link = 2) (acked c0 c1 c2 : Nat) :
    let k := getLink s link
    execFlitReceive link (.control acked c0 c1 c2) s = .next (pumpLink (setLink s link { k with
      acked := max k.acked (min acked k.sent), lastAck := s.now, cr0 := k.cr0 + c0, cr1 := k.cr1 + c1, cr2 := k.cr2 + c2 }) link) :=
  if_neg (not_inactive hlink hup)

theorem execFlitReceive_unsound (hlink : link < 50) (hup : linkState s link = 2) {b : List Byte} (hbad : Machine.flitOk b = false) :
    execFlitReceive link (.bytes b) s = .next (refuseFlit s link false) := by
  have unsound : (!Machine.flitOk b) = true := by rw [hbad, Bool.not_false]
  exact (if_neg (not_inactive hlink hup)).trans (if_pos unsound)

/-- The link after a sound flit: one more received, and no NAK of it stands. -/
def flitTaken (s : State) (link : Nat) : State :=
  setLink s link { getLink s link with received := (getLink s link).received + 1, nakOut := false }

/-- What becomes of a sound transfer flit: one of another job is counted, the first recorded; one for this rank joins its transfer. -/
theorem execFlitReceive_transfer (hlink : link < 50) (hup : linkState s link = 2) {b : List Byte} (hok : Machine.flitOk b = true)
    (hform : leNat ((b.drop 5).take 1) = 0x10) :
    let u := flitTaken s link
    let v := regCount u rFabStat 47 32 1
    execFlitReceive link (.bytes b) s =
      if leNat ((b.drop 6).take 2) ≠ regBits u rFabJob 15 0 then
        .next (if v.fab.foreign then v else fabFault { v with fab := { v.fab with foreign := true } } codeForeign link [(leNat ((b.drop 2).take 2), 2)])
      else if leNat ((b.drop 0).take 2) ≠ rank u then .next u
      else .next (takeFlit u b) := by
  have sound : ¬(!Machine.flitOk b) = true := by rw [hok, Bool.not_true]; decide
  exact (if_neg (not_inactive hlink hup)).trans ((if_neg sound).trans (if_neg (not_not_intro hform)))

/-- The partner names a flit that is still unacknowledged: it and every later one are replayed, at most 16 times. -/
theorem execNakReceive_sent (hlink : link < 50) (hup : linkState s link = 2) {seq : Nat} (hacked : (getLink s link).acked ≤ seq)
    (hsent : seq < (getLink s link).sent) :
    let k := getLink s link
    let n := if k.replaySeq = seq then k.replays + 1 else 1
    let u := regCount s (rLnkRetry link) 31 0 (k.sent - seq)
    execNakReceive link seq s = if 16 < n then .next (linkDown u link 1) else .next (setLink u link { k with replaySeq := seq, replays := n }) :=
  if_neg (by omega)

end

/-- Settles O30: an active link takes each kind of flit in one way, a sound one by its job and its rank. -/
theorem flitsComplete : Obligations.FlitsComplete := by
  intro s link h hlink hup k
  simp only [exec_flitReceive h, exec_nakReceive h]
  refine ⟨execFlitReceive_bad hlink hup, fun e0 e1 e2 e3 e4 => ?symbols, execFlitReceive_control hlink hup,
    fun b => ⟨execFlitReceive_unsound hlink hup, fun hok hform => ?sound⟩, fun seq hacked hsent => ?nak⟩
  case symbols => rw [execFlitReceive_symbols hlink hup, noteSymbols_five]
  case sound =>
    have taken := execFlitReceive_transfer hlink hup hok hform
    refine ⟨fun hjob => taken.trans (if_pos hjob), fun hjob hrank => ?_⟩
    exact taken.trans ((if_neg (not_not_intro hjob)).trans (if_neg (not_not_intro hrank)))
  case nak =>
    have replayed := execNakReceive_sent hlink hup hacked hsent
    exact ⟨fun hfew => replayed.trans (if_neg (Nat.not_lt.mpr hfew)), fun hmany => replayed.trans (if_pos hmany)⟩

/-! ### Acknowledgements, resends, SENDs and peer writes (R357 to R359, R361, R363) -/

section
variable {s : State} {x : Transfer}

theorem exec_ackReceive (h : Powered s) (acks : List (Nat × Nat × Nat × Nat)) : exec (.ackReceive acks) s = .next (acks.foldl ackOne s) :=
  powered_runs h (execAckReceive acks s)

theorem exec_e2eTimeout (h : Powered s) (floor xid : Nat) : exec (.e2eTimeout floor xid) s = execE2eTimeout floor xid s := powered_runs h _

theorem exec_xidRelease (h : Powered s) (floor xid : Nat) : exec (.xidRelease floor xid) s = execXidRelease floor xid s := powered_runs h _

theorem exec_sendReceive (h : Powered s) : exec (.sendReceive x) s = execSendReceive x s := powered_runs h _

theorem exec_peerWriteReceive (h : Powered s) : exec (.peerWriteReceive x) s = execPeerWriteReceive x s := powered_runs h _

/-- A transfer unacknowledged for the timeout is sent again while its retries last, and is then unreachable. -/
theorem execE2eTimeout_due {floor xid : Nat} {x : Xfer} (hout : outXfer s floor xid = some x) (hdue : x.lastSent + e2eTimeout s ≤ s.now) :
    let y := putOnLink s { x with tries := x.tries + 1 }
    execE2eTimeout floor xid s = if x.tries ≤ regBits s rFabE2e 18 16 then
        .next (pumpLink { s with fab := { s.fab with out := modifyFirst (fun z => decide (z = x)) (fun _ => y) s.fab.out } } y.link)
      else .next (xferFails (dropXfer s floor xid) x codeUnreachable) := by
  rw [execE2eTimeout, hout]
  exact if_neg (Nat.not_lt.mpr hdue)

/-- The XID free again, and the destination's memory of the transfers whose life has ended dropped. -/
def xidFreed (s : State) (k : Nat) : State :=
  { s with fab := { s.fab with xids := smSet 0 s.fab.xids k 0, done := s.fab.done.filter (fun d => decide (s.now < d.expiry)) } }

/-- The first transfer of a floor that waits for an XID. -/
def waitingXfer (s : State) (floor : Nat) : Option Xfer := s.fab.out.find? (fun x => x.waiting && decide (x.t.sfloor = floor))

/-- A transfer that has waited is sent under a free XID. -/
def waiterSent (u : State) (x : Xfer) : State :=
  let r := startXfer u x
  pumpLink { r.1 with fab := { r.1.fab with out := modifyFirst (fun z => decide (z = x)) (fun _ => r.2) r.1.fab.out } } r.2.link

/-- An XID whose life has ended serves again: for the first transfer that waits, if any. -/
theorem execXidRelease_due {floor xid : Nat} (hxid : xid < 16384) (hused : smGet 0 s.fab.xids (floor * 16384 + xid) ≠ 0)
    (hlife : smGet 0 s.fab.xids (floor * 16384 + xid) ≤ s.now) (hout : outXfer s floor xid = none) :
    let u := xidFreed s (floor * 16384 + xid)
    execXidRelease floor xid s = .next ((waitingXfer u floor).elim u (waiterSent u)) := by
  have ended : ¬(16384 ≤ xid ∨ smGet 0 s.fab.xids (floor * 16384 + xid) = 0 ∨ s.now < smGet 0 s.fab.xids (floor * 16384 + xid) ∨
      (outXfer s floor xid).isSome) := by
    simp only [hout, Option.isSome_none, Bool.false_eq_true, or_false, hused, false_or]
    omega
  refine (if_neg ended).trans ?_
  cases hw : waitingXfer (xidFreed s (floor * 16384 + xid)) floor <;> simp only [waitingXfer, xidFreed] at hw <;> rw [hw] <;> rfl

theorem execSendReceive_fresh (h : Fresh s x) (hkind : x.kind = 1) (hfree : sendWaits s x = false) :
    execSendReceive x s = .next (remembered (receiveSend s x) x) := by
  rw [execSendReceive, if_neg (not_not_intro hkind), deliverUnless_remembered hfree h]

/-- What a peer write leaves, and its STATUS: admitted by an entry, its data land; otherwise it is denied. -/
def peerWritten (s : State) (x : Transfer) : State × Option Nat :=
  let a := argNat x 0 8
  if (upTo 64).any (permits s x.srank a x.data.length) then (noteWritten (sendBytes s a x.data (unitId 5 x.dfloor)).1 a x.data.length, some stDone)
  else (fabFault s codePeerDenied (5 * x.dfloor) [(x.srank, 2), (a, 8)], some stDenied)

theorem execPeerWriteReceive_fresh (h : Fresh s x) (hkind : x.kind = 2) (hfree : accessWaits s (argNat x 0 8) x.data.length = false) :
    execPeerWriteReceive x s = .next (remembered (peerWritten s x) x) := by
  rw [execPeerWriteReceive, if_neg (not_not_intro hkind), deliverUnless_remembered hfree h]
  rfl

end

/-- Settles O31: each event of a transfer meets its one branch, and a fresh transfer that waits for nothing leaves its body's outcome. -/
theorem transfersComplete : Obligations.TransfersComplete := by
  intro s h
  refine ⟨exec_ackReceive h, ?timeout, ?release, fun x hx hkind hfree => (exec_sendReceive h).trans (execSendReceive_fresh hx hkind hfree), ?peer⟩
  case timeout =>
    intro floor xid x hout hdue y
    have due := (exec_e2eTimeout h floor xid).trans (execE2eTimeout_due hout hdue)
    exact ⟨fun hmore => due.trans (if_pos hmore), fun hlast => due.trans (if_neg (Nat.not_le.mpr hlast))⟩
  case release =>
    intro floor xid hxid k u hused hlife hout
    have freed := (exec_xidRelease h floor xid).trans (execXidRelease_due hxid hused hlife hout)
    refine ⟨fun hnone => freed.trans ?_, fun x hwaits => freed.trans ?_⟩
    · exact congrArg (fun w => Host.Outcome.next (Option.elim w u (waiterSent u))) hnone
    · exact congrArg (fun w => Host.Outcome.next (Option.elim w u (waiterSent u))) hwaits
  case peer =>
    intro x hx hkind a hfree
    have lands := (exec_peerWriteReceive h).trans (execPeerWriteReceive_fresh hx hkind hfree)
    refine ⟨fun hadmitted => lands.trans ?_, fun hdenied => lands.trans ?_⟩
    · rw [peerWritten, if_pos hadmitted]
      rfl
    · rw [peerWritten, if_neg (Bool.eq_false_iff.mp hdenied)]
      rfl

end Sys2Proof.Proofs
end

section
/-!
The statements on the Porch and host sessions (14_nimfeol_and_porch.md, 15_window_and_letterbox.md).
-/
namespace Sys2Proof.Proofs
open Sys2Proof.Machine Sys2Proof.Laws

/-! ### Congestion, retries and errors of queue pairs (R371, R372, R374, R381) -/

section
variable {s : State} {n : Nat} {q : Qp}

theorem exec_cnpReceive (h : Powered s) : exec (.cnpReceive n) s = execCnpReceive n s := powered_runs h _

theorem exec_ccTimer (h : Powered s) : exec (.ccTimer n) s = execCcTimer n s := powered_runs h _

theorem exec_roceAckTimeout (h : Powered s) : exec (.roceAckTimeout n) s = execRoceAckTimeout n s := powered_runs h _

theorem exec_roceNakReceive (h : Powered s) (rnr : Bool) : exec (.roceNakReceive n rnr) s = execRoceNakReceive n rnr s := powered_runs h _

theorem exec_noticeWriteAck (h : Powered s) (slot nseq : Nat) : exec (.noticeWriteAck slot nseq) s = execNoticeWriteAck slot nseq s := powered_runs h _

theorem execCnpReceive_eq (hq : getQp s n = some q) :
    let g := ccG s q.port
    execCnpReceive n s = .next (setQp (regCount s (rPrcStat q.port) 47 32 1) n (some { q with
      target := q.rate, rate := max (q.rate * (1 - q.alpha / 2)) ((regBits s (rPrcCc q.port) 47 32 * 1000 : Nat) : Rat)
      alpha := (1 - g) * q.alpha + g, cnt := 0, ccAt := s.now })) := by
  simp only [execCnpReceive, hq, regCount_now]

theorem execCcTimer_due (hq : getQp s n = some q) (hdue : q.ccAt + 1300 * regBits s (rPrcCc q.port) 31 24 ≤ s.now) :
    let t := if 5 < q.cnt + 1 then min (q.target + ((regBits s (rPrcCc q.port) 23 8 : Nat) : Rat)) 800000 else q.target
    execCcTimer n s = .next (setQp s n (some { q with
      alpha := (1 - ccG s q.port) * q.alpha, cnt := q.cnt + 1, target := t, rate := (q.rate + t) / 2, ccAt := s.now })) := by
  rw [execCcTimer, hq]
  exact if_neg (Nat.not_lt.mpr hdue)

/-- A request unacknowledged for the timeout is sent again while the retries last. -/
theorem execRoceAckTimeout_due {t : Nat} (hq : getQp s n = some q) (hsent : q.sentAt = some t) (hsound : q.err = false)
    (hdue : 10 * t + 53248 * 2 ^ q.texp ≤ 10 * s.now) :
    execRoceAckTimeout n s = if q.tries < q.retry
      then .next (porchOut (setQp (regCount s (rPrcStat q.port) 63 48 1) n (some { q with tries := q.tries + 1, sentAt := some s.now })) (.resend n))
      else .next (qpError (prcFault s q.port codeRetryOut [(n, 4)]) n) := by
  have due : ¬(q.err = true ∨ 10 * s.now < 10 * t + 53248 * 2 ^ q.texp) := by
    rw [hsound, not_or]
    exact ⟨Bool.false_ne_true, Nat.not_lt.mpr hdue⟩
  simp only [execRoceAckTimeout, hq, hsent, if_neg due]

theorem execRoceNakReceive_retries (hq : getQp s n = some q) (hmore : q.tries < q.retry) : execRoceNakReceive n true s =
    .next (setQp s n (some { q with rnr := true, tries := q.tries + 1, sentAt := q.sentAt.map (fun _ => s.now) })) := by
  rw [execRoceNakReceive, hq]
  exact if_pos ⟨rfl, hmore⟩

theorem execRoceNakReceive_spent (hq : getQp s n = some q) (hspent : q.retry ≤ q.tries) :
    execRoceNakReceive n true s = .next (qpError (prcFault s q.port codeRetryOut [(n, 4)]) n) := by
  rw [execRoceNakReceive, hq]
  exact if_neg fun more => Nat.not_lt.mpr hspent more.2

theorem execRoceNakReceive_other (hq : getQp s n = some q) : execRoceNakReceive n false s = .next (qpError s n) := by
  rw [execRoceNakReceive, hq]
  exact if_neg fun rnr => Bool.false_ne_true rnr.1

/-- The acknowledgement of a notice's write, on the session's queue pair: the first issues the write of its MARK, the second delivers it (R398). -/
theorem execNoticeWriteAck_eq {slot nseq : Nat} {w : Nat × Bool} {r : Region} (hq : getQp s n = some q)
    (hw : (getSess s slot).writes.find? (fun w => decide (w.1 = nseq)) = some w) (hr : noticeRegion s slot = some r)
    (hqp : (getSess s slot).qps.head? = some n) :
    let others := (getSess s slot).writes.filter (fun v => decide (v.1 ≠ nseq))
    let u := setQp s n (some { q with tries := 0, rnr := false, sentAt := if others.isEmpty && w.2 then none else some s.now })
    execNoticeWriteAck slot nseq s = if w.2 then .next (modSess u slot (fun e => { e with writes := others }))
      else .next (modSess (qpSends u n (r.host + (nseq % (r.len / 64)) * 64 + 0x3F) (leBytes 1 ((nseq / (r.len / 64)) % 255 + 1))) slot
        (fun e => { e with writes := e.writes.map (fun v => if v.1 = nseq then (nseq, true) else v) })) := by
  simp only [execNoticeWriteAck, hw, hr, hqp, hq]

end

/-- Settles O33: each event finds its queue pair, and its time or its retries decide what it does. -/
theorem queuePairsComplete : Obligations.QueuePairsComplete := by
  intro s n q h hq st g
  refine ⟨?cnp, ?timer, ?ack, ?retry, ?spent, ?other, ?notice⟩
  case cnp => exact (exec_cnpReceive h).trans (execCnpReceive_eq hq)
  case timer => exact fun hdue => (exec_ccTimer h).trans (execCcTimer_due hq hdue)
  case ack =>
    intro t hsent hsound hdue
    have due := (exec_roceAckTimeout h).trans (execRoceAckTimeout_due hq hsent hsound hdue)
    exact ⟨fun hmore => due.trans (if_pos hmore), fun hspent => due.trans (if_neg (Nat.not_lt.mpr hspent))⟩
  case retry => exact fun hmore => (exec_roceNakReceive h true).trans (execRoceNakReceive_retries hq hmore)
  case spent => exact fun hspent => (exec_roceNakReceive h true).trans (execRoceNakReceive_spent hq hspent)
  case other => exact (exec_roceNakReceive h false).trans (execRoceNakReceive_other hq)
  case notice =>
    intro slot nseq w r hw hr hqp others u
    have acked := (exec_noticeWriteAck h slot nseq).trans (execNoticeWriteAck_eq hq hw hr hqp)
    exact ⟨fun hsecond => acked.trans (if_pos hsecond), fun hfirst => acked.trans (if_neg (Bool.eq_false_iff.mp hfirst))⟩

/-! ### The Porch's ports (R369, R371 to R374, R381, R484) -/

section
variable {s : State} {port : Nat}

theorem exec_porchLinkUp (h : Powered s) (allowed : Bool) : exec (.porchLinkUp port allowed) s = execPorchLinkUp port allowed s := powered_runs h _

theorem exec_porchLinkDown (h : Powered s) : exec (.porchLinkDown port) s = execPorchLinkDown port s := powered_runs h _

theorem exec_eapolFrame (h : Powered s) (keyed : Bool) : exec (.eapolFrame port keyed) s = execEapolFrame port keyed s := powered_runs h _

theorem exec_macsecRekey (h : Powered s) : exec (.macsecRekey port) s = execMacsecRekey port s := powered_runs h _

theorem exec_priorityFlowControlFrame (h : Powered s) (prio : Nat) (pause : Bool) :
    exec (.priorityFlowControlFrame port prio pause) s = execPriorityFlowControlFrame port prio pause s := powered_runs h _

theorem exec_portServiceFrame (h : Powered s) (hport : port < 8) (f : Sys2Proof.PortFrame) :
    exec (.portServiceFrame port f) s = .next (takeFrame s port f) :=
  (powered_runs h _).trans (congrArg _ (if_pos hport))

theorem execPorchLinkUp_enabled (hport : port < 8) (hen : regBits s (rPrcCtrl port) 0 0 = 1) (allowed : Bool) :
    execPorchLinkUp port allowed s =
      if allowed then .next (checkKey (withField s (rPrcStatus port) 0 0 1) port) else .next (prcFault s port codePorchDown []) :=
  if_neg (by omega)

theorem execPorchLinkDown_up (hport : port < 8) (hup : regBits s (rPrcStatus port) 0 0 = 1) :
    execPorchLinkDown port s = .next (prcFault (withField s (rPrcStatus port) 0 0 0) port codePorchDown []) :=
  if_neg (by omega)

theorem execEapolFrame_up (hport : port < 8) (hup : regBits s (rPrcStatus port) 0 0 = 1) (keyed : Bool) :
    execEapolFrame port keyed s = if keyed then .next (withField s (rPrcStatus port) 1 1 1) else .next (checkKey s port) :=
  if_neg (by omega)

theorem execMacsecRekey_keyed (hport : port < 8) (hsec : regBits s (rPrcCtrl port) 5 5 = 1) (hkey : regBits s (rPrcStatus port) 1 1 = 1) :
    execMacsecRekey port s = .next (setPort s port { getPort s port with sa := 1 - (getPort s port).sa }) :=
  if_neg (by omega)

theorem execPriorityFlowControlFrame_own (hport : port < 8) (hpfc : regBits s (rPrcCtrl port) 1 1 = 1) (pause : Bool) :
    execPriorityFlowControlFrame port (regBits s (rPrcCtrl port) 4 2) pause s = .next (setPort s port { getPort s port with paused := pause }) :=
  if_neg (by omega)

end

/-- Settles O34: an event of a port meets one condition of the port's registers, and a frame that reaches no queue pair one of its kind. -/
theorem porchPortsComplete : Obligations.PorchPortsComplete := by
  intro s port h hport ctl st
  refine ⟨fun hen => ?up, fun hup => ⟨?down, ?keyed, ?unkeyed⟩, fun hcarries => ?frames, fun hen hup => ?dropped, fun hsec hkey => ?rekey,
    fun pause hpfc => ?pfc⟩
  case up =>
    exact ⟨(exec_porchLinkUp h true).trans (execPorchLinkUp_enabled hport hen true),
      (exec_porchLinkUp h false).trans (execPorchLinkUp_enabled hport hen false)⟩
  case down => exact (exec_porchLinkDown h).trans (execPorchLinkDown_up hport hup)
  case keyed => exact (exec_eapolFrame h true).trans (execEapolFrame_up hport hup true)
  case unkeyed => exact (exec_eapolFrame h false).trans (execEapolFrame_up hport hup false)
  case frames =>
    exact ⟨(exec_portServiceFrame h hport _).trans (congrArg _ (if_pos hcarries)),
      (exec_portServiceFrame h hport _).trans (congrArg _ (if_pos hcarries))⟩
  case dropped =>
    exact ⟨(exec_portServiceFrame h hport _).trans (congrArg _ (if_pos ⟨hen, hup⟩)),
      fun hsec => (exec_portServiceFrame h hport _).trans (congrArg _ (if_pos ⟨hen, hup, hsec⟩))⟩
  case rekey => exact (exec_macsecRekey h).trans (execMacsecRekey_keyed hport hsec hkey)
  case pfc => exact (exec_priorityFlowControlFrame h _ pause).trans (execPriorityFlowControlFrame_own hport hpfc pause)

/-! ### Requests of a session's queue pair (R379, R382, R383, R389, R390, R392) -/

section
variable {s : State} {qp k : Nat} {ce : Bool}

theorem getQp_setQp (n : Nat) (v : Option Qp) : getQp (setQp s n v) n = v := smGet_smSet_same _ _ _ _

/-- A congestion notification leaves the queue pair with its session (R372). -/
theorem qpSession_noteCe : qpSession (noteCe s qp ce) qp = qpSession s qp := by
  unfold noteCe
  split
  · next q hq =>
    split
    · have noted (v : Option Qp) (m : PorchOut) : getQp (porchOut (setQp s qp v) m) qp = v := getQp_setQp qp v
      simp only [qpSession, hq, noted]
      rfl
    · rfl
  · rfl

/-- Nothing holds a request of the queue pair behind it. -/
abbrev QpFree (u : State) (qp : Nat) : Prop := ∀ h ∈ u.por.held, h.qp ≠ qp

theorem held_any_eq_false {u : State} (h : QpFree u qp) : (u.por.held.any fun r => decide (r.qp = qp)) = false :=
  List.any_eq_false.mpr fun r hr => by simpa using h r hr

/-- A request of an open session that nothing holds runs. -/
theorem hostRequest_runs {u : State} {r : HostReq} (hsess : qpSession u r.qp = some k) (hfree : hostWaits u k r = false) :
    hostRequest u r = hostRun u k r := by
  simp only [hostRequest, hsess, hfree, Bool.false_eq_true, if_false]

/-- Whether the Window's bytes that a request names are held: by a retrain, or, for a read, by the update window. -/
theorem hostWaits_window {u : State} {r : HostReq} {a : Nat} (hqp : QpFree u r.qp) (haddr : hostAddr u k r = some a) (hsend : r.send = false) :
    hostWaits u k r = (accessWaits u a r.n || (r.bs.isNone && shardHeld u a r.n)) := by
  simp only [hostWaits, held_any_eq_false hqp, haddr, hsend, Bool.false_or, Bool.not_false, Bool.true_and]

/-- A request outside the Window waits for no memory. -/
theorem hostWaits_elsewhere {u : State} {r : HostReq} (hqp : QpFree u r.qp) (haddr : hostAddr u k r = none) : hostWaits u k r = false := by
  simp only [hostWaits, held_any_eq_false hqp, haddr, Bool.false_or, Bool.and_false]

theorem hostWaits_send {u : State} {r : HostReq} (hqp : QpFree u r.qp) (hsend : r.send = true) : hostWaits u k r = false := by
  simp only [hostWaits, held_any_eq_false hqp, hsend, Bool.false_or, Bool.not_true, Bool.false_and]

section
variable {u : State} {r : HostReq}

theorem hostAddr_windowKey (hkey : r.key = regBits u (rWinKeys k) 31 0) (hset : r.key ≠ 0) : hostAddr u k r = windowAddr u k r.va r.n :=
  if_pos ⟨hkey, hset⟩

theorem hostAddr_otherKey (hkey : r.key ≠ regBits u (rWinKeys k) 31 0) : hostAddr u k r = none := if_neg fun own => hkey own.1

theorem hostRun_write {a : Nat} {bs : List Byte} (hopen : sessState u k = 1) (hsend : r.send = false) (haddr : hostAddr u k r = some a)
    (hbs : r.bs = some bs) : hostRun u k r = windowWrite u r.qp k a bs := by
  simp only [hostRun, hopen, ne_eq, not_true_eq_false, if_false, hsend, Bool.false_eq_true, haddr, hbs]

theorem hostRun_read {a : Nat} (hopen : sessState u k = 1) (hsend : r.send = false) (haddr : hostAddr u k r = some a) (hbs : r.bs = none) :
    hostRun u k r = porchOut (fetchBytes u a r.n (unitId 7 k)).1 (.data r.qp (fetchBytes u a r.n (unitId 7 k)).2.1) := by
  simp only [hostRun, hopen, ne_eq, not_true_eq_false, if_false, hsend, Bool.false_eq_true, haddr, hbs]

/-- A request in no Window is one under the Letterbox key, or refused. -/
theorem hostRun_elsewhere (hopen : sessState u k = 1) (hsend : r.send = false) (haddr : hostAddr u k r = none) :
    hostRun u k r = if r.key = regBits u (rWinKeys k) 63 32 ∧ r.key ≠ 0 ∧ r.key ≠ regBits u (rWinKeys k) 31 0 then
        r.bs.elim ((letterboxRead u k r.va r.n).elim (rangeNak u r.qp k r.va) (fun bs => porchOut u (.data r.qp bs))) (letterboxWrite u r.qp k r.va)
      else rangeNak u r.qp k r.va := by
  simp only [hostRun, hopen, ne_eq, not_true_eq_false, if_false, hsend, Bool.false_eq_true, haddr]
  cases r.bs with
  | some bs => rfl
  | none => cases letterboxRead u k r.va r.n <;> rfl

theorem hostRun_send {bs : List Byte} (hopen : sessState u k = 1) (hsend : r.send = true) (hbs : r.bs = some bs) :
    hostRun u k r = takeSend u k r.qp bs := by
  simp only [hostRun, hopen, ne_eq, not_true_eq_false, if_false, hsend, if_true, hbs, Option.getD_some]

/-- A SEND in slot format, 128 B, is a command slot of the session's lowest queue (R392). -/
theorem takeSend_slot {bs : List Byte} {q : Nat} (hlen : bs.length = 128) (hqueue : (upTo 16).find? (ownsQueue u k) = some q) :
    takeSend u k qp bs = if lbxOpen u then
        porchOut (ringProducer (lbxPut u (q * 0x8000 + (cmdNat bs 4 4 % 256) * 0x80) bs) q ((cmdNat bs 4 4 + 1) % 2 ^ 32)) (.ack qp)
      else porchOut u (.ack qp) := by
  rw [takeSend, if_neg (not_not_intro hlen), hqueue]

end

/-- A request that reaches the Porch on a queue pair in service notes its CE mark and is tried. -/
theorem exec_rdmaWrite (h : Powered s) (hsess : qpSession s qp = some k) (key va : Nat) (bs : List Byte) :
    exec (.rdmaWrite qp key va bs ce) s =
      .next (hostRequest (noteCe s qp ce) { qp := qp, key := key, va := va, n := bs.length, bs := some bs }) := by
  have served : ¬(qpSession s qp).isNone = true := by simp [hsess]
  exact (powered_runs h _).trans (congrArg _ (if_neg served))

theorem exec_rdmaRead (h : Powered s) (hsess : qpSession s qp = some k) (key va n : Nat) :
    exec (.rdmaRead qp key va n ce) s = .next (hostRequest (noteCe s qp ce) { qp := qp, key := key, va := va, n := n, bs := none }) := by
  have served : ¬(qpSession s qp).isNone = true := by simp [hsess]
  exact (powered_runs h _).trans (congrArg _ (if_neg served))

theorem exec_roceSend (h : Powered s) (hsess : qpSession s qp = some k) (bs : List Byte) :
    exec (.roceSend qp bs ce) s =
      .next (hostRequest (noteCe s qp ce) { qp := qp, key := 0, va := 0, n := bs.length, bs := some bs, send := true }) := by
  have served : ¬(qpSession s qp).isNone = true := by simp [hsess]
  exact (powered_runs h _).trans (congrArg _ (if_neg served))

end

section
variable {u : State} {qp k va : Nat} {r : HostReq}

/-- What an open session's request does where nothing holds it, by its key: the Window's, the Letterbox's, or another. -/
structure Tried (u : State) (k : Nat) (r : HostReq) : Prop where
  session : qpSession u r.qp = some k
  isOpen : sessState u k = 1
  free : QpFree u r.qp
  rdma : r.send = false

theorem Tried.write {a : Nat} {bs : List Byte} (h : Tried u k r) (haddr : hostAddr u k r = some a) (hbs : r.bs = some bs)
    (hfree : accessWaits u a r.n = false) : hostRequest u r = windowWrite u r.qp k a bs := by
  have free : hostWaits u k r = false := by rw [hostWaits_window h.free haddr h.rdma, hfree, hbs]; rfl
  rw [hostRequest_runs h.session free, hostRun_write h.isOpen h.rdma haddr hbs]

theorem Tried.read {a : Nat} (h : Tried u k r) (haddr : hostAddr u k r = some a) (hbs : r.bs = none) (hfree : accessWaits u a r.n = false)
    (hshard : shardHeld u a r.n = false) :
    hostRequest u r = porchOut (fetchBytes u a r.n (unitId 7 k)).1 (.data r.qp (fetchBytes u a r.n (unitId 7 k)).2.1) := by
  have free : hostWaits u k r = false := by rw [hostWaits_window h.free haddr h.rdma, hfree, hshard, Bool.and_false]; rfl
  rw [hostRequest_runs h.session free, hostRun_read h.isOpen h.rdma haddr hbs]

theorem Tried.refused (h : Tried u k r) (haddr : hostAddr u k r = none)
    (hkey : ¬(r.key = regBits u (rWinKeys k) 63 32 ∧ r.key ≠ 0 ∧ r.key ≠ regBits u (rWinKeys k) 31 0)) : hostRequest u r = rangeNak u r.qp k r.va := by
  rw [hostRequest_runs h.session (hostWaits_elsewhere h.free haddr), hostRun_elsewhere h.isOpen h.rdma haddr, if_neg hkey]

theorem Tried.letterbox (h : Tried u k r) (hkey : r.key = regBits u (rWinKeys k) 63 32) (hset : r.key ≠ 0)
    (hother : r.key ≠ regBits u (rWinKeys k) 31 0) : hostRequest u r =
      r.bs.elim ((letterboxRead u k r.va r.n).elim (rangeNak u r.qp k r.va) (fun bs => porchOut u (.data r.qp bs))) (letterboxWrite u r.qp k r.va) := by
  have haddr := hostAddr_otherKey hother
  rw [hostRequest_runs h.session (hostWaits_elsewhere h.free haddr), hostRun_elsewhere h.isOpen h.rdma haddr, if_pos ⟨hkey, hset, hother⟩]

end

/-- Settles O32: a request that nothing holds runs, and its key and its range decide what it does. -/
theorem rdmaCompletes : Obligations.RdmaCompletes := by
  intro s qp k va ce h hsess u hopen hfree wkey lkey
  have session : qpSession u qp = some k := qpSession_noteCe.trans hsess
  have tried (key n : Nat) (bs : Option (List Byte)) : Tried u k { qp := qp, key := key, va := va, n := n, bs := bs } := ⟨session, hopen, hfree, rfl⟩
  refine ⟨fun bs => ⟨fun hset => ⟨?write, ?writeRange⟩, fun hset hother => ?writeLetterbox, fun key hw hl => ?writeKey⟩,
    fun n => ⟨fun hset => ⟨?read, ?readRange⟩, fun hset hother bs hbs => ?readLetterbox, fun key hw hl => ?readKey⟩, fun bs q hlen hqueue => ?send⟩
  case write =>
    intro a haddr hwait
    rw [exec_rdmaWrite h hsess, (tried wkey bs.length (some bs)).write ((hostAddr_windowKey rfl hset).trans haddr) rfl hwait]
  case writeRange =>
    intro hrange
    rw [exec_rdmaWrite h hsess, (tried wkey bs.length (some bs)).refused ((hostAddr_windowKey rfl hset).trans hrange) fun own => own.2.2 rfl]
  case writeLetterbox => rw [exec_rdmaWrite h hsess, (tried lkey bs.length (some bs)).letterbox rfl hset hother]; rfl
  case writeKey => rw [exec_rdmaWrite h hsess, (tried key bs.length (some bs)).refused (hostAddr_otherKey hw) fun own => hl own.1]
  case read =>
    intro a haddr hwait hshard
    rw [exec_rdmaRead h hsess, (tried wkey n none).read ((hostAddr_windowKey rfl hset).trans haddr) rfl hwait hshard]
  case readRange =>
    intro hrange
    rw [exec_rdmaRead h hsess, (tried wkey n none).refused ((hostAddr_windowKey rfl hset).trans hrange) fun own => own.2.2 rfl]
  case readLetterbox =>
    rw [exec_rdmaRead h hsess, (tried lkey n none).letterbox rfl hset hother]
    exact congrArg (fun o => Host.Outcome.next (Option.elim o _ _)) hbs
  case readKey => rw [exec_rdmaRead h hsess, (tried key n none).refused (hostAddr_otherKey hw) fun own => hl own.1]
  case send =>
    have run : exec (.roceSend qp bs ce) s = .next (takeSend u k qp bs) := by
      rw [exec_roceSend h hsess, hostRequest_runs session (hostWaits_send hfree rfl), hostRun_send hopen rfl rfl]
    rw [run, takeSend_slot hlen hqueue]
    exact ⟨fun hlbx => congrArg _ (if_pos hlbx), fun hlbx => congrArg _ (if_neg (Bool.eq_false_iff.mp hlbx))⟩

/-! ### Doorbells (R392) -/

section
variable {s : State} {q v : Nat}

theorem exec_producerWrite (h : Powered s) (hq : q < 16) (hown : qOwned s q = true) (hv : v < 2 ^ 32) :
    exec (.producerWrite q v) s = .next (ringProducer s q v) := by
  have owned : ¬(16 ≤ q ∨ qOwned s q = false) := by simp [hq, hown]
  have run : exec (.producerWrite q v) s = .next (ringProducer s q (v % 2 ^ 32)) := (powered_runs h _).trans (if_neg owned)
  rw [run, Nat.mod_eq_of_lt hv]

theorem exec_resumeWrite (h : Powered s) (hq : q < 16) (hown : qOwned s q = true) (hv : v < 2 ^ 32) :
    exec (.resumeWrite q v) s = .next (ringResume s q v) := by
  have owned : ¬(16 ≤ q ∨ qOwned s q = false) := by simp [hq, hown]
  have run : exec (.resumeWrite q v) s = .next (ringResume s q (v % 2 ^ 32)) := (powered_runs h _).trans (if_neg owned)
  rw [run, Nat.mod_eq_of_lt hv]

theorem exec_cqConsumerWrite (h : Powered s) (hq : q < 16) (hown : qOwned s q = true) (hv : v < 2 ^ 32) :
    exec (.cqConsumerWrite q v) s = .next (ringCq s q v) := by
  have owned : ¬(16 ≤ q ∨ qOwned s q = false) := by simp [hq, hown]
  have run : exec (.cqConsumerWrite q v) s = .next (ringCq s q (v % 2 ^ 32)) := (powered_runs h _).trans (if_neg owned)
  rw [run, Nat.mod_eq_of_lt hv]

theorem not_closed (hopen : lbxOpen s = true) : ¬(!lbxOpen s) = true := by simp [hopen]

theorem ringProducer_behind (hopen : lbxOpen s = true) (hbehind : 2 ^ 31 ≤ ahead (qP s q) v) : ringProducer s q v = s :=
  (if_neg (not_closed hopen)).trans (if_pos hbehind)

theorem ringProducer_ahead (hopen : lbxOpen s = true) (hahead : ahead (qP s q) v < 2 ^ 31) :
    ringProducer s q v = if 256 < ahead (qC s q) v then lbxFault s q codeDoorbell v else withField s (rLbxPtr q) 63 32 v :=
  (if_neg (not_closed hopen)).trans (if_neg (Nat.not_le.mpr hahead))

theorem ringCq_open (hopen : lbxOpen s = true) : ringCq s q v =
    if ahead (qH s q) v ≤ ahead (qH s q) (qDone s q) then withField s (rLbxCq q) 63 32 v else lbxFault s q codeDoorbell v :=
  if_neg (not_closed hopen)

theorem ringResume_stopped (hopen : lbxOpen s = true) (hstop : qState s q = 2) :
    ringResume s q v = if v = qC s q then withField s (rLbxOwner q) 8 7 0 else lbxFault s q codeDoorbell v := by
  have stopped : ¬((!lbxOpen s) = true ∨ qState s q ≠ 2) := by simp [hopen, hstop]
  exact if_neg stopped

/-! ### Command slots (R391, R393) -/

theorem exec_commandConsume (h : Powered s) : exec (.commandConsume q) s = execCommandConsume q s := powered_runs h _

theorem exec_commandReread (h : Powered s) : exec (.commandReread q) s = execCommandReread q s := powered_runs h _

theorem execCommandConsume_may (hmay : mayConsume s q = true) (hwhole : (getQueue s q).torn = none) : execCommandConsume q s =
    if (slotCmd s q).2 then .next (takeCmd s q (slotCmd s q).1) else .next (setQueue s q { getQueue s q with torn := some (0, s.now) }) := by
  have reads : ¬(!mayConsume s q || (getQueue s q).torn.isSome) = true := by simp [hmay, hwhole]
  exact if_neg reads

/-- A queue whose slot has failed its check for the eighth time: stopped, with the fault recorded and its session told (R393). -/
def queueStopped (s : State) (q : Nat) : State :=
  let u := withField (setQueue s q { getQueue s q with torn := none }) (rLbxOwner q) 8 7 2
  sendNotice (lbxFault (regCount u (rLbxStat q) 63 48 1) q codeTorn (qC u q)) (qOwner u q) 5 q (qC u q)

theorem execCommandReread_due {k t : Nat} (hmay : mayConsume s q = true) (htorn : (getQueue s q).torn = some (k, t)) (hdue : t + 325 ≤ s.now) :
    execCommandReread q s = if (slotCmd s q).2 then .next (takeCmd (regCount s (rLbxStat q) 47 32 1) q (slotCmd s q).1)
      else if k + 1 < 8 then .next (setQueue s q { getQueue s q with torn := some (k + 1, s.now) })
      else .next (queueStopped s q) := by
  have reads : ¬(!mayConsume s q) = true := by simp [hmay]
  rw [execCommandReread, htorn]
  exact (if_neg reads).trans (if_neg (Nat.not_lt.mpr hdue))

end

/-- Settles O35: a doorbell of an open Letterbox is in range or recorded, and a slot that is read passes its check or is torn. -/
theorem letterboxQueuesComplete : Obligations.LetterboxQueuesComplete := by
  refine ⟨fun s q v h hq hown hopen hv => ⟨fun hahead => ?producer, fun hbehind => ?behind, fun hin => ?consumer, fun hpast => ?past,
    fun hstop => ?resume⟩, fun s q h hmay => ⟨fun hwhole => ?consume, fun k t htorn hdue => ?reread⟩⟩
  case producer =>
    rw [exec_producerWrite h hq hown hv, ringProducer_ahead hopen hahead]
    exact ⟨fun hroom => congrArg _ (if_neg (Nat.not_lt.mpr hroom)), fun hfull => congrArg _ (if_pos hfull)⟩
  case behind => rw [exec_producerWrite h hq hown hv, ringProducer_behind hopen hbehind]
  case consumer => rw [exec_cqConsumerWrite h hq hown hv, ringCq_open hopen, if_pos hin]
  case past => rw [exec_cqConsumerWrite h hq hown hv, ringCq_open hopen, if_neg (Nat.not_le.mpr hpast)]
  case resume =>
    rw [exec_resumeWrite h hq hown hv, ringResume_stopped hopen hstop]
    exact ⟨fun hc => congrArg _ (if_pos hc), fun hc => congrArg _ (if_neg hc)⟩
  case consume =>
    rw [exec_commandConsume h, execCommandConsume_may hmay hwhole]
    exact ⟨fun hok => if_pos hok, fun hbad => if_neg (Bool.eq_false_iff.mp hbad)⟩
  case reread =>
    rw [exec_commandReread h, execCommandReread_due hmay htorn hdue]
    refine ⟨fun hok => if_pos hok, fun hbad hmore => ?_, fun hbad hlast => ?_⟩
    · exact (if_neg (Bool.eq_false_iff.mp hbad)).trans (if_pos (by omega))
    · exact (if_neg (Bool.eq_false_iff.mp hbad)).trans (if_neg (by omega))

end Sys2Proof.Proofs
end

section
/-!
The statements on Travar's commands for registers, sessions and feeding (15_window_and_letterbox.md).
-/
namespace Sys2Proof.Proofs
open Sys2Proof.Machine Sys2Proof.Laws

/-! ### NOP, QUERY, REG_READ and REG_WRITE (R399, R400, Table 15.7) -/

section
variable {s : State} {q : Nat} {b : List Byte}

theorem exec_nop (h : Clocked s) : exec (.nop q) s = execNop q s := clocked_runs h _

theorem exec_query (h : Clocked s) : exec (.query q) s = execQuery q s := clocked_runs h _

theorem exec_regRead (h : Clocked s) : exec (.regRead q) s = execRegRead q s := clocked_runs h _

theorem exec_regWrite (h : Clocked s) : exec (.regWrite q) s = execRegWrite q s := clocked_runs h _

/-- What QUERY answers, by its selector. -/
def queried (s : State) (q : Nat) : Nat → State
  | 0 => finish s q 0 (stepNo s) 0
  | 1 => finish s q 0 (regGet s rSchState).toNat 0
  | 2 => finish s q 0 (regGet s rCelLive).toNat 0
  | 3 => finish s q 0 (if q = 16 then 0 else regBits s (rWinStageCtl (qOwner s q)) 63 48) 0
  | 4 => if stepNo s = 0 then finish { s with freeCount := s.freeCount + 1 } q 0 (Sys2Proof.Config.freeWord s.freeCount).toNat 0
    else finish s q 0 (stepNo s - 1) 0
  | _ + 5 => formatCmd s q

theorem queried_other {n : Nat} (h : 4 < n) : queried s q n = formatCmd s q := by
  obtain ⟨m, rfl⟩ : ∃ m, n = m + 5 := ⟨n - 5, by omega⟩
  rfl

theorem execQuery_eq (h : Executes s q 0x0002 [0, 1, 2] b) : execQuery q s = .next (queried s q (fld b 0 2)) := by
  refine (travar_executes h _).trans ?_
  generalize fld b 0 2 = n
  match n with
  | 0 | 1 | 2 | 3 | 4 | _ + 5 => rfl

theorem execRegRead_eq (h : Executes s q 0x0003 [1, 2] b) :
    let a := baseCtl + fld b 0 8
    execRegRead q s = .next (if !inCtl a then formatCmd s q else if answers s a = false then refuseCmd s q
      else finish (readCtl s a 8) q 0 (readCtl s a 8).lastRead.toNat 0) :=
  travar_executes h _

theorem execRegWrite_eq (h : Executes s q 0x0004 [1] b) :
    let a := baseCtl + fld b 0 8
    execRegWrite q s = .next (if !inCtl a then formatCmd s q else if a % 2 ^ 40 / 2 ^ 24 ∈ closedBlocks ∨ answers s a = false then refuseCmd s q
      else finish (writeCtl s a 8 (BitVec.ofNat 64 (fld b 8 8))) q 0 0 0) :=
  travar_executes h _

end

/-- Settles O36: QUERY answers by its selector, and a register access by where its address lies. -/
theorem registerCommandsComplete : Obligations.RegisterCommandsComplete := by
  intro s q b hc a
  simp only [exec_nop hc, exec_query hc, exec_regRead hc, exec_regWrite hc]
  have inside (hin : inCtl a = true) : ¬(!inCtl a) = true := by simp [hin]
  refine ⟨fun h => travar_executes h _, fun h => ?query, fun h hin => ?read, fun h hin => ?write, fun hout => ?outside⟩
  case query =>
    rw [execQuery_eq h]
    refine ⟨fun h0 => by rw [h0]; rfl, fun h1 => by rw [h1]; rfl, fun h2 => by rw [h2]; rfl, fun h3 => by rw [h3]; rfl,
      fun h4 hstep => ?_, fun h4 hstep => ?_, fun hmore => by rw [queried_other hmore]⟩
    · rw [h4]
      exact congrArg _ (if_neg hstep.ne')
    · rw [h4]
      exact congrArg _ (if_pos hstep)
  case read =>
    have taken := (execRegRead_eq h).trans (congrArg _ (if_neg (inside hin)))
    exact ⟨fun ha => taken.trans (congrArg _ (if_neg (ne_false_of_eq_true ha))), fun ha => taken.trans (congrArg _ (if_pos ha))⟩
  case write =>
    have taken := (execRegWrite_eq h).trans (congrArg _ (if_neg (inside hin)))
    refine ⟨fun hblock ha => taken.trans (congrArg _ (if_neg ?_)), fun hshut => taken.trans (congrArg _ (if_pos hshut))⟩
    exact not_or.mpr ⟨hblock, ne_false_of_eq_true ha⟩
  case outside =>
    have outside : (!inCtl a) = true := by simp [hout]
    exact ⟨fun h => (execRegRead_eq h).trans (congrArg _ (if_pos outside)), fun h => (execRegWrite_eq h).trans (congrArg _ (if_pos outside))⟩

/-! ### Sessions (R377, R378, R380, R381, R384) -/

section
variable {s : State} {q : Nat} {b : List Byte}

theorem exec_openSession (h : Clocked s) : exec (.openSession q) s = execOpenSession q s := clocked_runs h _

theorem exec_closeSession (h : Clocked s) : exec (.closeSession q) s = execCloseSession q s := clocked_runs h _

theorem exec_registerRegion (h : Clocked s) : exec (.registerRegion q) s = execRegisterRegion q s := clocked_runs h _

theorem exec_winMove (h : Clocked s) : exec (.winMove q) s = execWinMove q s := clocked_runs h _

/-- The session block of an OPEN_SESSION, read from device memory or from the management request's payload: the state, its bytes and the read's fault. -/
def openRead (s : State) (q : Nat) (b : List Byte) : State × List Byte × Nat :=
  if q = 16 then (s, memBytes s payloadAt 256, if fld b 0 8 = 0 then 0 else 1) else fetchBytes s (fld b 0 8) 256 (unitId 10 0)

/-- The block as completed goes back to where it came from, and the command answers the slot's generation. -/
def openAnswered (o : State × List Byte) (q : Nat) (b : List Byte) : State :=
  if q = 16 then finish o.1 q 0 (fld o.2 0x90 2) 0 o.2 else finish (sendBytes o.1 (fld b 0 8) o.2 (unitId 10 0)).1 q 0 (fld o.2 0x90 2) 0

theorem execOpenSession_read (h : Executes s q 0x0010 [1] b) (hread : (openRead s q b).2.2 = 0) (hok : openBlockOk (openRead s q b).2.1 = true) :
    let r := openRead s q b
    execOpenSession q s = .next (if openRefused s (openBlock r.2.1) ∨ sessionUnits s = false then refuseCmd r.1 q
      else openAnswered (openSlot r.1 r.2.1) q b) := by
  have sound : ¬((openRead s q b).2.2 ≠ 0 ∨ openBlockOk (openRead s q b).2.1 = false) := by simp [hread, hok]
  exact (travar_executes h _).trans (congrArg _ (if_neg sound))

theorem execCloseSession_own (h : Executes s q 0x0011 [0, 1, 2] b) (hk : fld b 0 1 < 64) (hmay : queueRole s q = 1 ∨ fld b 0 1 = qOwner s q) :
    let k := fld b 0 1
    let t := (upTo 16).foldl (fun s n => if qOwned s n ∧ qOwner s n = k then closeQueue s n else s) (dropSession s k false)
    execCloseSession q s = .next (finish (withField (withField t (rWinSess k) 1 0 0) (rWinSess k) 47 32 0) q 0 0 0) := by
  have may : ¬(queueRole s q ≠ 1 ∧ fld b 0 1 ≠ qOwner s q) := by tauto
  exact (travar_executes h _).trans (congrArg _ ((if_neg (Nat.not_le.mpr hk)).trans (if_neg may)))

/-- A region in its form: for notices, of 4 KiB to 1 MiB by powers of 2 (R380). -/
theorem execRegisterRegion_formed (h : Executes s q 0x0012 [0, 1, 2] b) (hpurpose : fld b 20 1 = 1) (hlen : ∃ i < 9, fld b 8 8 = 4096 * 2 ^ i) :
    let rs := (getSess s (qOwner s q)).regions
    execRegisterRegion q s = .next (if 4 ≤ rs.length ∨ rs.any (fun r => decide (r.purpose = 1)) then refuseCmd s q
      else finish (modSess s (qOwner s q) (fun e => { e with
        regions := rs ++ [{ host := fld b 0 8, len := fld b 8 8, rkey := fld b 16 4, purpose := 1 }] })) q 0 rs.length 0) := by
  obtain ⟨i, hi, hlen⟩ := hlen
  have offered : fld b 8 8 ∈ (upTo 9).map (fun i => 4096 * 2 ^ i) := List.mem_map.mpr ⟨i, mem_upTo.mpr hi, hlen.symm⟩
  have formed : ¬(fld b 20 1 ≠ 1 ∨ fld b 8 8 ∉ (upTo 9).map (fun i => 4096 * 2 ^ i)) := not_or.mpr ⟨not_not_intro hpurpose, not_not_intro offered⟩
  exact (travar_executes h _).trans (congrArg _ (if_neg formed))

/-- Whether an address is a Window base within the session's bounds and the stack region (R384). -/
def WindowFits (s : State) (k a : Nat) : Prop :=
  a % unit64 = 0 ∧ regBits s (rWinBounds k) 14 0 ≤ a / unit64 ∧ a / unit64 < regBits s (rWinBounds k) 30 16 ∧ unit64 + a ≤ stackBytes s

theorem execWinMove_fits (h : Executes s q 0x0013 [0, 1, 2] b) (hfits : WindowFits s (qOwner s q) (fld b 0 8)) :
    execWinMove q s = .next (finish (withField s (rWinBase (qOwner s q)) 40 26 (fld b 0 8 / unit64)) q 0 (fld b 0 8) 0) :=
  (travar_executes h _).trans (congrArg _ (if_pos hfits))

theorem execWinMove_misfit (h : Executes s q 0x0013 [0, 1, 2] b) (hmisfit : ¬WindowFits s (qOwner s q) (fld b 0 8)) :
    execWinMove q s = .next (formatCmd s q) :=
  (travar_executes h _).trans (congrArg _ (if_neg hmisfit))

end

/-- Settles O37: each command's arguments and the session's state leave one branch. -/
theorem sessionCommandsComplete : Obligations.SessionCommandsComplete := by
  intro s q b hc
  refine ⟨fun h => ?opens, fun h hk hmay => ?closes, fun h hpurpose hlen => ?region, fun h => ?window⟩
  case opens =>
    intro r hread hok
    have taken := (exec_openSession hc).trans (execOpenSession_read h hread hok)
    refine ⟨fun hfree hunits => taken.trans (congrArg _ (if_neg ?_)), fun hrefused => taken.trans (congrArg _ (if_pos hrefused))⟩
    exact not_or.mpr ⟨Bool.eq_false_iff.mp hfree, by simp [hunits]⟩
  case closes => exact (exec_closeSession hc).trans (execCloseSession_own h hk hmay)
  case region =>
    intro rs
    have taken := (exec_registerRegion hc).trans (execRegisterRegion_formed h hpurpose hlen)
    refine ⟨fun hroom hnone => taken.trans (congrArg _ (if_neg ?_)), fun hnotices => taken.trans (congrArg _ (if_pos (.inr ?_)))⟩
    · exact not_or.mpr ⟨Nat.not_le.mpr hroom, by simpa using hnone⟩
    · simpa using hnotices
  case window =>
    intro k u
    refine ⟨fun haligned hlo hhi hstack => (exec_winMove hc).trans (execWinMove_fits h ⟨haligned, hlo, hhi, hstack⟩),
      fun hout => (exec_winMove hc).trans (execWinMove_misfit h ?_)⟩
    rintro ⟨haligned, hlo, hhi, -⟩
    obtain hmis | hbelow | habove := hout
    · exact hmis haligned
    · exact Nat.not_lt.mpr hlo hbelow
    · exact Nat.not_lt.mpr habove hhi

/-! ### Staging and batches (R385, R387, R388) -/

section
variable {s : State} {q : Nat} {b : List Byte}

theorem exec_setStaging (h : Clocked s) : exec (.setStaging q) s = execSetStaging q s := clocked_runs h _

theorem exec_batch (h : Clocked s) : exec (.batch q) s = execBatch q s := clocked_runs h _

/-- A staging configuration in its form (R385): its slot, part, slot count, base and size are in range. -/
structure StagingFormed (b : List Byte) : Prop where
  slot : fld b 0 1 < 64
  parts : fld b 2 1 ≤ 16
  part : fld b 1 1 < fld b 2 1
  few : 2 ≤ fld b 3 1
  many : fld b 3 1 ≤ 16
  base : fld b 8 8 % 4096 = 0
  pages : fld b 16 8 % 4096 = 0
  nonempty : fld b 16 8 ≠ 0
  size : fld b 16 8 / 4096 < 2 ^ 24

/-- The slot's staging registers as configured, with no batch accepted yet. -/
def stagingSet (s : State) (b : List Byte) : State :=
  let w := rWinStageCtl (fld b 0 1)
  let t := regSet (withField s (rWinStageBase (fld b 0 1)) 63 12 (fld b 8 8 / 4096)) w 0
  let t := withField (withField (withField (withField t w 23 0 (fld b 16 8 / 4096)) w 28 24 (fld b 3 1)) w 35 32 (fld b 1 1)) w 40 36 (fld b 2 1)
  modSess t (fld b 0 1) (fun e => { e with accepted := [] })

theorem execSetStaging_formed (h : Executes s q 0x0020 [1] b) (hform : StagingFormed b) :
    execSetStaging q s = .next (if s.job.loaded ∨ (sessState s (fld b 0 1) ≠ 0 ∧ sessRole s (fld b 0 1) ≠ 0) then refuseCmd s q
      else finish (stagingSet s b) q 0 0 0) := by
  obtain ⟨hslot, hparts, hpart, hfew, hmany, hbase, hpages, hnonempty, hsize⟩ := hform
  have formed : ¬(64 ≤ fld b 0 1 ∨ 16 < fld b 2 1 ∨ fld b 2 1 ≤ fld b 1 1 ∨ fld b 3 1 < 2 ∨ 16 < fld b 3 1 ∨ fld b 8 8 % 4096 ≠ 0 ∨
      fld b 16 8 % 4096 ≠ 0 ∨ fld b 16 8 = 0 ∨ 2 ^ 24 ≤ fld b 16 8 / 4096) := by
    simp only [not_or, not_not, Nat.not_le, Nat.not_lt]
    exact ⟨hslot, hparts, hpart, hfew, hmany, hbase, hpages, hnonempty, hsize⟩
  exact (travar_executes h _).trans (congrArg _ (if_neg formed))

theorem execBatch_goesOn {i : Nat} (h : Executes s q 0x0021 [0] b) (hnext : (getQueue s q).next = some i) :
    execBatch q s = .next (goOnBatch s q (stagedAt s (qOwner s q) (fld b 0 1)) (fld b 8 8) i) := by
  rw [execBatch, travar_executes h, hnext]

/-- An accepted batch: its staging slot locked, its BATCH record journalled, and its lists submitted. -/
def batchAccepted (u : State) (q : Nat) (g : Staged) (step : Nat) : State :=
  let k := g.sess
  let w := rWinStageCtl k
  let t := withField u w 63 48 (regBits u w 63 48 + 2 ^ g.slot)
  goOnBatch (journalAppend t 6 0 step (leBytes 1 k ++ leBytes 1 g.slot ++ zeros 6 ++ leBytes 8 (memNat t (g.base + 0x18) 8))) q g step 0

/-- A batch that its queue begins is checked, once the replayed record that it needs has been read. -/
theorem execBatch_begins (h : Executes s q 0x0021 [0] b) (hnext : (getQueue s q).next = none) (hload : s.job.loaded = true)
    (hstaged : (stagedAt s (qOwner s q) (fld b 0 1)).k ≠ 0) (hread : batchUnread s (stagedAt s (qOwner s q) (fld b 0 1)) (fld b 8 8) = false) :
    let k := qOwner s q
    let g := stagedAt s k (fld b 0 1)
    let u := noteFetch s g.base (max 64 (memNat s (g.base + 0x10) 8)) (unitId 7 k)
    execBatch q s = .next (if batchCode s g (fld b 8 8) ≠ 0 then refuseBatch u q k g (fld b 8 8) (batchCode s g (fld b 8 8))
      else batchAccepted u q g (fld b 8 8)) := by
  have fed : ¬(s.job.loaded = false ∨ (stagedAt s (qOwner s q) (fld b 0 1)).k = 0) := by simp [hload, hstaged]
  rw [execBatch, travar_executes h, hnext]
  exact congrArg _ ((if_neg fed).trans (if_neg (Bool.eq_false_iff.mp hread)))

end

/-- Settles O38: a staging configuration in its form is taken while no job is loaded, and a batch goes on, is accepted, or is refused by its code. -/
theorem feedingCommandsComplete : Obligations.FeedingCommandsComplete := by
  intro s q b hc
  refine ⟨fun h => ?staging, fun h => ?batch⟩
  case staging =>
    intro k part parts n size hslot hparts hpart hfew hmany hbase hpages hnonempty hsize
    have taken := (exec_setStaging hc).trans (execSetStaging_formed h ⟨hslot, hparts, hpart, hfew, hmany, hbase, hpages, hnonempty, hsize⟩)
    refine ⟨fun hnone hfeeder => taken.trans (congrArg _ (if_neg ?_)), fun hload => taken.trans (congrArg _ (if_pos (.inl hload)))⟩
    rintro (hload | ⟨hopen, hrole⟩)
    · exact Bool.noConfusion (hnone.symm.trans hload)
    · exact hfeeder.elim hopen hrole
  case batch =>
    intro k g step
    refine ⟨fun i hnext => (exec_batch hc).trans (execBatch_goesOn h hnext), fun hnext hload hstaged hread => ?_⟩
    have begun := (exec_batch hc).trans (execBatch_begins h hnext hload hstaged hread)
    exact ⟨fun hok => begun.trans (congrArg _ (if_neg (not_not_intro hok))), fun hbad => begun.trans (congrArg _ (if_pos hbad))⟩

end Sys2Proof.Proofs
end

section
/-!
The statements on checkpoint epochs and the drives of the attic (16_checkpoint_and_repair.md).
-/
namespace Sys2Proof.Proofs
open Sys2Proof.Machine Sys2Proof.Laws

/-! ### Epoch copies and completion (R405, R406, R409, R410) -/

section
variable {s : State}

theorem exec_epochShadowCopyDone (h : Powered s) : exec .epochShadowCopyDone s = execEpochShadowCopyDone s := powered_runs h _

theorem exec_denseCopyDone (h : Powered s) : exec .denseCopyDone s = execDenseCopyDone s := powered_runs h _

theorem exec_epochComplete (h : Powered s) : exec .epochComplete s = execEpochComplete s := powered_runs h _

theorem exec_exportTailAdvance (h : Powered s) (tail : Nat) : exec (.exportTailAdvance tail) s = execExportTailAdvance tail s := powered_runs h _

/-- The shadow copy done: engine state, the ranges' records and the held contributions are recorded. -/
def shadowCopied (u : State) (rs : List AttRec) : State :=
  { u with att := { u.att with shadowDone := true, recs := u.att.recs ++ [attRec u 1 0 0 0 (engineBytes u)] ++ rs ++ heldRecords u } }

/-- The shadow copy of an epoch in progress ends by whether its ranges can be captured. -/
theorem execEpochShadowCopyDone_runs (hactive : s.att.active = true) (hshadow : s.att.shadowDone = false) (hranges : rangesWait s 1 = false) :
    execEpochShadowCopyDone s = .next ((captureRanges s 2 1).elim (captureFails (noteRanges s 1)) (shadowCopied (noteRanges s 1))) := by
  have ready : ¬(!s.att.active || s.att.shadowDone || rangesWait s 1) = true := by simp [hactive, hshadow, hranges]
  refine (if_neg ready).trans ?_
  cases captureRanges s 2 1 with
  | none => rfl
  | some rs => rfl

/-- The dense copy done: the ranges' records are recorded. -/
def denseCopied (u : State) (rs : List AttRec) : State := { u with att := { u.att with denseDone := true, recs := u.att.recs ++ rs } }

/-- The dense copy, in the step after the captured one, ends by whether its ranges can be captured. -/
theorem execDenseCopyDone_runs (hactive : s.att.active = true) (hshadow : s.att.shadowDone = true) (hdense : s.att.denseDone = false)
    (hstep : stepNo s = s.att.captured + 1) (hranges : rangesWait s 0 = false) :
    execDenseCopyDone s = .next ((captureRanges s 3 0).elim (captureFails (noteRanges s 0)) (denseCopied (noteRanges s 0))) := by
  have ready : ¬(!s.att.active || !s.att.shadowDone || s.att.denseDone || decide (stepNo s ≠ s.att.captured + 1) || rangesWait s 0) = true := by
    simp [hactive, hshadow, hdense, hstep, hranges]
  refine (if_neg ready).trans ?_
  cases captureRanges s 3 0 with
  | none => rfl
  | some rs => rfl

/-- The records of an epoch whose owed chunks are captured, with its EPOCH_END. -/
def epochEnded (u : State) (base : Nat) : State :=
  if u.att.recs.any (fun r => decide (r.ty = 8)) then u
  else { u with att := { u.att with recs := u.att.recs ++ [{ attRec u 8 0 0 0
    ((recPlaces u u.att.ringHead u.att.recs).map (fun p => leBytes 8 p.1 ++ leBytes 4 p.2.ty ++ leBytes 4 p.2.id)).flatten with base := base }] } }

/-- The epoch in progress, with its records placed in the ring for the storage host as far as they fit. -/
def epochPlaced (s : State) : State :=
  let u := captureAll s.att.owed.length s
  let v := epochEnded u (chainBase u (regBits s rAttEpoch 31 0) u.att.full)
  placeRecords (v.att.recs.drop v.att.placed) v

/-- The epoch `num` kept in the attic, and none in progress. -/
def epochKept (w : State) (num base : Nat) : State :=
  let z := keepEpoch w { num := num, step := w.att.captured, rank := rank w, full := w.att.full, base := base, recs := w.att.recs }
  let z := withField (withField z rAttEpoch 31 0 0) rAttLast 31 0 num
  latchIrq { z with att := { z.att with active := false, patches := [], recs := [], placed := 0 } } 258

/-- An epoch that no chunk holds back completes once the storage host's ring has taken all its records. -/
theorem execEpochComplete_runs (hactive : s.att.active = true) (hshadow : s.att.shadowDone = true) (hdense : s.att.denseDone = true)
    (hwrites : atticWrites s = true) (howed : ∀ o ∈ s.att.owed, accessWaits s o.addr o.len = false) :
    let num := regBits s rAttEpoch 31 0
    let u := captureAll s.att.owed.length s
    execEpochComplete s = if (epochPlaced s).att.placed < (epochPlaced s).att.recs.length then .next (epochPlaced s)
      else .next (epochKept (epochPlaced s) num (chainBase u num u.att.full)) := by
  have chunks : s.att.owed.any (fun o => accessWaits s o.addr o.len) = false := List.any_eq_false.mpr (fun o ho => Bool.eq_false_iff.mp (howed o ho))
  have ready : ¬(!s.att.active || !s.att.shadowDone || !s.att.denseDone || !(atticWrites s) ||
      s.att.owed.any (fun o => accessWaits s o.addr o.len)) = true := by simp [hactive, hshadow, hdense, hwrites, chunks]
  exact if_neg ready

/-! ### The TAIL of the storage host's ring (R410, log 140) -/

/-- Units of the ring that the storage host holds once it has moved TAIL. -/
def takenAt (s : State) (tail : Nat) : Nat :=
  s.att.expTaken + (tail % expSize s + expSize s - regBits s rAttExportPtr 63 32 % expSize s) % expSize s

/-- TAIL, and the newest of the epochs `done` as the replica, each of them journalled. -/
def tailJournalled (s : State) (tail : Nat) (done : List (Nat × Nat)) : State :=
  let u := withField s rAttExportPtr 63 32 tail
  let v := match done.getLast? with | some x => withField u rAttLast 63 32 x.2 | none => u
  done.foldl (fun s x => journalAppend s 9 1 (epochStep s x.2) (leBytes 8 x.2 ++ zeros 8)) v

/-- The ring freed up to `taken`, the epochs `done` marked as replicas. -/
def replicasKept (w : State) (taken : Nat) (done : List (Nat × Nat)) : State :=
  { w with att := { w.att with
    expTaken := taken
    exported := w.att.exported.filter (fun x => decide (taken < x.1))
    epochs := w.att.epochs.map (fun e =>
      if done.any (fun x => decide (x.2 = e.num)) && decide (e.rank = rank w) then { e with replica := true } else e) } }

theorem execExportTailAdvance_noRing {tail : Nat} (hsize : expSize s = 0) :
    execExportTailAdvance tail s = .next (withField s rAttExportPtr 63 32 tail) := if_pos hsize

/-- A ring of any size takes a TAIL within the records placed, and only stores one past them. -/
theorem execExportTailAdvance_ring {tail : Nat} (hsize : expSize s ≠ 0) :
    let done := s.att.exported.filter (fun x => decide (x.1 ≤ takenAt s tail))
    execExportTailAdvance tail s = if s.att.expPlaced < takenAt s tail then .next (withField s rAttExportPtr 63 32 tail)
      else .next (replicasKept (tailJournalled s tail done) (takenAt s tail) done) := if_neg hsize

end

/-- Settles O41: each command of an epoch that may run ends by what its captures, its ring or its TAIL give. -/
theorem epochsComplete : Obligations.EpochsComplete := by
  intro s h
  simp only [exec_epochShadowCopyDone h, exec_denseCopyDone h, exec_epochComplete h, exec_exportTailAdvance h]
  refine ⟨fun hactive hshadow hranges => ?shadow, fun hactive hshadow hdense hstep hranges => ?dense,
    fun hactive hshadow hdense hwrites howed => ?complete, fun tail => ?tail⟩
  case shadow =>
    rw [execEpochShadowCopyDone_runs hactive hshadow hranges]
    exact ⟨fun rs hrs => by rw [hrs]; rfl, fun hnone => by rw [hnone]; rfl⟩
  case dense =>
    rw [execDenseCopyDone_runs hactive hshadow hdense hstep hranges]
    exact ⟨fun rs hrs => by rw [hrs]; rfl, fun hnone => by rw [hnone]; rfl⟩
  case complete =>
    have runs := execEpochComplete_runs hactive hshadow hdense hwrites howed
    exact ⟨fun hheld => runs.trans (if_pos hheld), fun hplaced => runs.trans (if_neg (Nat.not_lt.mpr hplaced))⟩
  case tail =>
    refine ⟨fun hstored => ?_, fun hsize htaken => (execExportTailAdvance_ring hsize).trans (if_neg (Nat.not_lt.mpr htaken))⟩
    by_cases hsize : expSize s = 0
    · exact execExportTailAdvance_noRing hsize
    · exact (execExportTailAdvance_ring hsize).trans (if_pos (hstored.resolve_left hsize))

/-! ### Drives (R411, R412, R415 to R417, Table 16.4) -/

section
variable {s : State} {d : Nat}

theorem exec_atticIoComplete (h : Powered s) (queue status : Nat) :
    exec (.atticIoComplete d queue status) s = execAtticIoComplete d queue status s := powered_runs h _

theorem exec_atticCommandTimeout (h : Powered s) : exec (.atticCommandTimeout d) s = execAtticCommandTimeout d s := powered_runs h _

theorem exec_atticDriveLinkLost (h : Powered s) : exec (.atticDriveLinkLost d) s = execAtticDriveLinkLost d s := powered_runs h _

theorem exec_atticControllerFatal (h : Powered s) : exec (.atticControllerFatal d) s = .next (driveFails s d) :=
  powered_runs h (execAtticControllerFatal d s)

theorem exec_atticHealthPoll (h : Powered s) (used spare threshold warn : Nat) :
    exec (.atticHealthPoll d used spare threshold warn) s = execAtticHealthPoll d used spare threshold warn s := powered_runs h _

theorem exec_atticScrub (h : Powered s) (bad : Bool) : exec (.atticScrub d bad) s = execAtticScrub d bad s := powered_runs h _

theorem exec_atticRebuildComplete (h : Powered s) (ok : Bool) : exec (.atticRebuildComplete d ok) s = execAtticRebuildComplete d ok s :=
  powered_runs h _

theorem exec_atticAdopt (h : Powered s) (serial blocks : Nat) (ok : Bool) :
    exec (.atticAdopt d serial blocks ok) s = .next (adopt s d serial blocks ok) := powered_runs h (execAtticAdopt d serial blocks ok s)

theorem exec_atticRetire (h : Powered s) : exec (.atticRetire d) s = .next (retire s d) := powered_runs h (execAtticRetire d s)

theorem exec_atticImport (h : Powered s) (addr : Nat) : exec (.atticImport addr) s = .next (import_ s addr) := powered_runs h (execAtticImport addr s)

/-- A drive of the module that is neither absent nor failed answers. -/
theorem not_away (hd : d < 4) (hthere : drvState s d ≠ 0 ∧ drvState s d ≠ 3) : ¬(4 ≤ d ∨ drvState s d = 0 ∨ drvState s d = 3) := by omega

/-- A completion counted in its queue. -/
def completionCounted (s : State) (k : Nat) : State := { s with att := { s.att with cqs := smSet 0 s.att.cqs k (smGet 0 s.att.cqs k + 1) } }

theorem execAtticIoComplete_there (hd : d < 4) (hthere : drvState s d ≠ 0 ∧ drvState s d ≠ 3) {queue : Nat} (hqueue : queue < 16) (status : Nat) :
    let u := completionCounted s (16 * d + queue)
    execAtticIoComplete d queue status s = if status = 1 then .next (mediaError u d)
      else if status = 2 then .next (regCount u (rDrvErr d) 31 16 1) else .next u := if_neg (by omega)

/-- The third abort within a minute fails the drive. -/
theorem execAtticCommandTimeout_there (hd : d < 4) (hthere : drvState s d ≠ 0 ∧ drvState s d ≠ 3) :
    let ts := (getDrive s d).timeouts.filter (fun t => decide (s.now ≤ t + 60 * 1300000000)) ++ [s.now]
    let u := setDrive (regCount s (rDrvErr d) 47 32 1) d { getDrive s d with timeouts := ts }
    execAtticCommandTimeout d s = .next (if ts.length < 3 then u else driveFails u d) := by
  intro ts u
  refine (if_neg (not_away hd hthere)).trans (congrArg _ ?_)
  rcases Nat.lt_or_ge ts.length 3 with hfew | hmany
  · exact (if_neg (Nat.not_le.mpr hfew)).trans (if_pos hfew).symm
  · exact (if_pos hmany).trans (if_neg (Nat.not_lt.mpr hmany)).symm

/-- A poll's health as DRV_HEALTH and DRV_STATE show it; media that went read-only take no writes. -/
def healthPolled (s : State) (d used spare warn : Nat) : State :=
  let a := rDrvHealth d
  let u := withField (withField (withField s a 7 0 used) a 15 8 spare) a 23 16 warn
  if warn.testBit 3 ∧ drvState u d = 1 then withField u (rDrvState d) 2 0 4 else u

theorem execAtticHealthPoll_there (hd : d < 4) (hthere : drvState s d ≠ 0 ∧ drvState s d ≠ 3) (used spare threshold warn : Nat) :
    let v := healthPolled s d used spare warn
    execAtticHealthPoll d used spare threshold warn s = if (80 ≤ used ∨ spare < threshold) ∧ (getDrive v d).worn = false
      then .next (attFault (setDrive v d { getDrive v d with worn := true }) codeWear d) else .next v := if_neg (not_away hd hthere)

theorem execAtticScrub_online (hd : d < 4) (hactive : s.att.active = false) (hon : drvState s d = 1) (bad : Bool) :
    let u := { s with att := { s.att with scrubAt := s.now } }
    execAtticScrub d bad s = .next (if bad then mediaError u d else u) := by
  have online : ¬(s.att.active = true ∨ 4 ≤ d ∨ drvState s d ≠ 1) := by
    rw [hactive]
    simp only [Bool.false_eq_true, false_or]
    omega
  exact if_neg online

/-- A finished rebuild makes its drive a member again; one that cannot complete fails the module. -/
theorem execAtticRebuildComplete_rebuilding (hd : d < 4) (hrebuild : drvState s d = 2) (ok : Bool) :
    execAtticRebuildComplete d ok s = if ok then .next (withField s (rDrvState d) 2 0 1)
      else .next (moduleFailure (attFault s codeAtticUnavailable d) codeAtticUnavailable) := if_neg (by omega)

/-- Adoption of a lost or read-only member of the array, by whether the drive has the features it needs. -/
theorem adopt_member (hd : d < 4) (serial blocks : Nat) (ok : Bool) :
    let u := withField s (rDrvState d) 3 3 0
    let v := withField (setDriveLink u d true) (rDrvCap d) 47 0 blocks
    drvState u d ≠ 1 → drvState u d ≠ 2 → (getDrive u d).member = true →
      adopt s d serial blocks ok = if ok = false then attFault u codeDriveFailed d
        else withField (setDrive v d { getDrive v d with serial := serial, lost := false, timeouts := [], worn := false }) (rDrvState d) 2 0 2 := by
  intro u v hoff hstill hmember
  have member : ¬((getDrive u d).member = false ∨ drvState u d = 1 ∨ drvState u d = 2 ∨ 4 ≤ d) := by
    rw [hmember]
    simp only [Bool.true_eq_false, false_or]
    omega
  exact if_neg member

theorem retire_there (hd : d < 4) :
    let z := withField s (rDrvState d) 4 4 0
    let t := withField z (rDrvState d) 2 0 3
    drvState z d ≠ 0 → retire s d = if (getDrive z d).member then checkArray t d else t := by
  intro z t hthere
  have there : ¬(4 ≤ d ∨ drvState z d = 0) := by omega
  exact if_neg there

/-- Records imported: the epochs whose EPOCH_END they hold are kept. -/
def recordsImported (u : State) (rs : List AttRec) : State :=
  let all := u.att.imports ++ rs
  let es := epochsOf (rank u) all
  es.foldl keepEpoch { u with att := { u.att with
    imports := all.filter (fun r => decide (r.ty ≠ 9) && !(es.any (fun (e : Epoch) => decide (e.num = r.epoch)))) } }

theorem import_parsed {addr : Nat} {rs : List AttRec} (hidle : schState s ≠ 3) :
    let n := regBits s rAttImportLen 31 0 * 4096
    let r := readBytes s (addr / 4096 * 4096) n
    let u := latchIrq (noteFetch s (addr / 4096 * 4096) n (unitId 9 0)) 259
    r.2 = 0 → parseRun (rank u) (n / 4096 + 1) r.1 = some rs → import_ s addr = recordsImported u rs := by
  intro n r u hread hparse
  have parsed : (if r.2 = 0 then parseRun (rank u) (n / 4096 + 1) r.1 else none) = some rs := (if_pos hread).trans hparse
  refine (if_neg hidle).trans ?_
  show (match (if r.2 = 0 then parseRun (rank u) (n / 4096 + 1) r.1 else none) with
    | none => attFault u codeEpochCorrupt 7
    | some new => recordsImported u new) = recordsImported u rs
  rw [parsed]

end

/-- Settles O42: a drive's event takes the branch of the drive's state. -/
theorem drivesComplete : Obligations.DrivesComplete := by
  intro s d h hd there u z
  simp only [exec_atticIoComplete h, exec_atticCommandTimeout h, exec_atticDriveLinkLost h, exec_atticControllerFatal h, exec_atticHealthPoll h,
    exec_atticScrub h, exec_atticRebuildComplete h, exec_atticAdopt h, exec_atticRetire h, exec_atticImport h]
  refine ⟨fun hthere queue hqueue => ?io, fun hthere => ?timeout, if_neg (Nat.not_le.mpr hd), trivial, fun hthere used spare threshold warn => ?health,
    fun hactive hon => ?scrub, fun hrebuild => ?rebuild, fun hoff hstill hmember serial blocks => ?adopted, fun hthere => ?retired,
    fun addr rs hidle hread hparse => ?imported⟩
  case io =>
    have counted := execAtticIoComplete_there hd hthere hqueue
    exact ⟨counted 0, counted 1, counted 2⟩
  case timeout => exact execAtticCommandTimeout_there hd hthere
  case health =>
    have polled := execAtticHealthPoll_there hd hthere used spare threshold warn
    refine ⟨fun hgood => polled.trans (if_neg ?_), fun hworn hfirst => polled.trans (if_pos ⟨hworn, hfirst⟩)⟩
    rintro ⟨hbad, hnew⟩
    rcases hgood with hwell | hknown
    · omega
    · exact Bool.false_ne_true (hnew.symm.trans hknown)
  case scrub =>
    have scrubbed := execAtticScrub_online hd hactive hon
    exact ⟨scrubbed false, scrubbed true⟩
  case rebuild =>
    have rebuilt := execAtticRebuildComplete_rebuilding hd hrebuild
    exact ⟨rebuilt true, rebuilt false⟩
  case adopted =>
    have adopted := fun ok => adopt_member hd serial blocks ok hoff hstill hmember
    exact ⟨congrArg _ (adopted false), congrArg _ (adopted true)⟩
  case retired => exact congrArg _ (retire_there hd hthere)
  case imported => exact congrArg _ (import_parsed hidle hread hparse)

end Sys2Proof.Proofs
end

section
/-!
The statements on the management processor, interrupts, the recorder and freezes (17_control_and_observation.md).
-/
namespace Sys2Proof.Proofs
open Sys2Proof.Machine Sys2Proof.Laws

/-! ### Watchdogs, the SRAM and check-value channels (R427 to R430, R443 to R446, R469) -/

section
variable {s : State}

theorem exec_watchdogKick (h : Clocked s) (core : Nat) : exec (.watchdogKick core) s = execWatchdogKick core s := clocked_runs h _

theorem exec_mpWatchdog (h : Clocked s) (core : Nat) : exec (.mpWatchdog core) s = execMpWatchdog core s := clocked_runs h _

theorem exec_mpSramUncorrectable (h : Clocked s) (word : Nat) (double : Bool) :
    exec (.mpSramUncorrectable word double) s = execMpSramUncorrectable word double s := clocked_runs h _

theorem exec_coreReset (h : Clocked s) (mask : Nat) : exec (.coreReset mask) s = .next (coreReset s mask) := clocked_runs h (execCoreReset mask s)

theorem exec_cvuGo (h : Clocked s) (k n : Nat) : exec (.cvuGo k n) s = execCvuGo k n s := clocked_runs h _

theorem exec_cvuComplete (h : Clocked s) (k : Nat) : exec (.cvuComplete k) s = execCvuComplete k s := clocked_runs h _

theorem exec_secMr3Ext (h : Clocked s) (addr : Nat) : exec (.secMr3Ext addr) s = .next (extendMr3 s addr) := clocked_runs h (execSecMr3Ext addr s)

/-- A core whose watchdog has reached zero: it and every other such core is recorded, and Travar restarts. -/
theorem execMpWatchdog_expired {core : Nat} (hcore : core < 4) (hon : wdogOn s core = true) (hend : wdogEnd s core ≤ s.now) :
    execMpWatchdog core s = .next (warmRestart (((upTo 4).filter (wdogExpired s)).foldl
      (fun t c => mpFault (withField t rMpCoreStat (4 + c) (4 + c) 1) codeWatchdog c [(c, 2)]) s) codeWatchdog) := by
  have expired : ¬(4 ≤ core ∨ wdogExpired s core = false) := by
    simp only [wdogExpired, hon, Bool.true_and, decide_eq_false_iff_not]
    omega
  exact if_neg expired

/-- A word of the SRAM that fails its check, by whether the error can be corrected. -/
theorem execMpSramUncorrectable_word {word : Nat} (hword : word < sramBytes / 8) (double : Bool) :
    let u := withField (regCount s rMpSram 39 24 1) rMpSram 59 40 word
    execMpSramUncorrectable word double s = if double = false then .next (regCount s rMpSram 23 0 1)
      else .next (warmRestart (mpFault u codeSramEcc 0 [(word, 4)]) codeSramEcc) := if_neg (Nat.not_le.mpr hword)

/-- A computation begun on a channel with the settings `ws`. -/
def computationBegun (s : State) (k len : Nat) (ws : List Word) : State :=
  setCvu (withField s (rCvu k 0x18) 16 16 1) k { getCvu s k with todo := len, ends := s.now + ceilDiv ((cvuFold ws).length + len) 8, set := ws }

/-- CHECK_CONFIG of a channel. -/
def computationRefused (s : State) (k : Nat) : State :=
  mpFault (withField (withField s (rCvu k 0x18) 18 18 1) (rCvu k 0x18) 47 32 codeCheckConfig) codeCheckConfig k [(k, 2)]

/-- A computation starts on an idle channel whose settings are good. -/
theorem execCvuGo_channel {k : Nat} (hk : k < 32) (n : Nat) :
    let ws := (upTo 6).map (fun i => regGet s (rCvu k (8 * i)))
    execCvuGo k n s = .next (if regBits s (rCvu k 0x18) 16 16 = 1 ∨ cvuBad (cvuCfg ws) = true then computationRefused s k
      else computationBegun s k (n % 2 ^ 32) ws) := congrArg _ (if_pos hk)

/-- A computation under way ends once its bytes have had their time. -/
theorem execCvuComplete_due {k : Nat} (hk : k < 32) (hbusy : regBits s (rCvu k 0x18) 16 16 = 1) (hdue : (getCvu s k).ends ≤ s.now) :
    execCvuComplete k s = .next (cvuEnd s k) := if_neg (by omega)

end

/-- Settles O43: each event of the management processor is the one branch that its guard leaves. -/
theorem managementProcessorCompletes : Obligations.ManagementProcessorCompletes := by
  intro s h
  simp only [exec_watchdogKick h, exec_mpWatchdog h, exec_mpSramUncorrectable h, exec_coreReset h, exec_cvuGo h, exec_cvuComplete h, exec_secMr3Ext h]
  refine ⟨fun core hcore => ⟨congrArg _ (if_pos hcore), fun hon hend => execMpWatchdog_expired hcore hon hend⟩, fun word hword => ?sram,
    fun mask => rfl, fun k n hk => ⟨fun hidle hgood => ?begun, fun hrefused => ?refused⟩, fun k hk hbusy hdue => execCvuComplete_due hk hbusy hdue,
    fun addr => rfl⟩
  case sram => exact ⟨execMpSramUncorrectable_word hword false, execMpSramUncorrectable_word hword true⟩
  case begun =>
    refine (execCvuGo_channel hk n).trans (congrArg _ (if_neg ?_))
    rintro (hbusy | hbad)
    · omega
    · exact Bool.false_ne_true (hgood.symm.trans hbad)
  case refused => exact (execCvuGo_channel hk n).trans (congrArg _ (if_pos hrefused))

/-! ### The interrupt controller (R431 to R436, Table 17.2) -/

section
variable {s : State}

theorem exec_irqLevelChange (h : Clocked s) (n : Nat) : exec (.irqLevelChange n) s = execIrqLevelChange n s := clocked_runs h _

theorem exec_irqHoldoffExpiry (h : Clocked s) (g : Nat) : exec (.irqHoldoffExpiry g) s = execIrqHoldoffExpiry g s := clocked_runs h _

theorem exec_irqClaim (h : Clocked s) (t : Nat) : exec (.irqClaim t) s = .next (claimSource s t) := clocked_runs h (execIrqClaim t s)

theorem exec_irqEoi (h : Clocked s) (t n : Nat) : exec (.irqEoi t n) s = .next (endOfInterrupt s t (n % 1024)) := clocked_runs h (execIrqEoi t n s)

theorem exec_irqSwset (h : Clocked s) (n : Nat) : exec (.irqSwset n) s = .next (softLevel s (n % 1024) true) := clocked_runs h (execIrqSwset n s)

theorem exec_irqSwclr (h : Clocked s) (n : Nat) : exec (.irqSwclr n) s = .next (softLevel s (n % 1024) false) := clocked_runs h (execIrqSwclr n s)

theorem exec_managementPortLinkChange (h : Clocked s) : exec .managementPortLinkChange s = .next (putLevel (latchIrq s 217) 217) :=
  clocked_runs h (execManagementPortLinkChange s)

/-- A level that differs from LEVEL is taken, and the sources are assigned again. -/
theorem putLevel_changed {n : Nat} (hchanged : regBits s (rIrqSrc n) 10 10 ≠ b2n (levelOf s n)) :
    let u := putPending (withField s (rIrqSrc n) 10 10 (b2n (levelOf s n))) n
    putLevel s n = reassign (if levelOf s n then fireSourceTriggers u n else u) := if_neg hchanged

theorem execIrqHoldoffExpiry_due {g : Nat} (hg : g < 64) (hheld : regBits s (rIrqGrp g) 10 10 = 1) (hdue : smGet 0 s.irq.hold g ≤ s.now) :
    execIrqHoldoffExpiry g s =
      .next (reassign (withField { s with irq := { s.irq with hold := smSet 0 s.irq.hold g 0 } } (rIrqGrp g) 10 10 0)) := if_neg (by omega)

/-- A source claimed by a core: active, its priority stacked, its group held off. -/
def sourceClaimed (s : State) (t n : Nat) : State :=
  let p := srcPrio s n
  { reassign (startHold (setStack (withField s (rIrqSrc n) 12 12 1) t ((n, p) :: irqStack s t)) (n / 16)) with
    lastRead := BitVec.ofNat 64 (n + 2 ^ 10 + p * 2 ^ 11) }

/-- A core's claim returns the most urgent source there is for it, or 0. -/
theorem claimSource_core {t : Nat} (ht : t < 4) : claimSource s t = (claimable s t).elim { s with lastRead := 0 } (sourceClaimed s t) := by
  refine (if_neg (Nat.not_le.mpr ht)).trans ?_
  cases claimable s t with
  | none => rfl
  | some n => rfl

/-- An EOI of a core ends the source at the top of its stack; any other is counted as bad. -/
theorem endOfInterrupt_stacked {t : Nat} (ht : t < 4) {e : Nat × Nat} {st : List (Nat × Nat)} (hstack : irqStack s t = e :: st) (n : Nat) :
    endOfInterrupt s t n = if e.1 = n then endActive (setStack s t st) n else badEoi s := by
  obtain ⟨hcore, hbelow⟩ : t ≠ 4 ∧ ¬4 < t := by omega
  rw [endOfInterrupt, if_neg hcore, if_neg hbelow, hstack]

theorem endOfInterrupt_empty {t : Nat} (ht : t < 4) (hstack : irqStack s t = []) (n : Nat) : endOfInterrupt s t n = badEoi s := by
  obtain ⟨hcore, hbelow⟩ : t ≠ 4 ∧ ¬4 < t := by omega
  rw [endOfInterrupt, if_neg hcore, if_neg hbelow, hstack]

theorem endOfInterrupt_bad {t n : Nat} (ht : t < 4) (hother : ∀ e ∈ (irqStack s t).head?, e.1 ≠ n) : endOfInterrupt s t n = badEoi s := by
  cases hstack : irqStack s t with
  | nil => exact endOfInterrupt_empty ht hstack n
  | cons e st =>
    have top : e ∈ (irqStack s t).head? := by rw [hstack, List.head?_cons, Option.mem_some]
    exact (endOfInterrupt_stacked ht hstack n).trans (if_neg (hother e top))

/-- An EOI of the Letterbox's target ends a source that is active there. -/
theorem endOfInterrupt_letterbox {n : Nat} (hactive : srcActive s n = true) (htarget : srcTarget s n = 4) :
    endOfInterrupt s 4 n = endActive s n := by
  have delivered : (srcActive s n && decide (srcTarget s n = 4)) = true := by simp [hactive, htarget]
  exact if_pos delivered

/-- A software level of sources 512 to 1,023 changes. -/
theorem softLevel_source {n : Nat} (hlow : 512 ≤ n) (hhigh : n < 1024) (up : Bool) :
    softLevel s (n % 1024) up = putLevel { s with irq := { s.irq with sw := if up then setInsert n s.irq.sw else setErase n s.irq.sw } } n := by
  rw [Nat.mod_eq_of_lt hhigh]
  exact if_neg (by omega)

end

/-- Settles O44: levels, hold-offs, claims and EOIs each meet the branch of the source's or the stack's state. -/
theorem interruptsComplete : Obligations.InterruptsComplete := by
  intro s h
  simp only [exec_irqLevelChange h, exec_irqHoldoffExpiry h, exec_irqClaim h, exec_irqEoi h, exec_irqSwset h, exec_irqSwclr h,
    exec_managementPortLinkChange h]
  refine ⟨fun n hn hchanged => ?level, fun g hg hheld hdue => execIrqHoldoffExpiry_due hg hheld hdue, fun t ht => ?claim, rfl,
    fun t n ht hn => ?eoi, fun n hn hactive htarget => ?letterbox, fun n hlow hhigh => ?software, trivial⟩
  case level => exact (if_neg (Nat.not_le.mpr hn)).trans (congrArg _ (putLevel_changed hchanged))
  case claim =>
    rw [claimSource_core ht]
    exact ⟨fun hnone => by rw [hnone]; rfl, fun n hsome => by rw [hsome]; rfl⟩
  case eoi =>
    rw [Nat.mod_eq_of_lt hn]
    exact ⟨fun e st hstack htop => congrArg _ ((endOfInterrupt_stacked ht hstack n).trans (if_pos htop)), fun hother => congrArg _ (endOfInterrupt_bad ht hother)⟩
  case letterbox =>
    rw [Nat.mod_eq_of_lt hn]
    exact congrArg _ (endOfInterrupt_letterbox hactive htarget)
  case software => exact ⟨congrArg _ (softLevel_source hlow hhigh true), congrArg _ (softLevel_source hlow hhigh false)⟩

/-! ### The event recorder (R437 to R442) -/

section
variable {s : State}

theorem exec_evrRecordWrite (h : Clocked s) : exec .evrRecordWrite s = execEvrRecordWrite s := clocked_runs h _

theorem exec_evrData (h : Clocked s) : exec .evrData s = .next (readEvrData s) := clocked_runs h (execEvrData s)

theorem exec_evrCursor (h : Clocked s) (off : Nat) : exec (.evrCursor off) s = .next (moveCursor s off) := clocked_runs h (execEvrCursor off s)

theorem exec_evrFire (h : Clocked s) (t : Nat) : exec (.evrFire t) s = .next (fireSoftware s (t % 8)) := clocked_runs h (execEvrFire t s)

theorem exec_evrTimeTrigger (h : Clocked s) (t : Nat) : exec (.evrTimeTrigger t) s = execEvrTimeTrigger t s := clocked_runs h _

theorem exec_evrSnapshotComplete (h : Clocked s) : exec .evrSnapshotComplete s = execEvrSnapshotComplete s := clocked_runs h _

theorem exec_evrSoft (h : Clocked s) (code arg : Nat) : exec (.evrSoft code arg) s = .next (softRecord s code arg) :=
  clocked_runs h (execEvrSoft code arg s)

/-- The oldest queued record written: the queue goes on, and a snapshot may freeze the module. -/
def recordWritten (t : State) (r : EvRec) (rest : List EvRec) : State :=
  let u := { t with evr := { t.evr with queue := rest } }
  if r.ty = 3 ∧ regBits u (rEvrTrg r.code) 4 4 = 1 then freeze u else u

/-- With no LOST record due, the oldest queued record is written when the ring has room. -/
theorem execEvrRecordWrite_queued (hlost : s.evr.lost = 0) {r : EvRec} {rest : List EvRec} (hqueue : s.evr.queue = r :: rest) {o : Option State}
    (hwrite : evrWrite s r = o) : execEvrRecordWrite s = .next (o.elim s (fun t => recordWritten t r rest)) := by
  have due : ¬(0 < s.evr.lost ∧ s.evr.queue.length < 64 ∧ regBits s rEvrCtrl 0 0 = 1) := by omega
  simp only [execEvrRecordWrite, if_neg due]
  rw [hqueue]
  simp only [hwrite]
  cases o with
  | none => rfl
  | some t => rfl

/-- The LOST record of a state. -/
def lostRecord (s : State) : EvRec :=
  { ty := 4, code := 0, unit := unitId 12 0, ftime := s.now, step := recStep s, body := [(s.evr.lost, 8)] }

theorem execEvrRecordWrite_lost (hlost : 0 < s.evr.lost) (hqueue : s.evr.queue.length < 64) (hon : regBits s rEvrCtrl 0 0 = 1) {t : State}
    (hwrite : evrWrite s (lostRecord s) = some t) : execEvrRecordWrite s = .next { t with evr := { t.evr with lost := 0 } } := by
  have due : 0 < s.evr.lost ∧ s.evr.queue.length < 64 ∧ regBits s rEvrCtrl 0 0 = 1 := ⟨hlost, hqueue, hon⟩
  rw [lostRecord] at hwrite
  simp only [execEvrRecordWrite, if_pos due, hwrite]

/-- EVR_DATA before HEAD reads the ring and moves the cursor on. -/
theorem readEvrData_unread (hunread : evrCursor s ≠ evrHead s) :
    readEvrData s = { withField s rEvrCursor 15 3 ((evrCursor s + 8) % 65536 / 8) with
      lastRead := BitVec.ofNat 64 (leNat (smGetList 0 s.evr.ring (evrCursor s) 8)) } := by
  have word : evrWord s = BitVec.ofNat 64 (leNat (smGetList 0 s.evr.ring (evrCursor s) 8)) := if_neg hunread
  rw [← word]
  exact if_neg hunread

theorem readEvrData_head (hhead : evrCursor s = evrHead s) : readEvrData s = { s with lastRead := 0 } := by
  have word : evrWord s = 0 := if_pos hhead
  rw [← word]
  exact if_pos hhead

/-- A snapshot that has read its registers is queued. -/
theorem execEvrSnapshotComplete_read {p : Snapshot} {rest : List Snapshot} (hsnaps : s.evr.snaps = p :: rest)
    (hread : selCount s p.trig ≤ p.vals.length) :
    let u := { s with evr := { s.evr with snaps := rest } }
    execEvrSnapshotComplete s = .next (submitRec u
      { ty := 3, code := p.trig, unit := unitId 12 0, ftime := p.ftime, step := recStep u, body := p.vals.map (fun w => (w.toNat, 8)) }) := by
  intro u
  rw [execEvrSnapshotComplete, hsnaps]
  exact if_neg (Nat.not_lt.mpr hread)

/-- CODE and ARG that fit their fields are carried as they are. -/
theorem softRecord_fits {code arg : Nat} (hcode : code < 2 ^ 16) (harg : arg < 2 ^ 48) :
    softRecord s code arg =
      submitRec s { ty := 6, code := code, unit := unitId 10 0, ftime := s.now, step := recStep s, body := [(arg, 8)] } := by
  have code16 : code % 65536 = code := Nat.mod_eq_of_lt hcode
  rw [softRecord, code16, Nat.mod_eq_of_lt harg]

end

/-- Settles O45: the recorder's records, cursor and triggers by their guards. -/
theorem recorderCompletes : Obligations.RecorderCompletes := by
  intro s h
  simp only [exec_evrRecordWrite h, exec_evrData h, exec_evrCursor h, exec_evrFire h, exec_evrTimeTrigger h, exec_evrSnapshotComplete h,
    exec_evrSoft h]
  refine ⟨fun hlost r rest hqueue => ?queued, fun hlost hqueue hon t hwrite => execEvrRecordWrite_lost hlost hqueue hon hwrite,
    fun hunread => congrArg _ (readEvrData_unread hunread), fun hhead => congrArg _ (readEvrData_head hhead),
    fun off => ⟨fun hpath => congrArg _ (if_pos hpath), fun hpast => congrArg _ (if_neg (Nat.not_le.mpr hpast))⟩,
    fun t ht hen => ⟨fun hkind => ?software, fun hkind hnow => if_pos ⟨ht, hen, hkind, hnow⟩⟩,
    fun p rest hsnaps hread => execEvrSnapshotComplete_read hsnaps hread, fun code arg hcode harg => congrArg _ (softRecord_fits hcode harg)⟩
  case queued => exact ⟨execEvrRecordWrite_queued hlost hqueue, fun t hwrite => execEvrRecordWrite_queued hlost hqueue hwrite⟩
  case software =>
    rw [Nat.mod_eq_of_lt ht]
    exact congrArg _ (if_pos ⟨hen, hkind⟩)

/-! ### Freezes and the scan port (R447 to R449, R481) -/

section
variable {s : State}

theorem exec_freezeN (h : Clocked s) : exec .freezeN s = execFreezeN s := clocked_runs h _

theorem exec_mpFreezeNow (h : Clocked s) (key : Nat) : exec (.mpFreezeNow key) s = .next (freezeNow s key) := clocked_runs h (execMpFreezeNow key s)

theorem exec_timedFreeze (h : Clocked s) : exec .timedFreeze s = execTimedFreeze s := clocked_runs h _

/-- A freeze keeps fabric time and zeroes the seed and the keys. -/
theorem freeze_running (hrunning : s.mgmt.frozen = none) :
    freeze s = { s with mgmt := { s.mgmt with frozen := some s.now, keysZeroed := true }, sec := { s.sec with seed := none } } := by
  have running : ¬s.mgmt.frozen.isSome = true := by simp [hrunning]
  exact if_neg running

/-- From stage 2 on FREEZE_N is acted on, unless the module was reset with SERVICE_N low. -/
theorem execFreezeN_heeded (hstage : 2 ≤ s.mgmt.stage) (hheeded : s.mgmt.freezeIgnored = false) : execFreezeN s = .next (freeze s) := by
  refine if_neg ?_
  rintro (hearly | hignored)
  · omega
  · exact Bool.false_ne_true (hheeded.symm.trans hignored)

/-- A frozen module selects the chain. -/
theorem execScanSelect_frozen {c : Nat} (hfrozen : s.mgmt.frozen = some c) {chain : Nat} (hchain : chain < 65536) :
    execScanSelect chain s = .next { s with mgmt := { s.mgmt with scanSel := some chain } } := by
  have frozen : ¬s.mgmt.frozen.isNone = true := by simp [hfrozen]
  rw [execScanSelect, if_neg frozen, Nat.mod_eq_of_lt hchain]

/-- It shifts out 64 bits of a selected chain. -/
theorem execScanRead_frozen {c : Nat} (hfrozen : s.mgmt.frozen = some c) (hsel : s.mgmt.scanSel ≠ none) :
    execScanRead s = .next { s with lastRead := Sys2Proof.Config.freeWord s.freeCount, freeCount := s.freeCount + 1 } := by
  obtain ⟨chain, hchain⟩ := Option.ne_none_iff_exists'.mp hsel
  rw [execScanRead, hfrozen, hchain]

end

/-- Settles O46: each freeze that is heeded takes effect once, and the scan port answers only after it. -/
theorem freezesComplete : Obligations.FreezesComplete := by
  intro s
  refine ⟨fun h hrunning => ?freezes, fun c hfrozen => ⟨fun chain hchain => execScanSelect_frozen hfrozen hchain, execScanRead_frozen hfrozen⟩⟩
  rw [exec_freezeN h, exec_timedFreeze h, ← freeze_running hrunning]
  refine ⟨execFreezeN_heeded, (exec_mpFreezeNow h _).trans (congrArg _ (if_pos rfl)),
    fun key hkey => (exec_mpFreezeNow h key).trans (congrArg _ (if_neg hkey)), fun harm hnow => if_pos ⟨harm, hnow⟩⟩

end Sys2Proof.Proofs
end

section
/-!
The statement on start-up and service mode (18_power_security_start.md).
-/
namespace Sys2Proof.Proofs
open Sys2Proof.Machine Sys2Proof.Laws

/-! ### The stages before training (R472, R473, Table 18.8) -/

section
variable {s : State}

/-- A stage that start-up stands at is not skipped. -/
theorem not_skipped {n : Nat} (hat : atStage s n = true) : ¬(!(atStage s n)) = true := by simp [hat]

theorem exec_standbyStage (hat : atStage s 0 = true) (low : Bool) :
    let u := endStage (withField s rPwrStatus 0 0 1) 1
    exec (.standbyStage low) s = .next (if low then { u with mgmt := { u.mgmt with service := true, freezeIgnored := true } } else u) := if_pos hat

/-- The ROM's self-test failed: the module is dead. -/
theorem exec_bootRomStage_fails (h : Clocked s) (hat : atStage s 1 = true) (stepping : Nat) :
    exec (.bootRomStage false stepping) s = .next { s with mgmt := { s.mgmt with dead := true } } :=
  (clocked_runs h _).trans (if_neg (not_skipped hat))

/-- The seed that the PUF gives, by whether the factory's check agrees. -/
def seedDerived (s u : State) : State :=
  let fac := flashBytes s factoryAt 0x6780
  let seed := Sys2Proof.Config.pufSeed (helperData fac)
  if digest64 seed = seedCheck fac then { withField u rSecStatus 0 0 1 with sec := { u.sec with seed := some seed } }
  else secFault (withField (withField u rSecStatus 0 0 0) rSecEvent 2 2 1) codePufFailed []

/-- The self-test passed: the seed is derived and the SRAM cleared. -/
theorem exec_bootRomStage_passes (h : Clocked s) (hat : atStage s 1 = true) (stepping : Nat) :
    exec (.bootRomStage true stepping) s =
      .next (seedDerived s (endStage { withField s rMpId 23 16 stepping with mem := smClear s.mem sramBase sramBytes } 2)) := by
  have passed : ¬true = false := Bool.noConfusion
  refine (clocked_runs h _).trans ((if_neg (not_skipped hat)).trans ((if_neg passed).trans ?_))
  exact (apply_ite _ _ _ _).symm

theorem exec_travarStage (h : Clocked s) (hat : atStage s 2 = true) :
    exec .travarStage s = .next (if (bootTravar s).2 then endStage (bootTravar s).1 3 else (bootTravar s).1) :=
  (clocked_runs h _).trans (if_pos hat)

/-- The stage of a module without a factory part or repair map. -/
def unconfigured (s : State) : State := moduleFailure (enterService (cfgFault s codeConfigFailed [])) codeConfigFailed

theorem exec_configurationStage_unconfigured (h : Clocked s) (hat : atStage s 3 = true) (hnone : (factoryConf s).bind (factoryRepair s) = none) :
    exec .configurationStage s = .next (unconfigured s) := by
  refine (clocked_runs h _).trans ((if_neg (not_skipped hat)).trans ?_)
  cases hfac : factoryConf s with
  | none => rfl
  | some fac =>
    have repair : factoryRepair s fac = none := by rwa [hfac] at hnone
    simp only [repair]
    rfl

theorem exec_configurationStage_configured (h : Clocked s) (hat : atStage s 3 = true) {rep : List Byte}
    (hsome : (factoryConf s).bind (factoryRepair s) = some rep) : ∃ t, exec .configurationStage s = .next t ∧ t.mgmt.stage = 4 := by
  obtain ⟨fac, hfac, hrep⟩ := Option.bind_eq_some_iff.mp hsome
  simp only [show exec .configurationStage s = execConfigurationStage s from clocked_runs h _, execConfigurationStage, if_neg (not_skipped hat), hfac,
    hrep]
  exact ⟨_, rfl, rfl⟩

theorem exec_floorBringupStage_fails (h : Clocked s) (hat : atStage s 4 = true) (f : Nat) (vmins speeds : List Nat) (arrays : List (Nat × Nat))
    (rooms : List Nat) : exec (.floorBringupStage (some f) vmins speeds arrays rooms) s =
      .next (moduleFailure (pwrFault s codeRailFailed f [(f, 2)]) codeRailFailed) :=
  (clocked_runs h _).trans (if_neg (not_skipped hat))

theorem exec_floorBringupStage_passes (h : Clocked s) (hat : atStage s 4 = true) (vmins speeds : List Nat) (arrays : List (Nat × Nat))
    (rooms : List Nat) : ∃ t, exec (.floorBringupStage none vmins speeds arrays rooms) s = .next t ∧ t.mgmt.stage = 5 :=
  ⟨_, (clocked_runs h _).trans (if_neg (not_skipped hat)), rfl⟩

end

/-! ### Cellar training (R185) -/

/-- What a fold's every step leaves of the cellars, the fold leaves. -/
theorem cel_foldl {α : Type} {f : State → α → State} (h : ∀ s x, (f s x).cel = s.cel) (l : List α) (s : State) : (l.foldl f s).cel = s.cel :=
  List.foldlRecOn (motive := fun t => t.cel = s.cel) l f rfl (fun t ht x _ => (h t x).trans ht)

theorem setLinkState_cel (s : State) (l v : Nat) : (setLinkState s l v).cel = s.cel := by
  unfold setLinkState
  split
  · rfl
  · rfl

theorem retrainSums_cel (s : State) (c : Nat) : (retrainSums s c).cel = s.cel := by
  simp only [retrainSums, regPut_cel]

/-- The live channels are those given, in their order. -/
theorem setLive_live (s : State) (ids : List Nat) :
    (setLive s ids).cel.live = ids.mergeSort (fun a b => decide (a % 32 * 20 + a / 32 ≤ b % 32 * 20 + b / 32)) := by
  have counts (t : State) (l : List Nat) : ((upTo 20).foldl (fun s c =>
      retrainSums (regPut s (rMemStatus c) 7 2 (l.filter (fun id => decide (id / 32 = c))).length) c) t).cel = t.cel := by
    refine cel_foldl (fun s c => ?_) _ _
    rw [retrainSums_cel, regPut_cel]
  simp only [setLive, regPut_cel, counts, regSet_cel]

/-- One channel's training: marked out, it is left; failing, it is marked out; else it is live. -/
def channelTrained (bad : Nat → Bool) (a : State × List Nat) (id : Nat) : State × List Nat :=
  if channelOut a.1 id then (setChState a.1 id 4, a.2)
  else if bad id then (channelFails a.1 id, a.2)
  else (setChan (setChState a.1 id 0) id { getChan a.1 id with lastTrain := a.1.now }, a.2 ++ [id])

/-- Every channel that training leaves live was to be trained and did not fail. -/
theorem mem_trained {bad : Nat → Bool} {s : State} {ids : List Nat} :
    ∀ id ∈ (ids.foldl (channelTrained bad) (s, [])).2, id ∈ ids ∧ bad id = false := by
  have untried : ∀ id ∈ ([] : List Nat), id ∈ ids ∧ bad id = false := fun id hid => absurd hid List.not_mem_nil
  refine List.foldlRecOn (motive := fun a => ∀ id ∈ a.2, id ∈ ids ∧ bad id = false) ids (channelTrained bad) ?_ ?_
  · exact untried
  intro a ha k hk
  unfold channelTrained
  split
  · exact ha
  · split
    · exact ha
    · next hgood =>
      intro id hid
      rcases List.mem_append.mp hid with hold | hnew
      · exact ha id hold
      · rw [List.mem_singleton.mp hnew]
        exact ⟨hk, Bool.eq_false_iff.mpr hgood⟩

/-- An enabled link that is down begins to train. -/
def linkBegins (s : State) (l : Nat) : State := if regBits s (rLnkCtrl l) 0 0 = 1 ∧ linkState s l = 0 then setLinkState s l 1 else s

theorem linkBegins_cel (s : State) (l : Nat) : (linkBegins s l).cel = s.cel := by
  unfold linkBegins
  split
  · exact setLinkState_cel s l 1
  · rfl

/-- The end of the stage: the channels that pass are written with zeros, and the enabled links begin to train. -/
def trainingEnds (r : State × List Nat) : State :=
  let s := setLive { r.1 with mem := smClear r.1.mem 0 apertureBase, poison := [] } r.2
  let s := (upTo 20).foldl (fun s c => regPut s (rMemStatus c) 0 0 1) s
  (upTo 50).foldl linkBegins s

theorem mem_trainingEnds_live {r : State × List Nat} {id : Nat} (h : id ∈ (endStage (trainingEnds r) 6).cel.live) : id ∈ r.2 := by
  have ready (t : State) : ((upTo 20).foldl (fun s c => regPut s (rMemStatus c) 0 0 1) t).cel = t.cel := by
    refine cel_foldl (fun s c => ?_) _ _
    rw [regPut_cel]
  rw [trainingEnds, endStage_cel, cel_foldl linkBegins_cel, ready, setLive_live] at h
  exact List.mem_mergeSort.mp h

section
variable {s : State}

/-- The measurements of the channels that are trained: those not marked out. -/
def trainedMargins (s : State) (margins : List (Nat × Nat × Nat × Nat × Nat × Nat)) : List (Nat × Nat × Nat × Nat × Nat × Nat) :=
  margins.filter (fun m => decide (m.1 < 640) && !(channelOut s m.1))

/-- Their margins and redundant lanes as MEM_CHn_MARGIN shows them. -/
def marginsShown (s : State) (ms : List (Nat × Nat × Nat × Nat × Nat × Nat)) : State :=
  ms.foldl (fun s m =>
    regPut (recordMargins s m.1 m.2.1 m.2.2.1 m.2.2.2.1 m.2.2.2.2.1) (rMemChMargin (m.1 / 32) (m.1 % 32)) 35 32 m.2.2.2.2.2) s

/-- A channel fails that is said to, or that no margins meeting the thresholds were measured of. -/
def failsTraining (failed : List Nat) (ms : List (Nat × Nat × Nat × Nat × Nat × Nat)) (id : Nat) : Bool :=
  decide (id ∈ failed) || !(ms.any (fun m => decide (m.1 = id) && marginsMeet m.2.1 m.2.2.1 m.2.2.2.1 m.2.2.2.2.1))

theorem failsTraining_of_mem {failed : List Nat} (ms : List (Nat × Nat × Nat × Nat × Nat × Nat)) {id : Nat} (h : id ∈ failed) :
    failsTraining failed ms id = true := by simp [failsTraining, h]

/-- The stage trains the 640 channels in turn. -/
theorem exec_cellarTrainingStage (h : Clocked s) (hat : atStage s 5 = true) (failed : List Nat) (margins : List (Nat × Nat × Nat × Nat × Nat × Nat)) :
    let ms := trainedMargins s margins
    exec (.cellarTrainingStage failed margins) s =
      .next (endStage (trainingEnds ((upTo 640).foldl (channelTrained (failsTraining failed ms)) (marginsShown s ms, []))) 6) := by
  refine (clocked_runs h _).trans ((if_neg (not_skipped hat)).trans ?_)
  -- Kept opaque: `rfl` would otherwise evaluate the fold over all 640 channels.
  generalize upTo 640 = ids
  rfl

theorem exec_linkStage (h : Clocked s) (hat : atStage s 6 = true) (drives : List (Nat × Nat × Nat × Bool)) :
    ∃ t, exec (.linkStage drives) s = .next t ∧ t.mgmt.stage = 7 :=
  ⟨_, (clocked_runs h _).trans (if_neg (not_skipped hat)), rfl⟩

theorem exec_fabricTimeStage (h : Clocked s) (hat : atStage s 7 = true) (gm standby : Bool) (gmRank sbRank : Nat) :
    let u := setRoles s gm standby gmRank sbRank
    exec (.fabricTimeStage gm standby gmRank sbRank) s =
      .next (endStage (if gm then { withField u rSchState 3 3 1 with seq := { u.seq with everLocked := true } } else u) 8) :=
  (clocked_runs h _).trans (if_neg (not_skipped hat))

/-- The digest of the identity key pair shown, and a changed repair map written. -/
def identityShown (s : State) (k : List Byte) (written : Bool) : State :=
  let id := digest64 (Sys2Proof.Config.falconPublic k)
  let u := (upTo 8).foldl (fun t j => regSet t (rSecId j) (BitVec.ofNat 64 (fld id (8 * j) 8))) s
  writeRepair (withField u rSecStatus 1 1 1) written

theorem exec_attestationStage (h : Clocked s) (hat : atStage s 8 = true) (written : Bool) :
    exec (.attestationStage written) s = .next (endStage ((idSeed s).elim s (identityShown s · written)) 9) := by
  refine (clocked_runs h _).trans ((if_neg (not_skipped hat)).trans ?_)
  cases idSeed s with
  | none => rfl
  | some k => rfl

theorem exec_letterboxStage (h : Clocked s) (hat : atStage s 9 = true) :
    exec .letterboxStage s = .next (endStage (withField s rLbxCtrl 0 0 1) 10) := (clocked_runs h _).trans (if_pos hat)

/-! ### Service mode (R467) -/

theorem exec_serviceImageWrite (h : Clocked s) (hin : inService s = true) {slot : Nat} {image : List Byte} (hslot : slot < 2)
    (hlen : image.length ≤ 0x800000) : exec (.serviceImageWrite slot image) s =
      .next (if (travarImage image).isSome then flashPut s (if slot = 0 then slotA else slotB) image else sigFail s) := by
  refine (clocked_runs h _).trans ((if_pos ⟨hin, hslot, hlen⟩).trans ?_)
  cases travarImage image with
  | none => rfl
  | some body => rfl

/-- A user part of a service station against the valid present one: what does not verify is counted, and only a newer one is written. -/
def partOffered (s : State) (new old : Option (List Byte)) : State :=
  match new, old with
  | none, _ => sigFail s
  | some p, some o => if fld o 0x10 8 < fld p 0x10 8 then flashPut s userAt p else s
  | some p, none => flashPut s userAt p

theorem exec_serviceConfigWrite (h : Clocked s) (hin : inService s = true) {part : List Byte} (hlen : part.length ≤ 0x10000) :
    exec (.serviceConfigWrite part) s = .next ((factoryConf s).elim (sigFail s)
      (fun fac => partOffered s (userConf fac part) (userConf fac (flashBytes s userAt 0x10000)))) := by
  have taken : ¬(inService s = false ∨ 0x10000 < part.length) := by
    simp only [hin, Bool.true_eq_false, false_or]
    omega
  refine (clocked_runs h _).trans ((if_neg taken).trans ?_)
  cases factoryConf s with
  | none => rfl
  | some fac =>
    simp only [Option.elim_some]
    cases userConf fac part with
    | none => rfl
    | some p =>
      cases userConf fac (flashBytes s userAt 0x10000) with
      | none => rfl
      | some old => exact (apply_ite _ _ _ _).symm

theorem exec_serviceReset (h : Clocked s) (hin : inService s = true) : exec .serviceReset s = .next (powerLoss s) :=
  (clocked_runs h _).trans (if_pos hin)

end

/-- Settles O48: each stage, where start-up stands at it, ends by what its operands find; service mode verifies before it writes. -/
theorem startupCompletes : Obligations.StartupCompletes := by
  refine ⟨fun s => ⟨fun hat => ⟨exec_standbyStage hat false, exec_standbyStage hat true⟩, fun h => ⟨fun hat stepping => ?rom, exec_travarStage h,
    fun hat => ?configuration, fun hat f vmins speeds arrays rooms => ?floors, fun hat failed margins => ?training, exec_linkStage h,
    fun hat standby gmRank sbRank => ?time, fun hat written => ?attestation, exec_letterboxStage h⟩⟩,
    fun s h hin => ⟨fun slot image hslot hlen => exec_serviceImageWrite h hin hslot hlen, fun part hlen => ?part, exec_serviceReset h hin⟩⟩
  case rom => exact ⟨exec_bootRomStage_fails h hat stepping, exec_bootRomStage_passes h hat stepping⟩
  case configuration =>
    cases hparts : (factoryConf s).bind (factoryRepair s) with
    | none => exact ⟨_, exec_configurationStage_unconfigured h hat hparts, rfl⟩
    | some rep => exact exec_configurationStage_configured h hat hparts
  case floors => exact ⟨exec_floorBringupStage_fails h hat f vmins speeds arrays rooms, exec_floorBringupStage_passes h hat vmins speeds arrays rooms⟩
  case training =>
    refine ⟨_, exec_cellarTrainingStage h hat failed margins, rfl, fun id hid => ?_⟩
    obtain ⟨htried, hgood⟩ := mem_trained id (mem_trainingEnds_live hid)
    exact ⟨mem_upTo.mp htried, fun hin => Bool.false_ne_true (hgood.symm.trans (failsTraining_of_mem _ hin))⟩
  case time => exact ⟨exec_fabricTimeStage h hat false standby gmRank sbRank, exec_fabricTimeStage h hat true standby gmRank sbRank⟩
  case attestation =>
    have shown := exec_attestationStage h hat written
    exact ⟨fun hnone => by rw [shown, hnone]; rfl, fun k hk => by rw [shown, hk]; rfl⟩
  case part =>
    rw [exec_serviceConfigWrite h hin hlen]
    cases factoryConf s with
    | none => rfl
    | some fac => rfl

end Sys2Proof.Proofs
end
